-- ==== Sys2Proof/Word.lean ====
section
/-!
DEFINITION. The word types of the machine: bytes, 32-bit lane words, 64-bit scalars, 128-byte lines.
-/
namespace Sys2Proof

/-- One byte of storage (00 R2). -/
abbrev Byte := BitVec 8

/-- One lane word of a vector register, or one word of code (03, 08 R198). -/
abbrev Word := BitVec 32

/-- One scalar register, address or packet number (08 R198, 03 R49). -/
abbrev DWord := BitVec 64

/-- One 128-B line, byte 0 in bits 7:0 (01 R12, 00 R2). -/
abbrev Line := BitVec 1024

/-- One bit per lane of a group (01 "Work and scope"). -/
abbrev Mask := BitVec 32

end Sys2Proof
end

