-- ==== Sys2Proof/Config.lean ====
section
/-!
DEFINITION. What the spec fixes for the part as a whole, and the free values: constants with no body, so that a claim
holds whatever they are (assumption log 11, 14, 18).
-/
namespace Sys2Proof.Config

/-- Lanes of a group (01 Table 01-2). -/
def lanes : Nat := 32

/-- Cores that belong to clusters; the Ranene core of die d is numbered 144 + d here (01 R8; log 5). -/
def clusterCores : Nat := 144

/-- Feature bits 0 to 11, which this device has (14 R346). -/
def features : BitVec 128 := 0xFFF

/-- FREE VALUE (log 11). Which of sixteen differing C64 entries an access translates through (15 R383). -/
opaque c64Pick : Nat → BitVec 4

/-- FREE VALUE (log 14). The energy coefficients of Table 18-12 in hundredths of a picojoule, in its order: the firmware package
has them, calibrated per part (18 R455). -/
opaque coefficient : Nat → Nat

/-- FREE VALUE (log 18). Any other value the spec leaves open (log 13, 15), numbered by the machine's counter of free values. -/
opaque value : Nat → BitVec 64

end Sys2Proof.Config
end

