-- ==== Sys2Proof/Syntax.lean ====
section
/-!
DEFINITION. The instruction syntax: one constructor of `Instr` per row of spec/opcode_table.json.

A row that is an instruction word carries the fields its word encodes (03 R56 to R75): `q` holds the guard
field G and the optional extension word, `d a b s i x c n r` the register, immediate and selector fields that the
row uses, `m v c sel rows pitch` the payload of a mandatory extension (03 Table 03-2).
A row that is an event (a step the part takes without an instruction word) carries what names its subject:
the index `k` of a message waiting on the sector network, the core, group and entry of a stream, the interface and
value of a register write.
-/
namespace Sys2Proof

/-- The payload of an EXT.MOD word (03 Table 03-2): marks TA and TB, guard index GX and negation GN, and the
permutations of sources A and B. -/
structure ModX where
  ta : Bool
  tb : Bool
  gx : BitVec 6
  gn : Bool
  pa : BitVec 3
  pax : BitVec 5
  pb : BitVec 3
  pbx : BitVec 5
  deriving DecidableEq, Repr

/-- The payload of an EXT.MEM word (03 Table 03-2): scope, order, hint and signed byte offset. -/
structure MemX where
  sc : BitVec 3
  ord : BitVec 2
  hint : BitVec 2
  ofs : BitVec 18
  deriving DecidableEq, Repr

/-- The extension word attached to a head, if any (03 R61, R62). -/
inductive Ext where
  | none
  | imm (v : BitVec 25)
  | mod (m : ModX)
  | mem (m : MemX)
  | cx (c : BitVec 6) (sel : BitVec 2)
  | aux (rows : BitVec 12) (pitch : BitVec 13)
  deriving DecidableEq, Repr

/-- The guard field and the optional extension of a head with no mandatory extension (03 R63, R67). -/
structure Quals where
  g : BitVec 3
  ext : Ext
  deriving DecidableEq, Repr

/-- Every row of spec/opcode_table.json. -/
inductive Instr where
  | moduleReset
  | runStart (core : Nat) (part : Nat)
  | waitEnd (core : Nat) (grp : Nat) (ent : Nat)
  | causalDelayEnd (core : Nat) (grp : Nat) (ent : Nat)
  | loadDataArrival (core : Nat) (grp : Nat) (pos : Nat)
  | postExecute (core : Nat) (grp : Nat) (pos : Nat)
  | postReport (core : Nat) (grp : Nat) (pos : Nat)
  | postRelease (core : Nat) (grp : Nat) (pos : Nat)
  | cancelFrom (core : Nat) (grp : Nat) (pos : Nat)
  | faultRecordWrite (die : Nat)
  | groupHeld (core : Nat) (grp : Nat)
  | translationWalk (vi : Nat) (core : Nat) (va : BitVec 64)
  | gets (k : Nat)
  | getm (k : Nat)
  | getu (k : Nat)
  | puts (k : Nat)
  | putm (k : Nat)
  | ack (k : Nat)
  | data (k : Nat)
  | atom (k : Nat)
  | recall (part : Nat) (line : Nat)
  | leasex (part : Nat) (line : Nat)
  | hsnp (k : Nat)
  | hget (k : Nat)
  | hput (k : Nat)
  | ncr (k : Nat)
  | ncw (k : Nat)
  | invalidation (k : Nat)
  | update (k : Nat)
  | forward (k : Nat)
  | reply (k : Nat)
  | sliceEviction (part : Nat) (line : Nat)
  | prangeWrite (k : Nat) (r : Nat) (value : BitVec 64)
  | fmtWrite (k : Nat) (r : Nat) (value : BitVec 64)
  | bankpartWrite (stack : Nat) (value : BitVec 64)
  | mirmetCfgWrite (stack : Nat) (value : BitVec 64)
  | subWave (stack : Nat) (pch : Nat)
  | computeBankRefresh (stack : Nat) (pch : Nat) (bank : Nat)
  | computeWindowAccess (k : Nat)
  | bankDrain (clus : Nat) (bank : Nat)
  | copyPiece (core : Nat) (chan : Nat)
  | chCtlResume (core : Nat) (chan : Nat)
  | chCtlAbort (core : Nat) (chan : Nat)
  | slotPresent (core : Nat) (part : Nat) (slot : Nat)
  | matrixPass (core : Nat) (part : Nat)
  | passResult (core : Nat) (part : Nat)
  | lnqTailWrite (vi : Nat) (q : Nat) (value : BitVec 64)
  | launchAccept (vi : Nat) (q : Nat)
  | lnqCfgWrite (vi : Nat) (q : Nat) (value : BitVec 64)
  | lnqBaseWrite (vi : Nat) (q : Nat) (value : BitVec 64)
  | teamDispatch (vi : Nat) (id : Nat) (team : Nat) (core : Nat)
  | teamRetire (vi : Nat) (id : Nat) (team : Nat)
  | memrd (port : Nat) (dec : Nat) (off : Nat)
  | memwr (port : Nat) (dec : Nat) (off : Nat) (value : BitVec 512)
  | birsp (port : Nat) (part : Nat) (line : Nat) (half : Nat)
  | h2dSnoop (port : Nat) (addr : Nat)
  | rdcurrCompletion (k : Nat) (value : BitVec 1024) (poison : Bool)
  | globalObservation (k : Nat)
  | biasReqWrite (vi : Nat) (value : BitVec 64)
  | biasStatWrite (vi : Nat) (value : BitVec 64)
  | biasFlipComplete (part : Nat) (page : Nat)
  | ptmDialogue (hostNs : Nat) (ok : Bool)
  | buithFlit (link : Nat) (crcOk : Bool)
  | hwCfgWrite (j : Nat) (r : Nat) (value : BitVec 64)
  | quiesce (dies : BitVec 4)
  | quiesceDone
  | quiesceTimeout
  | release (dies : BitVec 4)
  | abort (dies : BitVec 4)
  | partitionRegisterWrite (off : Nat) (value : BitVec 64)
  | partQtimeoutWrite (value : BitVec 64)
  | viPolicyWrite (vi : Nat) (value : BitVec 64)
  | admSqTailWrite (vi : Nat) (value : BitVec 64)
  | resync (vi : Nat)
  | imageLoad (vi : Nat)
  | acct (vi : Nat)
  | ctxReset (vi : Nat)
  | adminCompletionWrite (vi : Nat)
  | admCfgWrite (vi : Nat) (value : BitVec 64)
  | haltWrite (die : Nat) (value : BitVec 8)
  | accountingUpdate (vi : Nat)
  | acctRead (vi : Nat)
  | pldmSensorRead (sensor : Nat)
  | spdmRequest (code : BitVec 8)
  | fqCfgWrite (die : Nat) (value : BitVec 64)
  | registerWrite (off : Nat) (value : BitVec 64)
  | nop (q : Quals)
  | land (q : Quals)
  | yield (q : Quals)
  | exit (q : Quals)
  | brk (q : Quals) (b : BitVec 6)
  | trap (q : Quals) (b : BitVec 6)
  | waitf (q : Quals) (d : BitVec 6)
  | prog (q : Quals) (b : BitVec 6)
  | dphinc (q : Quals)
  | br (q : Quals) (x : BitVec 22)
  | brm (q : Quals) (x : BitVec 22)
  | call (q : Quals) (x : BitVec 22)
  | jmps (q : Quals) (a : BitVec 6)
  | jmpv (q : Quals) (a : BitVec 6)
  | calls (q : Quals) (a : BitVec 6)
  | ret (q : Quals)
  | join
  | joinm
  | map0 (d : BitVec 4) (a : BitVec 6)
  | map1 (d : BitVec 4) (a : BitVec 6)
  | side (d : BitVec 6)
  | split (v : BitVec 25)
  | emrd (q : Quals) (d : BitVec 6)
  | emwr (q : Quals) (a : BitVec 6)
  | laneid (q : Quals) (d : BitVec 6)
  | emp (q : Quals) (d : BitVec 6)
  | pathid (d : BitVec 6)
  | sadd (q : Quals) (d : BitVec 6) (a : BitVec 6) (b : BitVec 6)
  | ssub (q : Quals) (d : BitVec 6) (a : BitVec 6) (b : BitVec 6)
  | smul (q : Quals) (d : BitVec 6) (a : BitVec 6) (b : BitVec 6)
  | smulhi (q : Quals) (d : BitVec 6) (a : BitVec 6) (b : BitVec 6)
  | smulhu (q : Quals) (d : BitVec 6) (a : BitVec 6) (b : BitVec 6)
  | sand (q : Quals) (d : BitVec 6) (a : BitVec 6) (b : BitVec 6)
  | sor (q : Quals) (d : BitVec 6) (a : BitVec 6) (b : BitVec 6)
  | sxor (q : Quals) (d : BitVec 6) (a : BitVec 6) (b : BitVec 6)
  | sandn (q : Quals) (d : BitVec 6) (a : BitVec 6) (b : BitVec 6)
  | sshl (q : Quals) (d : BitVec 6) (a : BitVec 6) (b : BitVec 6)
  | sshr (q : Quals) (d : BitVec 6) (a : BitVec 6) (b : BitVec 6)
  | ssar (q : Quals) (d : BitVec 6) (a : BitVec 6) (b : BitVec 6)
  | smin (q : Quals) (d : BitVec 6) (a : BitVec 6) (b : BitVec 6)
  | smax (q : Quals) (d : BitVec 6) (a : BitVec 6) (b : BitVec 6)
  | sminu (q : Quals) (d : BitVec 6) (a : BitVec 6) (b : BitVec 6)
  | smaxu (q : Quals) (d : BitVec 6) (a : BitVec 6) (b : BitVec 6)
  | saddImm6 (q : Quals) (d : BitVec 6) (a : BitVec 6) (i : BitVec 6)
  | ssubImm6 (q : Quals) (d : BitVec 6) (a : BitVec 6) (i : BitVec 6)
  | smulImm6 (q : Quals) (d : BitVec 6) (a : BitVec 6) (i : BitVec 6)
  | smulhiImm6 (q : Quals) (d : BitVec 6) (a : BitVec 6) (i : BitVec 6)
  | smulhuImm6 (q : Quals) (d : BitVec 6) (a : BitVec 6) (i : BitVec 6)
  | sandImm6 (q : Quals) (d : BitVec 6) (a : BitVec 6) (i : BitVec 6)
  | sorImm6 (q : Quals) (d : BitVec 6) (a : BitVec 6) (i : BitVec 6)
  | sxorImm6 (q : Quals) (d : BitVec 6) (a : BitVec 6) (i : BitVec 6)
  | sandnImm6 (q : Quals) (d : BitVec 6) (a : BitVec 6) (i : BitVec 6)
  | sshlImm6 (q : Quals) (d : BitVec 6) (a : BitVec 6) (i : BitVec 6)
  | sshrImm6 (q : Quals) (d : BitVec 6) (a : BitVec 6) (i : BitVec 6)
  | ssarImm6 (q : Quals) (d : BitVec 6) (a : BitVec 6) (i : BitVec 6)
  | sminImm6 (q : Quals) (d : BitVec 6) (a : BitVec 6) (i : BitVec 6)
  | smaxImm6 (q : Quals) (d : BitVec 6) (a : BitVec 6) (i : BitVec 6)
  | sminuImm6 (q : Quals) (d : BitVec 6) (a : BitVec 6) (i : BitVec 6)
  | smaxuImm6 (q : Quals) (d : BitVec 6) (a : BitVec 6) (i : BitVec 6)
  | scmpEq (q : Quals) (d : BitVec 6) (a : BitVec 6) (b : BitVec 6)
  | scmpNe (q : Quals) (d : BitVec 6) (a : BitVec 6) (b : BitVec 6)
  | scmpLt (q : Quals) (d : BitVec 6) (a : BitVec 6) (b : BitVec 6)
  | scmpLe (q : Quals) (d : BitVec 6) (a : BitVec 6) (b : BitVec 6)
  | scmpLtu (q : Quals) (d : BitVec 6) (a : BitVec 6) (b : BitVec 6)
  | scmpLeu (q : Quals) (d : BitVec 6) (a : BitVec 6) (b : BitVec 6)
  | scmpBt (q : Quals) (d : BitVec 6) (a : BitVec 6) (b : BitVec 6)
  | smov (q : Quals) (d : BitVec 6) (a : BitVec 6)
  | ldi (g : BitVec 3) (d : BitVec 6) (v : BitVec 25)
  | ldih (g : BitVec 3) (d : BitVec 6) (v : BitVec 25)
  | wfld (q : Quals) (d : BitVec 6) (b : BitVec 6)
  | sclz (q : Quals) (d : BitVec 6) (a : BitVec 6)
  | spopc (q : Quals) (d : BitVec 6) (a : BitVec 6)
  | sbrev (q : Quals) (d : BitVec 6) (a : BitVec 6)
  | vext (q : Quals) (d : BitVec 6) (a : BitVec 6) (b : BitVec 6)
  | sext32 (q : Quals) (d : BitVec 6) (a : BitVec 6)
  | iadd (q : Quals) (d : BitVec 6) (a : BitVec 6) (b : BitVec 6)
  | isub (q : Quals) (d : BitVec 6) (a : BitVec 6) (b : BitVec 6)
  | imul (q : Quals) (d : BitVec 6) (a : BitVec 6) (b : BitVec 6)
  | imulhi (q : Quals) (d : BitVec 6) (a : BitVec 6) (b : BitVec 6)
  | imulhu (q : Quals) (d : BitVec 6) (a : BitVec 6) (b : BitVec 6)
  | and (q : Quals) (d : BitVec 6) (a : BitVec 6) (b : BitVec 6)
  | or (q : Quals) (d : BitVec 6) (a : BitVec 6) (b : BitVec 6)
  | xor (q : Quals) (d : BitVec 6) (a : BitVec 6) (b : BitVec 6)
  | andn (q : Quals) (d : BitVec 6) (a : BitVec 6) (b : BitVec 6)
  | shl (q : Quals) (d : BitVec 6) (a : BitVec 6) (b : BitVec 6)
  | shr (q : Quals) (d : BitVec 6) (a : BitVec 6) (b : BitVec 6)
  | sar (q : Quals) (d : BitVec 6) (a : BitVec 6) (b : BitVec 6)
  | imin (q : Quals) (d : BitVec 6) (a : BitVec 6) (b : BitVec 6)
  | imax (q : Quals) (d : BitVec 6) (a : BitVec 6) (b : BitVec 6)
  | iminu (q : Quals) (d : BitVec 6) (a : BitVec 6) (b : BitVec 6)
  | imaxu (q : Quals) (d : BitVec 6) (a : BitVec 6) (b : BitVec 6)
  | iaddImm6 (q : Quals) (d : BitVec 6) (a : BitVec 6) (i : BitVec 6)
  | isubImm6 (q : Quals) (d : BitVec 6) (a : BitVec 6) (i : BitVec 6)
  | imulImm6 (q : Quals) (d : BitVec 6) (a : BitVec 6) (i : BitVec 6)
  | imulhiImm6 (q : Quals) (d : BitVec 6) (a : BitVec 6) (i : BitVec 6)
  | imulhuImm6 (q : Quals) (d : BitVec 6) (a : BitVec 6) (i : BitVec 6)
  | andImm6 (q : Quals) (d : BitVec 6) (a : BitVec 6) (i : BitVec 6)
  | orImm6 (q : Quals) (d : BitVec 6) (a : BitVec 6) (i : BitVec 6)
  | xorImm6 (q : Quals) (d : BitVec 6) (a : BitVec 6) (i : BitVec 6)
  | andnImm6 (q : Quals) (d : BitVec 6) (a : BitVec 6) (i : BitVec 6)
  | shlImm6 (q : Quals) (d : BitVec 6) (a : BitVec 6) (i : BitVec 6)
  | shrImm6 (q : Quals) (d : BitVec 6) (a : BitVec 6) (i : BitVec 6)
  | sarImm6 (q : Quals) (d : BitVec 6) (a : BitVec 6) (i : BitVec 6)
  | iminImm6 (q : Quals) (d : BitVec 6) (a : BitVec 6) (i : BitVec 6)
  | imaxImm6 (q : Quals) (d : BitVec 6) (a : BitVec 6) (i : BitVec 6)
  | iminuImm6 (q : Quals) (d : BitVec 6) (a : BitVec 6) (i : BitVec 6)
  | imaxuImm6 (q : Quals) (d : BitVec 6) (a : BitVec 6) (i : BitVec 6)
  | imad (q : Quals) (d : BitVec 6) (a : BitVec 6) (b : BitVec 6)
  | vclz (q : Quals) (d : BitVec 6) (a : BitVec 6)
  | vpopc (q : Quals) (d : BitVec 6) (a : BitVec 6)
  | vbrev (q : Quals) (d : BitVec 6) (a : BitVec 6)
  | bfe (q : Quals) (d : BitVec 6) (a : BitVec 6) (b : BitVec 6)
  | bfi (q : Quals) (d : BitVec 6) (a : BitVec 6) (b : BitVec 6)
  | bysel (q : Quals) (d : BitVec 6) (a : BitVec 6) (b : BitVec 6)
  | i8dot4 (q : Quals) (d : BitVec 6) (a : BitVec 6) (b : BitVec 6)
  | n8dot4 (q : Quals) (d : BitVec 6) (a : BitVec 6) (b : BitVec 6)
  | icmpEq (q : Quals) (d : BitVec 6) (a : BitVec 6) (b : BitVec 6)
  | icmpNe (q : Quals) (d : BitVec 6) (a : BitVec 6) (b : BitVec 6)
  | icmpLt (q : Quals) (d : BitVec 6) (a : BitVec 6) (b : BitVec 6)
  | icmpLe (q : Quals) (d : BitVec 6) (a : BitVec 6) (b : BitVec 6)
  | icmpGt (q : Quals) (d : BitVec 6) (a : BitVec 6) (b : BitVec 6)
  | icmpGe (q : Quals) (d : BitVec 6) (a : BitVec 6) (b : BitVec 6)
  | icmpLtu (q : Quals) (d : BitVec 6) (a : BitVec 6) (b : BitVec 6)
  | icmpLeu (q : Quals) (d : BitVec 6) (a : BitVec 6) (b : BitVec 6)
  | icmpGtu (q : Quals) (d : BitVec 6) (a : BitVec 6) (b : BitVec 6)
  | icmpGeu (q : Quals) (d : BitVec 6) (a : BitVec 6) (b : BitVec 6)
  | icmpBt (q : Quals) (d : BitVec 6) (a : BitVec 6) (b : BitVec 6)
  | vmov (q : Quals) (d : BitVec 6) (a : BitVec 6)
  | sel (q : Quals) (d : BitVec 6) (a : BitVec 6) (b : BitVec 6)
  | bcst (q : Quals) (d : BitVec 6) (a : BitVec 6)
  | ldiv (g : BitVec 3) (d : BitVec 6) (v : BitVec 25)
  | vins (q : Quals) (d : BitVec 6) (a : BitVec 6) (b : BitVec 6)
  | pand (q : Quals) (d : BitVec 6) (a : BitVec 6) (b : BitVec 6)
  | por (q : Quals) (d : BitVec 6) (a : BitVec 6) (b : BitVec 6)
  | pxor (q : Quals) (d : BitVec 6) (a : BitVec 6) (b : BitVec 6)
  | pandn (q : Quals) (d : BitVec 6) (a : BitVec 6) (b : BitVec 6)
  | porn (q : Quals) (d : BitVec 6) (a : BitVec 6) (b : BitVec 6)
  | pnot (q : Quals) (d : BitVec 6) (a : BitVec 6)
  | pmov (q : Quals) (d : BitVec 6) (a : BitVec 6)
  | pset (q : Quals) (d : BitVec 6)
  | pclr (q : Quals) (d : BitVec 6)
  | p2s (q : Quals) (d : BitVec 6) (a : BitVec 6)
  | s2p (q : Quals) (d : BitVec 6) (a : BitVec 6)
  | ppop (q : Quals) (d : BitVec 6) (a : BitVec 6)
  | pfirst (q : Quals) (d : BitVec 6) (a : BitVec 6)
  | shfl (q : Quals) (d : BitVec 6) (a : BitVec 6) (b : BitVec 6)
  | shfls (q : Quals) (d : BitVec 6) (a : BitVec 6) (b : BitVec 6)
  | xredAddI32 (q : Quals) (d : BitVec 6) (a : BitVec 6) (b : BitVec 6)
  | xredMinI32 (q : Quals) (d : BitVec 6) (a : BitVec 6) (b : BitVec 6)
  | xredMaxI32 (q : Quals) (d : BitVec 6) (a : BitVec 6) (b : BitVec 6)
  | xredMinu (q : Quals) (d : BitVec 6) (a : BitVec 6) (b : BitVec 6)
  | xredMaxu (q : Quals) (d : BitVec 6) (a : BitVec 6) (b : BitVec 6)
  | xredAnd (q : Quals) (d : BitVec 6) (a : BitVec 6) (b : BitVec 6)
  | xredOr (q : Quals) (d : BitVec 6) (a : BitVec 6) (b : BitVec 6)
  | xredXor (q : Quals) (d : BitVec 6) (a : BitVec 6) (b : BitVec 6)
  | xredAddF32 (q : Quals) (d : BitVec 6) (a : BitVec 6) (b : BitVec 6)
  | xredMinF32 (q : Quals) (d : BitVec 6) (a : BitVec 6) (b : BitVec 6)
  | xredMaxF32 (q : Quals) (d : BitVec 6) (a : BitVec 6) (b : BitVec 6)
  | xscanAddI32 (q : Quals) (d : BitVec 6) (a : BitVec 6) (b : BitVec 6)
  | xscanAddF32 (q : Quals) (d : BitVec 6) (a : BitVec 6) (b : BitVec 6)
  | xscanMaxF32 (q : Quals) (d : BitVec 6) (a : BitVec 6) (b : BitVec 6)
  | xscanMinF32 (q : Quals) (d : BitVec 6) (a : BitVec 6) (b : BitVec 6)
  | xscanMaxI32 (q : Quals) (d : BitVec 6) (a : BitVec 6) (b : BitVec 6)
  | xscanOr (q : Quals) (d : BitVec 6) (a : BitVec 6) (b : BitVec 6)
  | xvoteAll (q : Quals) (d : BitVec 6) (a : BitVec 6) (b : BitVec 6)
  | xvoteAny (q : Quals) (d : BitVec 6) (a : BitVec 6) (b : BitVec 6)
  | xvoteBallot (q : Quals) (d : BitVec 6) (a : BitVec 6) (b : BitVec 6)
  | xvoteMatch (q : Quals) (d : BitVec 6) (a : BitVec 6) (b : BitVec 6)
  | fadd (q : Quals) (d : BitVec 6) (a : BitVec 6) (b : BitVec 6)
  | fsub (q : Quals) (d : BitVec 6) (a : BitVec 6) (b : BitVec 6)
  | fmul (q : Quals) (d : BitVec 6) (a : BitVec 6) (b : BitVec 6)
  | fmin (q : Quals) (d : BitVec 6) (a : BitVec 6) (b : BitVec 6)
  | fmax (q : Quals) (d : BitVec 6) (a : BitVec 6) (b : BitVec 6)
  | fminn (q : Quals) (d : BitVec 6) (a : BitVec 6) (b : BitVec 6)
  | fmaxn (q : Quals) (d : BitVec 6) (a : BitVec 6) (b : BitVec 6)
  | fabs (q : Quals) (d : BitVec 6) (a : BitVec 6)
  | fneg (q : Quals) (d : BitVec 6) (a : BitVec 6)
  | fcps (q : Quals) (d : BitVec 6) (a : BitVec 6) (b : BitVec 6)
  | fflr (q : Quals) (d : BitVec 6) (a : BitVec 6)
  | fcel (q : Quals) (d : BitVec 6) (a : BitVec 6)
  | ftrc (q : Quals) (d : BitVec 6) (a : BitVec 6)
  | frni (q : Quals) (d : BitVec 6) (a : BitVec 6)
  | hadd2 (q : Quals) (d : BitVec 6) (a : BitVec 6) (b : BitVec 6)
  | hmul2 (q : Quals) (d : BitVec 6) (a : BitVec 6) (b : BitVec 6)
  | hmin2 (q : Quals) (d : BitVec 6) (a : BitVec 6) (b : BitVec 6)
  | hmax2 (q : Quals) (d : BitVec 6) (a : BitVec 6) (b : BitVec 6)
  | badd2 (q : Quals) (d : BitVec 6) (a : BitVec 6) (b : BitVec 6)
  | bmul2 (q : Quals) (d : BitVec 6) (a : BitVec 6) (b : BitVec 6)
  | bmin2 (q : Quals) (d : BitVec 6) (a : BitVec 6) (b : BitVec 6)
  | bmax2 (q : Quals) (d : BitVec 6) (a : BitVec 6) (b : BitVec 6)
  | fma (q : Quals) (d : BitVec 6) (a : BitVec 6) (b : BitVec 6)
  | fms (q : Quals) (d : BitVec 6) (a : BitVec 6) (b : BitVec 6)
  | fnma (q : Quals) (d : BitVec 6) (a : BitVec 6) (b : BitVec 6)
  | fma3 (g : BitVec 3) (d : BitVec 6) (a : BitVec 6) (b : BitVec 6) (c : BitVec 6) (sx : BitVec 2)
  | hfma2 (q : Quals) (d : BitVec 6) (a : BitVec 6) (b : BitVec 6)
  | bfma2 (q : Quals) (d : BitVec 6) (a : BitVec 6) (b : BitVec 6)
  | fcmpEq (q : Quals) (d : BitVec 6) (a : BitVec 6) (b : BitVec 6)
  | fcmpNe (q : Quals) (d : BitVec 6) (a : BitVec 6) (b : BitVec 6)
  | fcmpLt (q : Quals) (d : BitVec 6) (a : BitVec 6) (b : BitVec 6)
  | fcmpLe (q : Quals) (d : BitVec 6) (a : BitVec 6) (b : BitVec 6)
  | fcmpGt (q : Quals) (d : BitVec 6) (a : BitVec 6) (b : BitVec 6)
  | fcmpGe (q : Quals) (d : BitVec 6) (a : BitVec 6) (b : BitVec 6)
  | fcmpUno (q : Quals) (d : BitVec 6) (a : BitVec 6) (b : BitVec 6)
  | fcmpOrd (q : Quals) (d : BitVec 6) (a : BitVec 6) (b : BitVec 6)
  | fcmpClass (g : BitVec 3) (d : BitVec 6) (a : BitVec 6) (v : BitVec 25)
  | frcp (q : Quals) (d : BitVec 6) (a : BitVec 6)
  | frsq (q : Quals) (d : BitVec 6) (a : BitVec 6)
  | fsqrt (q : Quals) (d : BitVec 6) (a : BitVec 6)
  | fexp2 (q : Quals) (d : BitVec 6) (a : BitVec 6)
  | flog2 (q : Quals) (d : BitVec 6) (a : BitVec 6)
  | fdiv (q : Quals) (d : BitVec 6) (a : BitVec 6) (b : BitVec 6)
  | cvtF16F32 (q : Quals) (d : BitVec 6) (a : BitVec 6) (n : BitVec 2) (s : BitVec 1) (r : BitVec 3)
  | cvtBf16F32 (q : Quals) (d : BitVec 6) (a : BitVec 6) (n : BitVec 2) (s : BitVec 1) (r : BitVec 3)
  | cvtF8e4F32 (q : Quals) (d : BitVec 6) (a : BitVec 6) (n : BitVec 2) (s : BitVec 1) (r : BitVec 3)
  | cvtF8e5F32 (q : Quals) (d : BitVec 6) (a : BitVec 6) (n : BitVec 2) (s : BitVec 1) (r : BitVec 3)
  | cvtF32F16 (q : Quals) (d : BitVec 6) (a : BitVec 6) (n : BitVec 2)
  | cvtF32Bf16 (q : Quals) (d : BitVec 6) (a : BitVec 6) (n : BitVec 2)
  | cvtF32F8e4 (q : Quals) (d : BitVec 6) (a : BitVec 6) (n : BitVec 2)
  | cvtF32F8e5 (q : Quals) (d : BitVec 6) (a : BitVec 6) (n : BitVec 2)
  | cvtI32F32 (q : Quals) (d : BitVec 6) (a : BitVec 6) (s : BitVec 1) (r : BitVec 3)
  | cvtN32F32 (q : Quals) (d : BitVec 6) (a : BitVec 6) (s : BitVec 1) (r : BitVec 3)
  | cvtF32I32 (q : Quals) (d : BitVec 6) (a : BitVec 6) (r : BitVec 3)
  | cvtF32N32 (q : Quals) (d : BitVec 6) (a : BitVec 6) (r : BitVec 3)
  | cbk (q : Quals) (d : BitVec 6) (a : BitVec 6) (n : BitVec 3)
  | pk2h (q : Quals) (d : BitVec 6) (a : BitVec 6) (b : BitVec 6)
  | pkhi (q : Quals) (d : BitVec 6) (a : BitVec 6) (b : BitVec 6)
  | pkb01 (q : Quals) (d : BitVec 6) (a : BitVec 6) (b : BitVec 6)
  | pkb23 (q : Quals) (d : BitVec 6) (a : BitVec 6) (b : BitVec 6)
  | upklo (q : Quals) (d : BitVec 6) (a : BitVec 6)
  | upkhi (q : Quals) (d : BitVec 6) (a : BitVec 6)
  | ldB8z (q : Quals) (d : BitVec 6) (a : BitVec 6) (s : BitVec 6)
  | ldB8s (q : Quals) (d : BitVec 6) (a : BitVec 6) (s : BitVec 6)
  | ldB16z (q : Quals) (d : BitVec 6) (a : BitVec 6) (s : BitVec 6)
  | ldB16s (q : Quals) (d : BitVec 6) (a : BitVec 6) (s : BitVec 6)
  | ldB32 (q : Quals) (d : BitVec 6) (a : BitVec 6) (s : BitVec 6)
  | ldB64 (q : Quals) (d : BitVec 6) (a : BitVec 6) (s : BitVec 6)
  | ldB128 (q : Quals) (d : BitVec 6) (a : BitVec 6) (s : BitVec 6)
  | ldW32 (q : Quals) (d : BitVec 6) (a : BitVec 6)
  | stB8 (q : Quals) (d : BitVec 6) (a : BitVec 6) (s : BitVec 6)
  | stB16 (q : Quals) (d : BitVec 6) (a : BitVec 6) (s : BitVec 6)
  | stB32 (q : Quals) (d : BitVec 6) (a : BitVec 6) (s : BitVec 6)
  | stB64 (q : Quals) (d : BitVec 6) (a : BitVec 6) (s : BitVec 6)
  | stB128 (q : Quals) (d : BitVec 6) (a : BitVec 6) (s : BitVec 6)
  | stW32 (q : Quals) (d : BitVec 6) (a : BitVec 6)
  | lduB32z (q : Quals) (d : BitVec 6) (s : BitVec 6)
  | lduB32s (q : Quals) (d : BitVec 6) (s : BitVec 6)
  | lduB64 (q : Quals) (d : BitVec 6) (s : BitVec 6)
  | stuB32 (q : Quals) (d : BitVec 6) (s : BitVec 6)
  | stuB64 (q : Quals) (d : BitVec 6) (s : BitVec 6)
  | ldxB8z (g : BitVec 3) (d : BitVec 6) (a : BitVec 6) (s : BitVec 6) (m : MemX)
  | ldxB8s (g : BitVec 3) (d : BitVec 6) (a : BitVec 6) (s : BitVec 6) (m : MemX)
  | ldxB16z (g : BitVec 3) (d : BitVec 6) (a : BitVec 6) (s : BitVec 6) (m : MemX)
  | ldxB16s (g : BitVec 3) (d : BitVec 6) (a : BitVec 6) (s : BitVec 6) (m : MemX)
  | ldxB32 (g : BitVec 3) (d : BitVec 6) (a : BitVec 6) (s : BitVec 6) (m : MemX)
  | ldxB64 (g : BitVec 3) (d : BitVec 6) (a : BitVec 6) (s : BitVec 6) (m : MemX)
  | ldxB128 (g : BitVec 3) (d : BitVec 6) (a : BitVec 6) (s : BitVec 6) (m : MemX)
  | stxB8 (g : BitVec 3) (d : BitVec 6) (a : BitVec 6) (s : BitVec 6) (m : MemX)
  | stxB16 (g : BitVec 3) (d : BitVec 6) (a : BitVec 6) (s : BitVec 6) (m : MemX)
  | stxB32 (g : BitVec 3) (d : BitVec 6) (a : BitVec 6) (s : BitVec 6) (m : MemX)
  | stxB64 (g : BitVec 3) (d : BitVec 6) (a : BitVec 6) (s : BitVec 6) (m : MemX)
  | stxB128 (g : BitVec 3) (d : BitVec 6) (a : BitVec 6) (s : BitVec 6) (m : MemX)
  | atomAddI32 (g : BitVec 3) (d : BitVec 6) (a : BitVec 6) (s : BitVec 6) (m : MemX)
  | atomAddF32 (g : BitVec 3) (d : BitVec 6) (a : BitVec 6) (s : BitVec 6) (m : MemX)
  | atomMinI32 (g : BitVec 3) (d : BitVec 6) (a : BitVec 6) (s : BitVec 6) (m : MemX)
  | atomMaxI32 (g : BitVec 3) (d : BitVec 6) (a : BitVec 6) (s : BitVec 6) (m : MemX)
  | atomMinu (g : BitVec 3) (d : BitVec 6) (a : BitVec 6) (s : BitVec 6) (m : MemX)
  | atomMaxu (g : BitVec 3) (d : BitVec 6) (a : BitVec 6) (s : BitVec 6) (m : MemX)
  | atomAnd (g : BitVec 3) (d : BitVec 6) (a : BitVec 6) (s : BitVec 6) (m : MemX)
  | atomOr (g : BitVec 3) (d : BitVec 6) (a : BitVec 6) (s : BitVec 6) (m : MemX)
  | atomXor (g : BitVec 3) (d : BitVec 6) (a : BitVec 6) (s : BitVec 6) (m : MemX)
  | atomXchg (g : BitVec 3) (d : BitVec 6) (a : BitVec 6) (s : BitVec 6) (m : MemX)
  | atomIncw (g : BitVec 3) (d : BitVec 6) (a : BitVec 6) (s : BitVec 6) (m : MemX)
  | atomDecw (g : BitVec 3) (d : BitVec 6) (a : BitVec 6) (s : BitVec 6) (m : MemX)
  | atomAddI64 (g : BitVec 3) (d : BitVec 6) (a : BitVec 6) (s : BitVec 6) (m : MemX)
  | atomXchg64 (g : BitVec 3) (d : BitVec 6) (a : BitVec 6) (s : BitVec 6) (m : MemX)
  | atomAddH2 (g : BitVec 3) (d : BitVec 6) (a : BitVec 6) (s : BitVec 6) (m : MemX)
  | atomAddB2 (g : BitVec 3) (d : BitVec 6) (a : BitVec 6) (s : BitVec 6) (m : MemX)
  | redAddI32 (g : BitVec 3) (d : BitVec 6) (a : BitVec 6) (s : BitVec 6) (m : MemX)
  | redAddF32 (g : BitVec 3) (d : BitVec 6) (a : BitVec 6) (s : BitVec 6) (m : MemX)
  | redMinI32 (g : BitVec 3) (d : BitVec 6) (a : BitVec 6) (s : BitVec 6) (m : MemX)
  | redMaxI32 (g : BitVec 3) (d : BitVec 6) (a : BitVec 6) (s : BitVec 6) (m : MemX)
  | redMinu (g : BitVec 3) (d : BitVec 6) (a : BitVec 6) (s : BitVec 6) (m : MemX)
  | redMaxu (g : BitVec 3) (d : BitVec 6) (a : BitVec 6) (s : BitVec 6) (m : MemX)
  | redAnd (g : BitVec 3) (d : BitVec 6) (a : BitVec 6) (s : BitVec 6) (m : MemX)
  | redOr (g : BitVec 3) (d : BitVec 6) (a : BitVec 6) (s : BitVec 6) (m : MemX)
  | redXor (g : BitVec 3) (d : BitVec 6) (a : BitVec 6) (s : BitVec 6) (m : MemX)
  | redXchg (g : BitVec 3) (d : BitVec 6) (a : BitVec 6) (s : BitVec 6) (m : MemX)
  | redIncw (g : BitVec 3) (d : BitVec 6) (a : BitVec 6) (s : BitVec 6) (m : MemX)
  | redDecw (g : BitVec 3) (d : BitVec 6) (a : BitVec 6) (s : BitVec 6) (m : MemX)
  | redAddI64 (g : BitVec 3) (d : BitVec 6) (a : BitVec 6) (s : BitVec 6) (m : MemX)
  | redXchg64 (g : BitVec 3) (d : BitVec 6) (a : BitVec 6) (s : BitVec 6) (m : MemX)
  | redAddH2 (g : BitVec 3) (d : BitVec 6) (a : BitVec 6) (s : BitVec 6) (m : MemX)
  | redAddB2 (g : BitVec 3) (d : BitVec 6) (a : BitVec 6) (s : BitVec 6) (m : MemX)
  | cas32 (g : BitVec 3) (d : BitVec 6) (a : BitVec 6) (s : BitVec 6) (m : MemX)
  | cas64 (g : BitVec 3) (d : BitVec 6) (a : BitVec 6) (s : BitVec 6) (m : MemX)
  | fence (m : MemX)
  | fenceEng (m : MemX)
  | pref (q : Quals) (s : BitVec 6)
  | cwb (q : Quals) (s : BitVec 6)
  | cinv (q : Quals) (s : BitVec 6)
  | czero (q : Quals) (s : BitVec 6)
  | bankm (q : Quals) (a : BitVec 6) (s : BitVec 6)
  | cevt (q : Quals) (s : BitVec 6)
  | spill (q : Quals) (d : BitVec 6) (a : BitVec 6) (s : BitVec 6)
  | fill (q : Quals) (d : BitVec 6) (a : BitVec 6) (s : BitVec 6)
  | ldoF8 (q : Quals) (d : BitVec 6) (s : BitVec 6)
  | ldoBf16 (q : Quals) (d : BitVec 6) (s : BitVec 6)
  | ldoQ4n (q : Quals) (d : BitVec 6) (s : BitVec 6)
  | claim (q : Quals) (d : BitVec 6)
  | rels (q : Quals) (d : BitVec 6)
  | slotq (q : Quals) (d : BitVec 6) (a : BitVec 6)
  | mmaE4e4 (q : Quals) (d : BitVec 6) (a : BitVec 6) (b : BitVec 6)
  | mmaE5e4 (q : Quals) (d : BitVec 6) (a : BitVec 6) (b : BitVec 6)
  | mmaE4e5 (q : Quals) (d : BitVec 6) (a : BitVec 6) (b : BitVec 6)
  | mmaE5e5 (q : Quals) (d : BitVec 6) (a : BitVec 6) (b : BitVec 6)
  | mmaBf16 (q : Quals) (d : BitVec 6) (a : BitVec 6) (b : BitVec 6)
  | mmaF16 (q : Quals) (d : BitVec 6) (a : BitVec 6) (b : BitVec 6)
  | mmaE4q4 (q : Quals) (d : BitVec 6) (a : BitVec 6) (b : BitVec 6)
  | mmaI8 (q : Quals) (d : BitVec 6) (a : BitVec 6) (b : BitVec 6)
  | mmspE4e4 (g : BitVec 3) (d : BitVec 6) (a : BitVec 6) (b : BitVec 6) (c : BitVec 6) (sx : BitVec 2)
  | mmspBf16 (g : BitVec 3) (d : BitVec 6) (a : BitVec 6) (b : BitVec 6) (c : BitVec 6) (sx : BitVec 2)
  | mmspI8 (g : BitVec 3) (d : BitVec 6) (a : BitVec 6) (b : BitVec 6) (c : BitVec 6) (sx : BitVec 2)
  | cpy (q : Quals) (d : BitVec 6) (a : BitVec 6) (b : BitVec 6) (c : BitVec 3)
  | cpy2d (g : BitVec 3) (d : BitVec 6) (a : BitVec 6) (b : BitVec 6) (c : BitVec 3) (rows : BitVec 12) (pitch : BitVec 13)
  | twait (q : Quals) (a : BitVec 6) (c : BitVec 3)
  | treadIss (q : Quals) (d : BitVec 6) (c : BitVec 3)
  | treadDone (q : Quals) (d : BitVec 6) (c : BitVec 3)
  | treadWp (q : Quals) (d : BitVec 6) (c : BitVec 3)
  | wpwait (q : Quals) (a : BitVec 6) (c : BitVec 3)
  | qpush (q : Quals) (d : BitVec 6) (a : BitVec 6)
  | qpushTry (q : Quals) (d : BitVec 6) (a : BitVec 6) (b : BitVec 6)
  | qpop (q : Quals) (d : BitVec 6) (a : BitVec 6)
  | qpopTry (q : Quals) (d : BitVec 6) (a : BitVec 6) (b : BitVec 6)
  | qinit (q : Quals) (d : BitVec 6) (a : BitVec 6) (b : BitVec 6)
  | qallow (q : Quals) (d : BitVec 6) (a : BitVec 6)
  | qclose (q : Quals) (d : BitVec 6)
  | binit (q : Quals) (d : BitVec 6) (a : BitVec 6)
  | barr (q : Quals) (d : BitVec 6)
  | bwait (q : Quals) (d : BitVec 6)
  | bsync (q : Quals) (d : BitVec 6)
  | barrn (q : Quals) (d : BitVec 6) (a : BitVec 6)
  | homeL (q : Quals) (d : BitVec 6)
  | homeK (q : Quals) (d : BitVec 6)
  | homeH (q : Quals) (d : BitVec 6) (a : BitVec 6)
  | homeM (q : Quals) (d : BitVec 6) (a : BitVec 6)
  | drain (q : Quals)
  | mfpm (q : Quals) (d : BitVec 6) (a : BitVec 6)
  | quota (q : Quals) (a : BitVec 6)
  | akey (q : Quals) (d : BitVec 6) (a : BitVec 6)
  | aact (q : Quals) (d : BitVec 6) (a : BitVec 6)
  | acmp (q : Quals) (d : BitVec 6)
  | acmpa (q : Quals) (d : BitVec 6)
  | acmpo (q : Quals) (d : BitVec 6)
  | awrt (q : Quals) (d : BitVec 6)
  | apass (q : Quals) (d : BitVec 6) (a : BitVec 6)
  | apre (q : Quals) (d : BitVec 6)
  | ardt (q : Quals) (d : BitVec 6) (b : BitVec 6)
  | acnt (q : Quals) (d : BitVec 6)
  | launch (q : Quals) (d : BitVec 6) (a : BitVec 6)
  | tsig (q : Quals)
  | evset (q : Quals) (a : BitVec 6)
  | evwait (q : Quals) (a : BitVec 6)
  | lstat (q : Quals) (d : BitVec 6) (a : BitVec 6)
  | mfs (q : Quals) (d : BitVec 6) (b : BitVec 6)
  | mts (q : Quals) (a : BitVec 6) (b : BitVec 6)
  | tlbi (g : BitVec 3) (a : BitVec 6) (b : BitVec 6) (m : MemX)
  | ctxsv (q : Quals) (d : BitVec 6) (a : BitVec 6) (b : BitVec 6)
  | ctxrs (q : Quals) (d : BitVec 6) (a : BitVec 6)
  | winrd (q : Quals) (d : BitVec 6) (a : BitVec 6)
  | winwr (q : Quals) (a : BitVec 6) (b : BitVec 6)
  | resume (q : Quals) (a : BitVec 6)
  | ptload (q : Quals) (d : BitVec 6) (a : BitVec 6) (b : BitVec 6)
  | bias (q : Quals) (d : BitVec 6) (a : BitVec 6)
  | dtime (q : Quals) (d : BitVec 6)
  | configurationRequest (port : Nat) (reg : Nat)
  | replicaFill (k : Nat)
  | backInvalidation (k : Nat)
  deriving DecidableEq, Repr

end Sys2Proof
end

