-- ==== Sys2Proof/Machine/State.lean ====
section
/-!
DEFINITION. The machine's state as plain data, and the state right after module reset.

A table indexed by number is a list of (number, record) pairs in strictly rising order of the number; an index that is
not listed has the record it has at reset. Times are device time: `clk` counts half nanoseconds (00 R6).
-/
namespace Sys2Proof.Machine

/-- A table: (index, record) pairs, indexes strictly rising. -/
abbrev Table (α : Type) := List (Nat × α)

/-! ### Registers and paths (02, 08, 13) -/

/-- The four places (01 Table 01-5). -/
inductive Place where
  | l | k | h | m
  deriving DecidableEq, Repr

/-- A translated page (15 R382): its first address, size, physical address, permissions. -/
structure PageMap where
  va : Nat
  size : Nat
  pa : Nat
  r : Bool
  w : Bool
  x : Bool
  deriving DecidableEq, Repr

/-- One v register with its place-map entry (08 R198, R202; 04 R98). `anchor` is the virtual address of the anchor line
at H and M and [20:16] bank, [15:7] frame at K; `dpa` the anchor's translation and `page` the page it was found in, none
once a TLBI has covered it (15 R385). `prods` lists the unfinished producers:
sequence position and the lanes still owed; the register is full when there is none (R217). `tags` are the eight tag
vectors of a frame at M. -/
structure VReg where
  place : Place
  anchor : DWord
  dpa : Nat
  prods : List (Nat × Mask)
  lanes : Vector Word 32
  tags : List (BitVec 256)
  page : Option PageMap
  deriving DecidableEq, Repr

/-- Where an access goes, by its 128-B line: a line of device memory under a partition's homes, a scratch bank, a B-slot, the management
window, or host memory (07 Table 07-1, 17 R417). -/
inductive Target where
  | line (part line : Nat)
  | scratch (clus bank off : Nat)
  | slot (core part slot off : Nat)
  | mgmt (off : Nat)
  | host (addr : Nat)
  deriving DecidableEq, Repr

/-- Why a stream is BLOCKED: what ends its blocking wait. -/
inductive Wait where
  /-- a v register is full (08 R218) -/
  | full (regs : List Nat)
  /-- an s register's LDU data has arrived (07 R180) -/
  | sFull (r : Nat)
  /-- the retire window has room (08 R212) -/
  | window
  /-- every older instruction of the group has retired, been released and performed (08 R214, R224) -/
  | drained
  /-- older writes of the group have performed, and device time has passed %vt of this class, 0 to 2 (07 R181) -/
  | release (cls : Nat)
  /-- older loads of the group have retired, and device time has passed the times they carried, for a class (07 R191,
  12 R300) -/
  | loaded (cls : Nat)
  /-- device time has passed this time (12 R300) -/
  | time (ns : Nat)
  /-- an acquire of the group has completed (07 R181) -/
  | acquire
  /-- older stores and atomics of the group to these lines have performed, and older loads that must come first
  (07 R177, 12 R297) -/
  | lines (ls : List Target) (home : Bool)
  /-- the channel has completed n operations (06 R158) -/
  | copied (chan n : Nat)
  /-- as copied, or operation n is under way and its write pointer has passed a (06 R158) -/
  | wrote (chan n : Nat) (a : DWord)
  /-- the channel holds fewer than 16 incomplete operations (06 R153) -/
  | chanRoom (chan : Nat)
  /-- the coupling has allowance (06 R161) -/
  | qRoom (q : Nat)
  /-- the coupling has an entry or is closed (06 R161) -/
  | qData (q : Nat)
  /-- the slot has no owner and this group is first in line (06 R165) -/
  | slotFree (s : Nat)
  /-- no pass still to start and no LDO in progress in the slot; `copies`: no pending copy into it either (06 R165,
  11 R286) -/
  | slotIdle (s : Nat) (copies : Bool)
  /-- the slot is present (11 R284) -/
  | slotPresent (s : Nat)
  /-- fewer than four matrix instructions are unretired (11 R287) -/
  | mtxRoom
  /-- the phase of the barrier in which the group arrived has completed (14 R365) -/
  | barrier (b : Nat)
  /-- that phase has completed: the wait is over (14 R364) -/
  | passed (b : Nat)
  /-- the event bit is set (14 R362) -/
  | event (n : Nat)
  /-- the team pool has the registers for an LQ of n and this group is first in line (08 R227) -/
  | pool (n : Nat)
  /-- no flip of the page is in progress; `own` where the instruction started it (17 R427) -/
  | flip (part page : Nat) (own : Bool)
  /-- holds of the team's groups by other Ranene groups are released (15 R393) -/
  | unheld (tid : Nat)
  /-- the team of the group is drained and settled (15 R393) -/
  | gathered (tid : Nat)
  /-- no access under an interface (of any, where none is named) is under way on these dies (15 R386) -/
  | flushed (dies : BitVec 4) (vi : Option Nat)
  /-- the causal delay has run out, in clocks of device time (19 R467) -/
  | causal (clk : Nat)
  /-- a line that a host or a busy unit holds can be reached (17 R423, 04 R103) -/
  | reach (part line : Nat)
  /-- no line of the cluster's bank has a GETU outstanding (06 R142) -/
  | bank (clus b : Nat)
  /-- the peers of a JOIN, or of a JOINM where `melds` (13 R325, R332) -/
  | join (melds : Bool)
  deriving DecidableEq, Repr

/-- The states of a path entry (13 Table 13-1). -/
inductive PState where
  | ready | blocked | joinWait | siding | held
  deriving DecidableEq, Repr

/-- One path-table entry (13 Table 13-1, 15 Table 15-7). `jstack` has the top first; `run` is RUNCNT; `lost` the wait
count W (14 R359); `skip` the packet whose PC breakpoint is skipped once (19 R461); `since` the clock at which its wait began;
`used` the clock at which the entry was last scheduled and `away` that it is spilled to the context area (13 R312). -/
structure Path where
  valid : Bool
  state : PState
  pn : DWord
  slot : Nat
  mask : Mask
  em : Mask
  jstack : List DWord
  meld : Bool
  side : Bool
  link : Option Nat
  map : Vector (BitVec 6) 16
  run : Nat
  wait : Option Wait
  cause : BitVec 8
  spil : Option Nat
  lost : Nat
  skip : Option DWord
  since : Nat
  used : Nat
  away : Bool
  deriving DecidableEq, Repr

/-- What cancel-from restores for a group (08 R215, 13 R317): the registers, %em in the paths, %fcr %fsr %dph, %dirty,
the place map and the path table. `sPend` lists s registers that await LDU data, with the load's position (07 R180). -/
structure Arch where
  v : Vector VReg 64
  s : Vector DWord 64
  sPend : List (Nat × Nat)
  p : Vector Mask 64
  fcr : DWord
  fsr : DWord
  dph : BitVec 16
  dirty : BitVec 64
  paths : Vector Path 32
  deriving DecidableEq, Repr

/-! ### Posts and unretired instructions (08 R211 to R217) -/

/-- The sixteen ALU operations (09 Table 09-1). -/
inductive AluOp where
  | add | sub | mul | mulhi | mulhu | and | or | xor | andn | shl | shr | sar | min | max | minu | maxu
  deriving DecidableEq, Repr

/-- VALU2 (09 Table 09-4). -/
inductive V2Op where
  | imad | clz | popc | brev | bfe | bfi | bysel | i8dot4 | n8dot4
  deriving DecidableEq, Repr

/-- The F32 forms (10 Table 10-3). -/
inductive F32Op where
  | add | sub | mul | min | max | minn | maxn | abs | neg | cps | flr | cel | trc | rni
  deriving DecidableEq, Repr

/-- The packed 16-bit operations of FPK (10 R260). -/
inductive PkOp where
  | add | mul | min | max
  deriving DecidableEq, Repr

/-- The fused forms (10 Table 10-5). -/
inductive FmaOp where
  | fma | fms | fnma | fma3 | hfma2 | bfma2
  deriving DecidableEq, Repr

/-- FSPC (10 R265). -/
inductive SpcOp where
  | rcp | rsq | sqrt | exp2 | log2 | div
  deriving DecidableEq, Repr

/-- The conversions (10 Table 10-11). -/
inductive CvtOp where
  | toF16 | toBf16 | toF8e4 | toF8e5 | fromF16 | fromBf16 | fromF8e4 | fromF8e5 | toI32 | toN32 | fromI32 | fromN32 | cbk
  deriving DecidableEq, Repr

/-- PACK (10 Table 10-14). -/
inductive PackOp where
  | pk2h | pkhi | pkb01 | pkb23 | upklo | upkhi
  deriving DecidableEq, Repr

/-- What a lane-wise instruction with a vector destination computes in each lane. `cvt` carries its rounding code, SAT
and slot; `splat` writes a value sampled at dispatch; `vins` writes it to one lane. -/
inductive LaneOp where
  | alu (o : AluOp)
  | v2 (o : V2Op)
  | f32 (o : F32Op)
  | pk (half : Bool) (o : PkOp)
  | fma (o : FmaOp)
  | spc (o : SpcOp)
  | cvt (o : CvtOp) (r : BitVec 3) (sat : Bool) (k : Nat)
  | pack (o : PackOp)
  | mov
  | sel
  | splat
  | vins (lane : Nat)
  | laneid
  deriving DecidableEq, Repr

/-- One half of an instruction (13 R329): the path entry, its active lanes, the register names after renaming, the
immediate or scalar that stands for source B, the selector mask of SEL, and the place of execution. -/
structure Half where
  ent : Nat
  act : Mask
  d : Nat
  a : Nat
  b : Nat
  c : Nat
  imm : Option Word
  sel : Mask
  place : Place
  deriving DecidableEq, Repr

/-- The memory instructions by what they do with memory; LDO and CZERO move 16-B units, the slot of an LDO being the
register named. -/
inductive MKind where
  | load | store | atom | red | cas | loadS | storeS | ldo | spill | fill | czero
  deriving DecidableEq, Repr

/-- A memory instruction without its addresses (07). `f` is the F value of an atomic or an LDO, the first index of a SPILL
or FILL; `size` the access size in bytes. -/
structure MemOp where
  kind : MKind
  size : Nat
  signed : Bool
  f : Nat
  ord : BitVec 2
  sc : BitVec 3
  hint : BitVec 2
  deriving DecidableEq, Repr

/-- One lane's access: its lane, its first register after renaming, its byte in the line or window, the operand (for
a CAS the new value), the compare value of a CAS, and the value read. -/
structure Acc where
  lane : Nat
  reg : Nat
  off : Nat
  val : BitVec 128
  cmp : BitVec 64
  got : BitVec 128
  deriving DecidableEq, Repr

/-- How far the request for one line has come: to be sent, sent to a home or a host, answered. A write at K asks for
write permission first, and performs when it is released (07 R173). -/
inductive ReqStat where
  | todo | asked | granted | sent | done
  deriving DecidableEq, Repr

/-- The part of a memory instruction that touches one line (07 R187): a combined request; `fail` is the cause for which
its lanes trap (07 Table 07-3 rows 5 and 6), `rvt` the VT_dev its reply carried (12 R300), `ns` when it performed. -/
structure LineReq where
  tgt : Target
  accs : List Acc
  stat : ReqStat
  fail : Option (BitVec 8)
  rvt : Nat
  ns : Nat
  deriving DecidableEq, Repr

/-- Why an instruction traps: cause, ADDR and OPERAND of its record, the record's lanes where they are not the entry's
EM, the lanes that leave (the whole entry where it is none), the SPILL or FILL index, the place of execution and the
slot of the offending word where it is not the instruction's (15 R370 to R372, 13 R335). -/
structure FaultInfo where
  cause : BitVec 8
  addr : DWord
  operand : DWord
  mask : Option Mask
  lanes : Option Mask
  spil : Option Nat
  place : Place
  wslot : Option Nat
  deriving DecidableEq, Repr

/-- The AOP operations (04 Table 04-9). -/
inductive AopOp where
  | akey | aact | acmp | acmpa | acmpo | awrt | apass | apre | ardt | acnt
  deriving DecidableEq, Repr

/-- The work of an unretired instruction. -/
inductive Op where
  /-- a trap whose lanes have left and whose record waits for older instructions to retire (08 R215): the sided entry,
  whether the instruction goes on for other lanes, and the resume point -/
  | trap (sided : Nat) (partly : Bool) (pn : DWord) (slot : Nat)
  /-- lane-wise work, for each half (13 R329) -/
  | lane (o : LaneOp) (hs : List Half)
  /-- a memory instruction and its combined requests; `ea` holds the addresses of its active lanes -/
  | mem (m : MemOp) (hs : List Half) (ea : List (Nat × DWord)) (reqs : List LineReq)
  /-- an AOP on the frame of each half's D, with its A as control source, and bank `b` (04 R106) -/
  | aop (o : AopOp) (hs : List Half) (b : Nat)
  /-- a HOME of `reg` out of the register it had (08 R220) -/
  | home (reg : Nat) (old : VReg)
  /-- a matrix instruction: its halves and how many of its passes have not ended (11 R285) -/
  | mma (hs : List Half) (left : Nat)
  /-- XRED or XSCAN: the words that its active lanes will get (08 R217, 09 R247) -/
  | cross (d : Nat) (act : Mask) (w : Vector Word 32)
  deriving DecidableEq, Repr

/-- The life of a post (08 R213): dispatched, executed at its place, reported to the core, retired with its release
on the way. An entry is removed when its release is applied. -/
inductive Stage where
  | posted | executed | reported | released
  deriving DecidableEq, Repr

/-- An instruction that has been dispatched and is not retired: its position, its stream's entry, its packet and slot, the
place, its work, the flags it raised, the traps found when it executed, by entry, the group's registers and paths as they stood before it and
after its dispatch, and, for the later instruction of a chain group, the registers it reads (03 R52). The halves of a
consist's instruction at different places have one entry each, with one position. -/
structure Entry where
  pos : Nat
  ent : Nat
  pn : DWord
  slot : Nat
  place : Place
  op : Op
  stage : Stage
  flags : BitVec 5
  fault : List (Nat × FaultInfo)
  before : Arch
  after : Arch
  old : Option Arch
  deriving DecidableEq, Repr

/-- The second instruction of a chain group that waits although its partner has issued: its entry, packet and slot, the
position it comes before, and the registers it still reads (03 R52). -/
structure Late where
  ent : Nat
  pn : DWord
  slot : Nat
  pos : Nat
  regs : Arch
  deriving DecidableEq, Repr

/-- A resident group (08, 14 R344, R357, 15 R367). `lates` are second instructions of chain groups that wait (log 6). `team` is
the team's number in `State.teams`, none for a privileged group. `seen` holds the team channels whose copy operations the group has observed (07 R192); `wsel` and
`werr` are a privileged group's %wsel and %wstat.ERR, `hold` that its %wsel holds a group and `held` %wstat.HELD (15 R377,
R378); `stopped` marks a halted privileged group (15 R368). -/
structure Group where
  team : Option Nat
  gidx : Nat
  vi : Nat
  arch : Arch
  rob : List Entry
  lates : List Late
  seq : Nat
  lq : Nat
  kq : Nat
  hq : Nat
  mq : Nat
  vtClu : Nat
  vtDev : Nat
  vtSys : Nat
  floor : Nat
  acq : Option Nat
  seen : List Nat
  dbgsel : BitVec 8
  wsel : DWord
  werr : BitVec 4
  hold : Bool
  held : Bool
  ended : Bool
  stopped : Bool
  deriving DecidableEq, Repr

/-! ### Teams, launches and engine contexts (14) -/

/-- A coupling (06 Table 06-7): the handles, oldest first, and whether it holds its 4 KiB of FIFO storage. -/
structure Coupling where
  opened : Bool
  closed : Bool
  defer : Bool
  depth : Nat
  prod : Nat
  cons : Nat
  allow : Nat
  ret : Nat
  handles : List Word
  stored : Bool
  deriving DecidableEq, Repr

/-- A barrier (14 R364). -/
structure Barrier where
  count : Nat
  arr : Nat
  phase : Bool
  arrived : BitVec 32
  last : BitVec 32
  deriving DecidableEq, Repr

/-- The launch header's fields (14 Table 14-1). -/
structure Header where
  ser : Bool
  entry : DWord
  features : BitVec 128
  width : List Nat
  aff : List Nat
  gpt : Nat
  prio : Nat
  budget : Nat
  kq : Nat
  hq : Nat
  mq : Nat
  scrb : Nat
  fifob : Nat
  frmb : Nat
  nch : Nat
  nq : Nat
  nbar : Nat
  extent : List Nat
  pmap : BitVec 128
  lq : List Nat
  depId : DWord
  depKind : Nat
  depK : Nat
  depJ : Nat
  depA : Int
  depB : Int
  depC : Int
  param : DWord
  cbmap : DWord
  evwait : BitVec 256
  evset : BitVec 256
  /-- bytes 0x20 to 0x5F of the header, as a team image saves them (15 Table 15-12) -/
  res : List Byte
  deriving DecidableEq, Repr

/-- The states LSTAT reports (14 Table 14-9). -/
inductive LState where
  | waiting | running | complete | failed
  deriving DecidableEq, Repr

/-- An accepted launch (14 R342 to R356). `done` lists the teams whose completion bit is set, `sent` the dispatched,
`retired` and `killed` those that ended; `evOk` that its event wait was met once (R354); `affs` the cluster or die
chosen for a set of teams: coordinate field, the coordinates above it, the choice (R356); `caps` is the interface's
capability when the launch was accepted (18 R445), `stamp` the clock of its acceptance (R355). -/
structure Launch where
  id : Nat
  hdr : Header
  queue : Nat
  status : BitVec 8
  state : LState
  done : List Nat
  sent : List Nat
  retired : List Nat
  killed : List Nat
  evOk : Bool
  affs : List (Nat × List Nat × Nat)
  caps : BitVec 128
  stamp : Nat
  deriving DecidableEq, Repr

/-- A completion or event that waits to be written to an admin completion ring (18 R447, R448): CID, STATUS, RESULT. -/
structure Completion where
  cid : BitVec 16
  status : BitVec 8
  result : DWord
  deriving DecidableEq, Repr

/-- The engine context of an interface (14 R342 to R354, 19 R459, R460): launches, the event vector, the debug
registers, the counters of Table 19-2 (index 0 to 21), the trace records that wait to be written, each with its core,
the admin completions that wait, and what the host has answered to the engine context's own accesses: lines read, with
poison, and bytes written (17 R418; log 9). -/
structure Context where
  nextId : Nat
  launches : List Launch
  events : BitVec 256
  dbgctl : DWord
  bkpc : DWord
  trcbase : DWord
  cxLo : DWord
  cxHi : DWord
  cxDelay : BitVec 16
  counters : Table DWord
  trace : List (Nat × BitVec 256)
  adm : List Completion
  busy : Bool
  hostGot : List (Nat × Line × Bool)
  hostDone : List (Nat × Line × BitVec 128)
  deriving DecidableEq, Repr

/-- A resident team (14 R355 to R357): the core, the group numbers in group-index order, the reserved banks and
channels, the register pool, couplings and barriers. -/
structure Team where
  vi : Nat
  launch : Nat
  t : Nat
  core : Nat
  groups : List Nat
  scr : List Nat
  fifo : List Nat
  frm : List Nat
  chans : List Nat
  pool : Nat
  qs : List Coupling
  bars : List Barrier
  deriving DecidableEq, Repr

/-! ### Copy channels, slots and the matrix unit (06, 11) -/

/-- A queued copy operation (06 R156): its number, endpoints, row length, rows and pitch, the issuing group, whether it
is under way, and how many bytes it has written. -/
structure CopyOp where
  num : Nat
  dst : DWord
  src : DWord
  len : Nat
  rows : Nat
  pitch : Nat
  core : Nat
  grp : Nat
  vi : Nat
  begun : Bool
  done : Nat
  deriving DecidableEq, Repr

/-- A copy channel (06 R150 to R155): counters, write pointer, queue, a stop with its cause, the error latch
(operation, cause, MORE); for the piece in progress the host lines asked for, those that have arrived with their poison,
and whether a host write is out; the latest time from which on what it wrote is visible device-wide (05 R139); and the
completed operations by destination, length and number. -/
structure Channel where
  team : Option Nat
  name : Nat
  issued : Nat
  completed : Nat
  wp : DWord
  ops : List CopyOp
  stopped : Option (BitVec 8)
  latch : Option (Nat × BitVec 8 × Bool)
  asked : List Nat
  got : List (Nat × Line × Bool)
  out : Bool
  vtDev : Nat
  past : List (DWord × Nat × Nat)
  deriving DecidableEq, Repr

/-- A B-slot (06 R163 to R168): `pend` counts the pending copies. It is not present while an LDO is in progress. -/
structure Slot where
  tile : BitVec 2048
  side : BitVec 512
  owner : Option Nat
  present : Bool
  tag : BitVec 2
  pend : Nat
  deriving DecidableEq, Repr

/-- A matrix pass (11 R285): the group and position, the half it is for (none: every half), the form (sparse, F), the
slot, the lanes, the accumulator base after renaming, the fragment and index words and %fcr and %dph as read at dispatch;
once it has started the clock at which D becomes full, the results, each lane's flags; and whether its end has been told
to its instruction. -/
structure Pass where
  grp : Nat
  pos : Nat
  half : Option Nat
  sparse : Bool
  f : Nat
  slot : Nat
  act : Mask
  d : Nat
  frag : List (Vector Word 32)
  idx : Vector Word 32
  fcr : DWord
  dph : BitVec 16
  due : Nat
  result : Option (List (Vector Word 32) × List (Nat × BitVec 5))
  ended : Bool
  deriving DecidableEq, Repr

/-- An issue partition of a core (01 R8): the previous winner of each level (14 R359), its slots and its matrix unit.
The stream whose run is under way is in `State.running`. -/
structure Part where
  last : List (Nat × Nat)
  slots : Table Slot
  mtx : List Pass
  deriving DecidableEq, Repr

/-! ### Cluster SRAM, caches, homes and the network (05, 06) -/

/-- Bank modes (06 Table 06-1). -/
inductive BankMode where
  | cache | scratch | fifo | frame
  deriving DecidableEq, Repr

/-- A cluster bank: mode, the team that holds it, a drain in progress before a team's first run or a BANKM. -/
structure Bank where
  mode : BankMode
  holder : Option Nat
  drain : Bool
  deriving DecidableEq, Repr

/-- Cache-side states (05 Table 05-4); an absent line is in I. -/
inductive CState where
  | s | e | m | l | u | p
  deriving DecidableEq, Repr

/-- A line of a cluster cache or of a replica slice: the bank, the state, data and poison, the keep mark, the time it
was last used, the time it was granted, the lease expiry, the VT_dev its reply carried (12 R300), and the interface that last
wrote it (18 R453). -/
structure CLine where
  bank : Nat
  st : CState
  data : Line
  poison : Bool
  keep : Bool
  used : Nat
  granted : Nat
  expiry : Nat
  rvt : Nat
  vi : Nat
  deriving DecidableEq, Repr

/-- The events of Table 05-5. -/
inductive Event where
  | gets | getm | getu | puts | putm | ack | data | atom | recall | leasex | hsnp | ue | hget | hput | ncr | ncw
  deriving DecidableEq, Repr

/-- The unretired instruction a request serves: core, group, position, place and index of the combined request. -/
structure Ref where
  core : Nat
  grp : Nat
  pos : Nat
  place : Place
  idx : Nat
  deriving DecidableEq, Repr

/-- What a message is: an event for a home, an invalidation, an update, a forward of a request, a back-invalidation,
a reply of the home to a request, a line for a replica slice with the request it serves. -/
inductive MsgKind where
  | home (e : Event)
  | inv
  | upd
  | fwd (e : Event)
  | bisnp
  | reply (e : Event)
  | fill (e : Event)
  deriving DecidableEq, Repr

/-- A message of the sector network (05 R113, R121 to R124, R139). `peer` is the agent it comes from (to a home) or
goes to (from a home); `accs` and `mop` are the operands of an ATOM, or the old values in its reply; `cls` is the
reply class, 5 for NACK and 6 for a refusal; `granted` the time at which the home sent the reply; `eng` that the request is
not a group's: a copy engine's or an engine context's. -/
structure Msg where
  kind : MsgKind
  part : Nat
  line : Nat
  peer : Nat
  tag : Nat
  ref : Option Ref
  data : Line
  mask : BitVec 128
  poison : Bool
  full : Bool
  cls : Nat
  excl : Bool
  expiry : Nat
  vt : Option (Nat × Nat × Nat)
  rvt : Nat
  mop : Option MemOp
  accs : List Acc
  vi : Nat
  granted : Nat
  eng : Bool
  deriving DecidableEq, Repr

/-- A request of a cluster that awaits its reply: line, event, the written bytes of a GETU (06 R142). -/
structure Mshr where
  line : Nat
  ev : Event
  deriving DecidableEq, Repr

/-- A cluster: its banks, the lines of its cache, its outstanding requests. -/
structure Cluster where
  banks : List Bank
  lines : Table CLine
  mshr : List Mshr
  deriving DecidableEq, Repr

/-- A home's record of a line (05 R124, R132, R471): the directory entry, the transaction (its request and tag), events
held by QUEUE or by a flip, the lease record, the slice's copy (present, data, dirty, poisoned), an eviction under way,
the time of last use, the interface that last wrote it, the DATA answers of a UE recall, what bias holds, and the requests
that wait for a UE recall to end. -/
structure HomeLine where
  dir : DWord
  txn : Option (Msg × Nat)
  queue : List Msg
  lease : Option Nat
  here : Bool
  data : Line
  dirty : Bool
  poison : Bool
  evict : Bool
  used : Nat
  lastVi : Nat
  ueData : Option Nat
  held : List Msg
  ueWait : List Msg
  deriving DecidableEq, Repr

/-- A protocol image (05 R118). `entries` has entry 16 s + e at index 16 s + e. -/
structure Image where
  name : List Byte
  flags : BitVec 16
  nocopy : BitVec 16
  share : BitVec 16
  transient : BitVec 16
  grant : List (BitVec 8)
  defs : List (BitVec 16)
  entries : List Word
  deriving DecidableEq, Repr

/-- The row instruction in progress in a Mirmet unit (04 R100, R102): the post and the frame register it serves, when it
began, the banks of the sub-wave under way and those still to do, the sub-waves taken, whether a refresh came within it,
and whether one stalled it. -/
structure RowJob where
  core : Nat
  grp : Nat
  pos : Nat
  reg : Nat
  since : Nat
  now : List Nat
  todo : List Nat
  waves : Nat
  fresh : Bool
  stall : Bool
  deriving DecidableEq, Repr

/-- A Mirmet unit (04 R99 to R103): open rows by compute bank, start and end of the last sub-wave in ns, the end of a
refresh, the row instruction in progress and that of a consist's other frame, which follows it, ordinary accesses that
wait for its end (of homes, and of instructions at M: core, group, position), and the posts that are ready for the unit, in
the order in which they became so. -/
structure MUnit where
  rows : Table Nat
  start : Nat
  ends : Nat
  refresh : Nat
  job : Option RowJob
  more : List RowJob
  wait : List Msg
  direct : List (Nat × Nat × Nat)
  line : List (Nat × Nat × Nat)
  deriving DecidableEq, Repr

/-- A cached translation (15 R384): the core it is in, or 256 + die; the interface; the page's first virtual address,
size and physical address; readable, writable, executable. -/
structure Tlb where
  place : Nat
  vi : Nat
  va : Nat
  size : Nat
  pa : Nat
  r : Bool
  w : Bool
  x : Bool
  deriving DecidableEq, Repr

/-! ### Management, host and start-up (15, 17, 18) -/

/-- A bias flip in progress (17 R424): partition, page, whether to host bias, and the lines whose recall is done. -/
structure Flip where
  part : Nat
  page : Nat
  toH : Bool
  recalled : List Nat
  deriving DecidableEq, Repr

/-- A back-invalidation a host port has sent: partition, line, and the halves whose BIRsp has not arrived (17 R421). -/
structure Snoop where
  port : Nat
  part : Nat
  line : Nat
  tag : Nat
  low : Bool
  high : Bool
  deriving DecidableEq, Repr

/-- A host-memory request that is out: for a combined request of an instruction, for a copy channel, or for the engine
context of an interface; a write carries its bytes (17 R418). It leaves by a port, with the requester (at port 0 the function
of the interface, at port 1 the one function) and the interface's PASID (R413, R414, R417). -/
structure HostReq where
  ref : Option Ref
  chan : Option Nat
  eng : Option Nat
  write : Bool
  addr : Nat
  data : Line
  mask : BitVec 128
  port : Nat
  fn : Nat
  pasid : Nat
  deriving DecidableEq, Repr

/-- An access of a peer over a Buith link, within one line: a write or a read, its offset in the export, the bytes and which
of the line (17 R430, R431). -/
structure PeerReq where
  write : Bool
  off : Nat
  data : Line
  mask : BitVec 128
  deriving DecidableEq, Repr

/-- The last answer the device gave to the outside: what kind of request, about what, and its bytes. -/
structure Answer where
  kind : Nat
  about : Nat
  poison : Bool
  bytes : List Byte
  deriving DecidableEq, Repr

/-- The quiesce in progress (18 R439): its dies and the time at which PART_QTIMEOUT expires. -/
structure Quiesce where
  dies : BitVec 4
  deadline : Nat
  deriving DecidableEq, Repr

/-- Management state that no single register holds (15, 17, 18): start-up status, the applied partition configuration
and VI table, the dies now quiesced and the quiesce under way, measurements, records that wait for a fault or event
ring, halt records and the groups that wait to halt, flips in progress, range-register writes
in progress with their extents (05 R116), the quarter nanoseconds by which device time is
still to be slewed and the time at which the next dialogue is due (17 R428). -/
structure Mgmt where
  fail : BitVec 8
  merr : Bool
  ready : Bool
  halted : BitVec 4
  part : List (BitVec 4)
  memil : List (BitVec 8)
  netb : List Bool
  viMap : Table (BitVec 9)
  qdies : BitVec 4
  quiesce : Option Quiesce
  stat : DWord
  meas : List (BitVec 512)
  fqWait : Table (List (BitVec 512))
  evWait : Table (List (BitVec 256))
  halts : Table (BitVec 512 × Nat)
  haltWait : List (Nat × Nat × BitVec 512)
  flips : List Flip
  rangeWr : List (Nat × DWord × List (Nat × Nat))
  slew : Int
  ptmDue : Nat
  deriving DecidableEq, Repr

/-- Accounting of an interface (18 R453): the ten counters as last updated, the time of the last update, and the counts as they
run: indexes 0 to 3 in clocks, 4 to 7 in bytes, and 8 to 14 the activities of Table 18-12 but for the last two rows: the three
kinds of MAC, lane operations, lane words, slice line accesses, lines carried over a hop. -/
structure Acct where
  shown : List DWord
  run : List Nat
  upto : Nat
  deriving DecidableEq, Repr

/-- The host side (17): snoops and requests out, MSI-X pending bits and table bytes, failed transmissions of the flit a Buith
link is at, the accesses a peer has put on each link, oldest first, whether an SPDM session is open and the IDE keys of each
port (18 R458), the last answer. -/
structure Outside where
  snoops : List Snoop
  reqs : List HostReq
  msix : Table (BitVec 17)
  table : Table Byte
  replays : Table Nat
  inbox : Table (List PeerReq)
  session : Bool
  ide : Table DWord
  answer : Option Answer
  deriving DecidableEq, Repr

/-- The firmware package and what the boot finds (18 R435, an input of the model, log 4): the package can be read, its
signature verifies, DRAM trains, the bytes of the firmware, images of slots 0 to 5 that differ from the shipped ones, the register writes of
the firmware configuration, the links that train, what the peer on each link exports (its size in bytes, readable, writable),
the host's PTM time, and the entry packet of each firmware group
(die, group number, packet). -/
structure Flash where
  readable : Bool
  signed : Bool
  trains : Bool
  firmware : List Byte
  images : Table (List Byte)
  config : List (Nat × DWord)
  links : BitVec 12
  exports : Table (Nat × Bool × Bool)
  hostTime : Option Nat
  boot : List (Nat × Nat × DWord)
  deriving DecidableEq, Repr

/-- The stream whose instruction `exec` runs: its core, group and entry, the packet and slot it is in, its head word,
how many words it has, whether the packet ends the run (03 R51, R55), and, for the later instruction of a chain group,
the registers that it must still read (R52). -/
structure Issue where
  core : Nat
  grp : Nat
  ent : Nat
  pn : DWord
  slot : Nat
  word : Word
  words : Nat
  cut : Bool
  shadow : Option Arch
  deriving DecidableEq, Repr

/-- The whole machine. Memory holds the cells of DRAM, of management memory, of host memory as the device knows it, of
cluster scratch and of peers, each in its own range of keys (`Ops`). `mreg` holds the management-window registers by
offset, an absent one at its reset value. `agenda`, `iss` and `free` are the model's own (log 2, 18). -/
structure State where
  clk : Nat
  mem : List Host.Cell
  poison : List Nat
  ue : List Nat
  ce : List Nat
  mreg : Table DWord
  groups : Table Group
  teams : Table Team
  ctxs : Table Context
  parts : Table Part
  chans : Table Channel
  clusters : Table Cluster
  homes : Table HomeLine
  replicas : Table CLine
  net : List Msg
  tag : Nat
  images : List (Option Image)
  units : Table MUnit
  tlb : List Tlb
  mgmt : Mgmt
  acct : Table Acct
  out : Outside
  flash : Flash
  corrected : Nat
  running : List (Nat × Nat × Nat)
  agenda : List (Nat × Instr)
  iss : Option Issue
  free : Nat
  deriving DecidableEq, Repr

/-- Why the machine stops. -/
inductive Fault where
  /-- Raised by `exec` alone, for an instruction word in a state that names no issuing stream: the spec gives an
  instruction its effect in a stream only. `step` never reaches it. SAFE. -/
  | notIssuing
  deriving DecidableEq, Repr

/-- Why an instruction has no meaning. -/
inductive Refusal where
  /-- Raised by an arm of `exec` whose instruction is not modelled yet. SAFE. -/
  | notModelled (mnemonic : String)
  deriving DecidableEq, Repr

/-! ### After reset -/

/-- A v register at task start: at L, full, clean, every lane zero (08 R199). -/
def VReg.zero : VReg := ⟨.l, 0, 0, [], Vector.replicate 32 0, [], none⟩

/-- The identity renaming map: wk names v(48 + k) (13 R327). -/
def idMap : Vector (BitVec 6) 16 := Vector.ofFn fun k => BitVec.ofNat 6 (48 + k.val)

/-- An invalid path entry. -/
def Path.none : Path :=
  ⟨false, .ready, 0, 0, 0, 0, [], false, false, Option.none, idMap, 0, Option.none, 0, Option.none, 0, Option.none, 0, 0,
    false⟩

/-- Path 0 of a group at task start: READY at the entry packet with every lane (13 R311). -/
def Path.start (pn : DWord) : Path := { Path.none with valid := true, pn := pn, mask := 0xFFFFFFFF, em := 0xFFFFFFFF }

/-- The registers and paths of a group at task start (02 R44, 08 R199, 13 R311). -/
def Arch.start (pn : DWord) : Arch :=
  { v := Vector.replicate 64 VReg.zero
    s := Vector.replicate 64 0
    sPend := []
    p := (Vector.replicate 64 (0 : Mask)).set 0 0xFFFFFFFF
    fcr := 0, fsr := 0, dph := 0, dirty := 0
    paths := (Vector.replicate 32 Path.none).set 0 (Path.start pn) }

/-- A privileged group at its start: no team, LQ 64, no frame quota (15 R367, 08 R227). -/
def Group.priv (pn : DWord) : Group :=
  { team := none, gidx := 0, vi := 0, arch := Arch.start pn, rob := [], lates := [], seq := 0, lq := 64, kq := 0, hq := 0, mq := 0,
    vtClu := 0, vtDev := 0, vtSys := 0, floor := 0, acq := none, seen := [], dbgsel := 0, wsel := 0, werr := 0,
    hold := false, held := false, ended := false, stopped := false }

def Coupling.zero : Coupling := ⟨false, false, false, 0, 0, 0, 0, 0, [], false⟩
def Barrier.zero : Barrier := ⟨0, 0, false, 0, 0⟩
def Context.zero : Context := ⟨1, [], 0, 0, 0, 0, 0, 0, 0, [], [], [], false, [], []⟩
def Channel.zero : Channel := ⟨none, 0, 0, 0, 0, [], none, none, [], [], false, 0, []⟩
def Slot.zero : Slot := ⟨0, 0, none, false, 3, 0⟩
def Part.zero : Part := ⟨[], [], []⟩
def Bank.zero : Bank := ⟨.cache, none, false⟩
def Cluster.zero : Cluster := ⟨List.replicate 32 Bank.zero, [], []⟩
def HomeLine.zero : HomeLine := ⟨0, none, [], none, false, 0, false, false, false, 0, 0, none, [], []⟩
def MUnit.zero : MUnit := ⟨[], 0, 0, 0, none, [], [], [], []⟩
def Acct.zero : Acct := ⟨List.replicate 10 0, List.replicate 15 0, 0⟩

/-- An empty firmware package that verifies: the model's input at reset (log 4, DESIGN CHOICE). -/
def Flash.empty : Flash := ⟨true, true, true, [], [], [], 0, [], none, []⟩

/-- Right after module reset (18 R435): nothing resident, every register at its reset value (`mreg` empty), memory with
nothing listed, the partition configuration of Table 18-4. -/
def State.reset : State :=
  { clk := 0, mem := [], poison := [], ue := [], ce := [], mreg := [], groups := [], teams := [], ctxs := [],
    parts := [], chans := [], clusters := [], homes := [], replicas := [], net := [], tag := 1,
    images := List.replicate 8 none, units := [], tlb := [],
    mgmt :=
      { fail := 0, merr := false, ready := false, halted := 0, part := List.replicate 4 0xF, memil := [0xFF, 0, 0, 0],
        netb := List.replicate 4 true, viMap := [], qdies := 0, quiesce := none, stat := 0,
        meas := List.replicate 4 0, fqWait := [], evWait := [], halts := [], haltWait := [], flips := [], rangeWr := [],
        slew := 0, ptmDue := 0 }
    acct := [], out := ⟨[], [], [], [], [], [], false, [], none⟩, flash := Flash.empty, corrected := 0,
    running := [], agenda := [], iss := none, free := 0 }

end Sys2Proof.Machine
end

