-- ==== Sys2Proof/Machine/Float.lean ====
section
/-!
DEFINITION. Number formats and rounding (02, 10): exact values, one rounding, flags; and the functions whose exact
value is not dyadic. Nothing here reads the machine's state.

A finite value is (-1)^neg x m x 2^e with m a natural number. A value that is not dyadic is given to the rounding by
its truncation to well over the destination's precision with one more bit, set when anything was cut off: every
comparison the rounding makes (ties, the dither fraction of R34, tininess) comes out as on the exact value.
-/
namespace Sys2Proof.Machine

/-- A floating-point format (02 Table 02-2): exponent and fraction bits, bias, whether it has infinities. -/
structure Fmt where
  ebits : Nat
  fbits : Nat
  bias : Nat
  infs : Bool
  deriving DecidableEq, Repr

namespace Fmt
def f32 : Fmt := ⟨8, 23, 127, true⟩
def f16 : Fmt := ⟨5, 10, 15, true⟩
def bf16 : Fmt := ⟨8, 7, 127, true⟩
def f8e5 : Fmt := ⟨5, 2, 15, true⟩
def f8e4 : Fmt := ⟨4, 3, 8, false⟩

/-- The largest finite encoding (02 Table 02-3). -/
def maxFinite (f : Fmt) : Nat := if f.infs then (2 ^ f.ebits - 1) * 2 ^ f.fbits - 1 else 2 ^ (f.ebits + f.fbits) - 2

/-- +infinity; of no use in F8E4 (R25). -/
def infBits (f : Fmt) : Nat := (2 ^ f.ebits - 1) * 2 ^ f.fbits

/-- The canonical NaN (R26, Table 02-3). -/
def nanBits (f : Fmt) : Nat := if f.infs then f.infBits + 2 ^ (f.fbits - 1) else 2 ^ (f.ebits + f.fbits) - 1

/-- The weight of the last place of a subnormal. -/
def emin (f : Fmt) : Int := 1 - f.bias - f.fbits

/-- An encoding with its sign. -/
def signed (f : Fmt) (neg : Bool) (bits : Nat) : Nat := if neg then bits + 2 ^ (f.ebits + f.fbits) else bits
end Fmt

/-- A value of a floating-point format. -/
inductive Fp where
  | nan
  | inf (neg : Bool)
  | fin (neg : Bool) (m : Nat) (e : Int)
  deriving DecidableEq, Repr

/-- The five exceptions, in the order of bits 8:4 of %fsr (02 Table 02-10). -/
abbrev Flags := BitVec 5

def flagNX : Flags := 1
def flagNV : Flags := 2
def flagDZ : Flags := 4
def flagUF : Flags := 8
def flagOF : Flags := 16

/-- A rounding mode (02 Table 02-7); SR carries its dither d. -/
inductive Rnd where
  | rne | rz | ru | rd | sr (d : Nat)
  deriving DecidableEq, Repr

/-- The byte with its bits reversed (R34). -/
def bitrev8 (n : Nat) : Nat :=
  (List.range 8).foldl (fun a k => a + (if n.testBit k then 2 ^ (7 - k) else 0)) 0

/-- The dither of element position i at phase `dph` (R34). -/
def ditherOf (i : Nat) (dph : BitVec 16) : Nat := bitrev8 ((i + 41 * dph.toNat) % 256)

/-- The element position of lane l and slot k (R35). -/
def ditherPos (l k : Nat) : Nat := (l * 4 + k) % 64

/-- The mode of a rounding code 0 to 4 at an element position. -/
def Rnd.of (code : BitVec 3) (i : Nat) (dph : BitVec 16) : Rnd :=
  match code.toNat with
  | 1 => .rz
  | 2 => .ru
  | 3 => .rd
  | 4 => .sr (ditherOf i dph)
  | _ => .rne

/-- The value of an encoding (R22, R25). -/
def Fmt.value (f : Fmt) (w : Nat) : Fp :=
  let w := w % 2 ^ (1 + f.ebits + f.fbits)
  let neg := w / 2 ^ (f.ebits + f.fbits) == 1
  let mag := w % 2 ^ (f.ebits + f.fbits)
  let x := mag / 2 ^ f.fbits
  let m := mag % 2 ^ f.fbits
  if f.infs && x == 2 ^ f.ebits - 1 then (if m == 0 then .inf neg else .nan)
  else if !f.infs && mag == f.nanBits then .nan
  else if x == 0 then .fin neg m f.emin
  else .fin neg (m + 2 ^ f.fbits) (f.emin + x - 1)

/-- Rounding m x 2^e to a multiple of 2^u: the multiple, and whether the value is not one (R33, R34). -/
def roundAt (r : Rnd) (neg : Bool) (m : Nat) (e u : Int) : Nat × Bool :=
  if u ≤ e then (m * 2 ^ (e - u).toNat, false)
  else
    let s := 2 ^ (u - e).toNat
    let q := m / s
    let x := m % s
    let up := match r with
      | .rne => s < 2 * x || (s == 2 * x && q % 2 == 1)
      | .rz => false
      | .ru => x != 0 && !neg
      | .rd => x != 0 && neg
      | .sr d => x != 0 && 256 ≤ x * 256 / s + d
    (if up then q + 1 else q, x != 0)

/-- The encoding of q x 2^u without sign, where 2^u is the weight of the last place of a normal or a subnormal. -/
def Fmt.pack (f : Fmt) (q : Nat) (u : Int) : Nat := (u - f.emin).toNat * 2 ^ f.fbits + q

/-- What an overflow delivers (R37, Table 02-9). -/
def Fmt.overflow (f : Fmt) (r : Rnd) (sat neg : Bool) : Nat × Flags :=
  if sat then (f.signed neg f.maxFinite, flagNX)
  else if !f.infs then (f.nanBits, flagOF ||| flagNV)
  else
    let toInf := match r with
      | .rz => false
      | .ru => !neg
      | .rd => neg
      | _ => true
    (f.signed neg (if toInf then f.infBits else f.maxFinite), flagOF ||| flagNX)

/-- One rounding of a finite value: encoding and flags (R33 to R37). -/
def Fmt.roundFin (f : Fmt) (r : Rnd) (sat neg : Bool) (m : Nat) (e : Int) : Nat × Flags :=
  if m == 0 then (f.signed neg 0, 0)
  else
    let u0 := Int.ofNat (Nat.log2 m) + e - f.fbits
    let u := max u0 f.emin
    let q0 := (roundAt r neg m e u0).1
    let (q, nx) := roundAt r neg m e u
    let bits := f.pack q u
    let tiny := u0 < f.emin && (u0 + 1 < f.emin || q0 < 2 ^ (f.fbits + 1))
    if f.maxFinite < bits then f.overflow r sat neg
    else (f.signed neg bits, (if nx then flagNX else 0) ||| (if nx && tiny then flagUF else 0))

/-- Rounding any value to a format; infinities and NaNs by Table 02-9. -/
def Fmt.round (f : Fmt) (r : Rnd) (sat : Bool) (x : Fp) : Nat × Flags :=
  match x with
  | .nan => (f.nanBits, 0)
  | .inf neg =>
    if sat then (f.signed neg f.maxFinite, 0)
    else if f.infs then (f.signed neg f.infBits, 0)
    else (f.nanBits, flagNV)
  | .fin neg m e => f.roundFin r sat neg m e

/-! ### Sums and products -/

def Fp.isNan : Fp → Bool
  | .nan => true
  | _ => false

def Fp.isZero : Fp → Bool
  | .fin _ m _ => m == 0
  | _ => false

def Fp.neg : Fp → Fp
  | .nan => .nan
  | .inf s => .inf (!s)
  | .fin s m e => .fin (!s) m e

/-- The exact sum of two finite values; the sign of an exact zero by R27. -/
def finAdd (r : Rnd) (s : Bool) (m : Nat) (e : Int) (t : Bool) (n : Nat) (g : Int) : Fp :=
  let u := min e g
  let x : Int := Int.ofNat (m * 2 ^ (e - u).toNat) * (if s then -1 else 1)
  let y : Int := Int.ofNat (n * 2 ^ (g - u).toNat) * (if t then -1 else 1)
  let z := x + y
  if z == 0 then .fin (if s == t then s else r == .rd) 0 0 else .fin (z < 0) z.natAbs u

/-- The exact sum, and NV for opposite infinities (R39, R257). -/
def Fp.add (r : Rnd) (x y : Fp) : Fp × Flags :=
  match x, y with
  | .nan, _ => (.nan, 0)
  | _, .nan => (.nan, 0)
  | .inf s, .inf t => if s == t then (.inf s, 0) else (.nan, flagNV)
  | .inf s, _ => (.inf s, 0)
  | _, .inf t => (.inf t, 0)
  | .fin s m e, .fin t n g => (finAdd r s m e t n g, 0)

/-- The exact product, and NV for infinity times zero (R39, R257). -/
def Fp.mul (x y : Fp) : Fp × Flags :=
  match x, y with
  | .nan, _ => (.nan, 0)
  | _, .nan => (.nan, 0)
  | .inf s, .inf t => (.inf (s != t), 0)
  | .inf s, .fin t m _ => if m == 0 then (.nan, flagNV) else (.inf (s != t), 0)
  | .fin s m _, .inf t => if m == 0 then (.nan, flagNV) else (.inf (s != t), 0)
  | .fin s m e, .fin t n g => (.fin (s != t) (m * n) (e + g), 0)

/-- a x b + c, exact (R261, R262): infinity times zero is NV whatever the addend. -/
def Fp.fma (r : Rnd) (a b c : Fp) : Fp × Flags :=
  let infZero := match a, b with
    | .inf _, .fin _ m _ => m == 0
    | .fin _ m _, .inf _ => m == 0
    | _, _ => false
  if infZero then (.nan, flagNV) else Fp.add r (Fp.mul a b).1 c

/-- Rounds the first part and joins the flags. -/
def Fmt.roundF (f : Fmt) (r : Rnd) (x : Fp × Flags) : Nat × Flags :=
  let (w, fl) := f.round r false x.1
  (w, fl ||| x.2)

/-- FADD, FMUL and the fused form of a format. -/
def Fmt.addF (f : Fmt) (r : Rnd) (a b : Nat) : Nat × Flags := f.roundF r (Fp.add r (f.value a) (f.value b))
def Fmt.mulF (f : Fmt) (r : Rnd) (a b : Nat) : Nat × Flags := f.roundF r (Fp.mul (f.value a) (f.value b))
def Fmt.fmaF (f : Fmt) (r : Rnd) (a b c : Fp) : Nat × Flags := f.roundF r (Fp.fma r a b c)

/-! ### Comparison, minimum and maximum -/

/-- Ordered comparison of two values that are not NaN; +0 and -0 are equal (R263). -/
def Fp.cmp (x y : Fp) : Ordering :=
  match x, y with
  | .inf s, .inf t => if s == t then .eq else if s then .lt else .gt
  | .inf s, _ => if s then .lt else .gt
  | _, .inf t => if t then .gt else .lt
  | .fin s m e, .fin t n g =>
    let u := min e g
    let a : Int := Int.ofNat (m * 2 ^ (e - u).toNat) * (if s then -1 else 1)
    let b : Int := Int.ofNat (n * 2 ^ (g - u).toNat) * (if t then -1 else 1)
    compare a b
  | _, _ => .eq

/-- The sign bit of an encoding. -/
def Fmt.isNeg (f : Fmt) (w : Nat) : Bool := w.testBit (f.ebits + f.fbits)

/-- a is below b with -0 below +0 (R258). -/
def Fmt.below (f : Fmt) (a b : Nat) : Bool :=
  match Fp.cmp (f.value a) (f.value b) with
  | .lt => true
  | .gt => false
  | .eq => f.isNeg a && !f.isNeg b

/-- FMIN, FMAX (R258, Table 10-4). -/
def Fmt.minmax (f : Fmt) (isMax : Bool) (a b : Nat) : Nat :=
  if (f.value a).isNan || (f.value b).isNan then f.nanBits
  else if isMax then (if f.below a b then b else a) else (if f.below b a then b else a)

/-- FMINN, FMAXN (R258). -/
def Fmt.minmaxN (f : Fmt) (isMax : Bool) (a b : Nat) : Nat :=
  match (f.value a).isNan, (f.value b).isNan with
  | true, true => f.nanBits
  | true, false => b
  | false, true => a
  | false, false => f.minmax isMax a b

/-- The class bit of an F32 word (R264, Table 10-8). -/
def fclass (w : Nat) : Nat :=
  match Fmt.f32.value w with
  | .nan => 8
  | .inf s => if s then 0 else 7
  | .fin s m e =>
    if m == 0 then (if s then 3 else 4)
    else if m < 2 ^ 23 && e == Fmt.f32.emin then (if s then 2 else 5)
    else if s then 1 else 6

/-! ### Integral values and integers -/

/-- The integral value of an F32 word in a mode; no flag (R259). -/
def integralF (r : Rnd) (w : Nat) : Nat :=
  match Fmt.f32.value w with
  | .nan => Fmt.f32.nanBits
  | .inf _ => w
  | .fin s m e => if 0 ≤ e then w else (Fmt.f32.roundFin .rz false s (roundAt r s m e 0).1 0).1

/-- F32 to a 32-bit integer (R38). An inexact value that rounds to -0, of which R38 says both that it raises NX and that a result of
-0 converts without a flag, raises NX (DESIGN CHOICE, log 58). -/
def toInt32 (r : Rnd) (isSigned : Bool) (w : Nat) : Nat × Flags :=
  let hi : Int := if isSigned then 0x7FFFFFFF else 0xFFFFFFFF
  let lo : Int := if isSigned then -0x80000000 else 0
  let enc := fun (z : Int) => (z % 0x100000000).toNat
  match Fmt.f32.value w with
  | .nan => (0, flagNV)
  | .inf s => (enc (if s then lo else hi), flagNV)
  | .fin s m e =>
    let (q, nx) := roundAt r s m e 0
    let z : Int := if s then - Int.ofNat q else Int.ofNat q
    if hi < z then (enc hi, flagNV) else if z < lo then (enc lo, flagNV) else (enc z, if nx then flagNX else 0)

/-- An integer to F32 (R38, R268). -/
def ofInt (r : Rnd) (z : Int) : Nat × Flags := Fmt.f32.roundFin r false (z < 0) z.natAbs 0

/-! ### Functions whose exact value is not dyadic (R265, R266) -/

/-- The integer square root, one bit of the root at a time. -/
def isqrt : Nat → Nat → Nat → Nat
  | 0, _, r => r
  | k + 1, n, r => isqrt k n (if (r + 2 ^ k) * (r + 2 ^ k) ≤ n then r + 2 ^ k else r)

/-- A truncation with one more bit that is set when something was cut off. -/
def sticky (q : Nat) (exact : Bool) : Nat := 2 * q + (if exact then 0 else 1)

/-- m / n to 64 bits or more, with exponent. -/
def divFin (s : Bool) (m : Nat) (e : Int) (n : Nat) (g : Int) : Fp :=
  let k := 64 + Nat.log2 n
  let x := m * 2 ^ k
  .fin s (sticky (x / n) (x % n == 0)) (e - g - k - 1)

/-- The square root of m x 2^e. -/
def sqrtFin (m : Nat) (e : Int) : Fp :=
  let m' := if e % 2 == 0 then m else 2 * m
  let e' := if e % 2 == 0 then e else e - 1
  let x := m' * 2 ^ 100
  let q := isqrt 80 x 0
  .fin false (sticky q (q * q == x)) (e' / 2 - 51)

/-- 1 / sqrt (m x 2^e). -/
def rsqrtFin (m : Nat) (e : Int) : Fp :=
  let m' := if e % 2 == 0 then m else 2 * m
  let e' := if e % 2 == 0 then e else e - 1
  let x := 2 ^ 160
  let q := isqrt 84 (x / m') 0
  .fin false (sticky q (q * q * m' == x)) (- (e' / 2) - 81)

/-- 2^f in units of 2^-168, rounded down at each step, f given by its binary digits from 2^-1 on: `c` is 2^(2^-i). -/
def exp2Bits : List Bool → Nat → Nat → Nat
  | [], _, acc => acc
  | b :: bs, c, acc =>
    let c' := isqrt 172 (c * 2 ^ 168) 0
    exp2Bits bs c' (if b then acc * c' / 2 ^ 168 else acc)

/-- 2^x for finite x = (-1)^s m 2^e that is not an integer: the integral part n and the first 128 digits of the rest
(log 12). -/
def exp2Fin (s : Bool) (m : Nat) (e : Int) : Fp :=
  let k := (-e).toNat
  let whole := m / 2 ^ k
  let rest := m % 2 ^ k
  let n : Int := if s then - Int.ofNat whole - 1 else Int.ofNat whole
  let frac := if s then 2 ^ k - rest else rest
  let digits := frac * 2 ^ 128 / 2 ^ k
  let y := exp2Bits ((List.range 128).map fun i => digits.testBit (127 - i)) (2 * 2 ^ 168) (2 ^ 168)
  .fin false (sticky (y / 2 ^ 100) false) (n - 69)

/-- The binary digits of log2 of x, x in [1, 2) in units of 2^-256. -/
def log2Bits : Nat → Nat → Nat → Nat
  | 0, _, acc => acc
  | k + 1, x, acc =>
    let y := x * x / 2 ^ 256
    if 2 ^ 257 ≤ y then log2Bits k (y / 2) (2 * acc + 1) else log2Bits k y (2 * acc)

/-- log2 of m x 2^e, m not zero (log 12). -/
def log2Fin (m : Nat) (e : Int) : Fp :=
  let l := Nat.log2 m
  let n : Int := Int.ofNat l + e
  if m == 2 ^ l then .fin (n < 0) n.natAbs 0
  else
    let frac := log2Bits 100 (m * 2 ^ 256 / 2 ^ l) 0
    if 0 ≤ n then .fin false (sticky (n.toNat * 2 ^ 100 + frac) false) (-101)
    else .fin true (sticky (n.natAbs * 2 ^ 100 - frac - 1) false) (-101)

/-- FSPC of a lane (R265, R266); `b` is used by FDIV alone. -/
def spcF (o : SpcOp) (r : Rnd) (a b : Nat) : Nat × Flags :=
  let f := Fmt.f32
  let nan := (f.nanBits, (0 : Flags))
  let nv := (f.nanBits, flagNV)
  let infty := fun (s : Bool) => f.signed s f.infBits
  let zero := fun (s : Bool) => f.signed s 0
  let x := f.value a
  match o, x with
  | .div, x =>
    match x, f.value b with
    | .nan, _ => nan
    | _, .nan => nan
    | .inf _, .inf _ => nv
    | .inf s, .fin t _ _ => (infty (s != t), 0)
    | .fin s _ _, .inf t => (zero (s != t), 0)
    | .fin s m e, .fin t n g =>
      if n == 0 then (if m == 0 then nv else (infty (s != t), flagDZ))
      else if m == 0 then (zero (s != t), 0)
      else f.roundF r (divFin (s != t) m e n g, 0)
  | _, .nan => nan
  | .rcp, .inf s => (zero s, 0)
  | .rcp, .fin s m e => if m == 0 then (infty s, flagDZ) else f.roundF r (divFin s 1 0 m e, 0)
  | .rsq, .inf s => if s then nv else (zero false, 0)
  | .rsq, .fin s m e =>
    if m == 0 then (infty s, flagDZ) else if s then nv else f.roundF r (rsqrtFin m e, 0)
  | .sqrt, .inf s => if s then nv else (infty false, 0)
  | .sqrt, .fin s m e => if m == 0 then (zero s, 0) else if s then nv else f.roundF r (sqrtFin m e, 0)
  | .exp2, .inf s => (if s then zero false else infty false, 0)
  | .exp2, .fin s m e =>
    if 0 ≤ e then
      let n := min (m * 2 ^ (min e.toNat 200)) 1024
      f.roundF r (.fin false 1 (if s then - Int.ofNat n else Int.ofNat n), 0)
    else if m % 2 ^ (-e).toNat == 0 then
      let n := min (m / 2 ^ (-e).toNat) 1024
      f.roundF r (.fin false 1 (if s then - Int.ofNat n else Int.ofNat n), 0)
    else if 1024 * 2 ^ (-e).toNat < m then
      f.roundF r (.fin false 3 (if s then -1026 else 1024), 0)
    else f.roundF r (exp2Fin s m e, 0)
  | .log2, .inf s => if s then nv else (infty false, 0)
  | .log2, .fin s m e => if m == 0 then (infty true, flagDZ) else if s then nv else f.roundF r (log2Fin m e, 0)

/-! ### Q4N (R28 to R31) -/

/-- The magnitudes of the codebook (Table 02-5). -/
def q4nMag (m : Nat) : Nat := [11, 33, 55, 80, 107, 139, 181, 256].getD m 0

/-- One Q4N element: F as an F32 word, the block scale q, the code, rounded to a target format (R31). -/
def q4nDecode (f : Fmt) (big : Nat) (q code : Nat) : Nat :=
  match Fmt.f32.value big with
  | .fin s m e =>
    if q == 0 then 0
    else (f.roundFin .rne true (s != (8 ≤ code % 16)) (m * q * q4nMag (code % 8)) (e - 8)).1
  | _ => f.nanBits

/-- CBK: the code value over 256, exact (R270). -/
def cbkF (code : Nat) : Nat := (Fmt.f32.roundFin .rne false (8 ≤ code % 16) (q4nMag (code % 8)) (-8)).1

end Sys2Proof.Machine
end

