-- ==== Sys2Proof/WellFormed.lean ====
section
/-!
DEFINITION. What an encoding must satisfy to be an instruction (03 R59 to R76): the head form of every opcode, the
extension it takes, its guard and modifier rules, and its field limits. Everything is stated on a `Head`, the fields
of a head word with its extension; `Instr.view` (Decode) gives the head of an instruction.
-/
namespace Sys2Proof

/-- The issue pipes (03 Tables 03-8 to 03-14). -/
inductive Pipe where
  | ctl | scl | va | vb | mem | mtx | xfr
  deriving DecidableEq, Repr

/-- What a six-bit field of a head names (03 R70): nothing (and so zero, R60), a vector, scalar or predicate
register, a B-slot, a coupling, a barrier, or a plain number. -/
inductive Role where
  | no | v | s | p | o | q | bar | num
  deriving DecidableEq, Repr

/-- The kinds of extension a head may need or take (03 Table 03-3). -/
inductive ExtKind where
  | none | imm | mem | cx | aux
  deriving DecidableEq, Repr

/-- The fields of a head word, without K, and the extension attached to it (03 R56, R61). -/
structure Head where
  op : BitVec 6
  g : BitVec 3
  d : BitVec 6
  a : BitVec 6
  b : BitVec 6
  f : BitVec 4
  ext : Ext
  deriving DecidableEq, Repr

/-- What the opcode map and the entries say of one (major, F) pair: its pipe, what its fields name, the extension it
must carry (`need`) or may carry (`opt`), whether it takes EXT.MOD (`mod`), whether it has a guard (`guard`),
whether a vector source may be marked (`mark`) and permuted (`perm`). -/
structure Form where
  pipe : Pipe
  d : Role := .no
  a : Role := .no
  b : Role := .no
  need : ExtKind := .none
  opt : ExtKind := .none
  mod : Bool := true
  guard : Bool := true
  mark : Bool := true
  perm : Bool := true
  deriving DecidableEq, Repr

namespace Form

def ctl : Form := { pipe := .ctl }
def s3 : Form := { pipe := .scl, d := .s, a := .s, b := .s, opt := .imm }
def v3 (p : Pipe) (o : ExtKind) : Form := { pipe := p, d := .v, a := .v, b := .v, opt := o }
def v2 (p : Pipe) : Form := { pipe := p, d := .v, a := .v }
def ld (o n : ExtKind) : Form := { pipe := .mem, d := .v, a := .v, b := .s, opt := o, need := n }
def ldu : Form := { pipe := .mem, d := .s, b := .s, opt := .mem }
def cvt : Form := { pipe := .va, d := .v, a := .v, b := .num }
def aop (a b : Role) : Form := { pipe := .xfr, d := .v, a := a, b := b }

/-- The forms of major `op` in ascending F; an F past the end of the list is unassigned (03 R74, R75). -/
def table (op : Nat) : List Form :=
  match op with
  | 0x00 => [ctl, { ctl with guard := false }, ctl, ctl, { ctl with b := .num }, { ctl with b := .num, opt := .imm },
             { ctl with d := .v }, { ctl with b := .num }, ctl]
  | 0x01 | 0x02 | 0x03 => List.replicate 16 { ctl with d := .num, a := .num, b := .num }
  | 0x04 => [{ ctl with a := .s }, { ctl with a := .v, perm := false }, { ctl with a := .s }, ctl]
  | 0x05 => [{ ctl with mod := false, guard := false }, { ctl with mod := false, guard := false },
             { ctl with d := .num, a := .num, mod := false, guard := false },
             { ctl with d := .num, a := .num, mod := false, guard := false },
             { ctl with d := .p, mod := false, guard := false },
             { ctl with need := .imm, guard := false }]
  | 0x06 => [{ ctl with d := .s, guard := false }, { ctl with a := .s, guard := false }, { pipe := .vb, d := .v },
             { ctl with d := .p, guard := false }, { ctl with d := .s, mod := false, guard := false }]
  | 0x08 => List.replicate 16 s3
  | 0x09 => List.replicate 16 { s3 with b := .num, opt := .none }
  | 0x0A => List.replicate 7 { s3 with d := .p }
  | 0x0B => [{ s3 with b := .no, opt := .none }, { pipe := .scl, d := .s, need := .imm },
             { pipe := .scl, d := .s, need := .imm }, { pipe := .scl, d := .s, b := .num },
             { s3 with b := .no, opt := .none }, { s3 with b := .no, opt := .none }, { s3 with b := .no, opt := .none },
             { pipe := .scl, d := .s, a := .v, b := .num, perm := false }, { s3 with b := .no, opt := .none }]
  | 0x0C => List.replicate 16 (v3 .vb .imm)
  | 0x0D => List.replicate 16 { v3 .vb .none with b := .num }
  | 0x0E => [v3 .vb .imm, v2 .vb, v2 .vb, v2 .vb] ++ List.replicate 5 (v3 .vb .imm)
  | 0x0F => List.replicate 11 { v3 .vb .imm with d := .p }
  | 0x10 => [v2 .vb, v3 .vb .none, { pipe := .vb, d := .v, a := .s }, { pipe := .vb, d := .v, need := .imm },
             { pipe := .vb, d := .v, a := .s, b := .num }]
  | 0x11 => List.replicate 5 { pipe := .vb, d := .p, a := .p, b := .p } ++
            List.replicate 2 { pipe := .vb, d := .p, a := .p } ++ List.replicate 2 { pipe := .vb, d := .p }
  | 0x12 => [{ pipe := .vb, d := .s, a := .p }, { pipe := .vb, d := .p, a := .s }, { pipe := .vb, d := .s, a := .p },
             { pipe := .vb, d := .s, a := .p }]
  | 0x13 => [v3 .va .none, { v3 .va .none with b := .s }]
  | 0x14 => List.replicate 11 { v3 .va .none with b := .s }
  | 0x15 => List.replicate 6 { v3 .va .none with b := .s }
  | 0x16 => [{ pipe := .vb, d := .p, a := .p, b := .s }, { pipe := .vb, d := .p, a := .p, b := .s },
             { pipe := .vb, d := .s, a := .p, b := .s }, { v3 .vb .none with b := .s }]
  | 0x18 => List.replicate 7 (v3 .va .imm) ++ [v2 .va, v2 .va, v3 .va .imm, v2 .va, v2 .va, v2 .va, v2 .va]
  | 0x19 => List.replicate 8 (v3 .va .none)
  | 0x1A => List.replicate 3 (v3 .va .imm) ++ [{ v3 .va .none with need := .cx }, v3 .va .none, v3 .va .none]
  | 0x1B => List.replicate 8 { v3 .va .imm with d := .p } ++ [{ pipe := .va, d := .p, a := .v, need := .imm }]
  | 0x1C => List.replicate 5 (v2 .va) ++ [v3 .va .none]
  | 0x1D => List.replicate 13 cvt
  | 0x1E => List.replicate 4 (v3 .vb .none) ++ [v2 .vb, v2 .vb]
  | 0x20 => List.replicate 8 (ld .mem .none)
  | 0x21 => List.replicate 6 (ld .mem .none)
  | 0x22 => List.replicate 3 ldu
  | 0x23 => List.replicate 2 ldu
  | 0x24 => List.replicate 7 (ld .none .mem)
  | 0x25 => List.replicate 5 (ld .none .mem)
  | 0x26 | 0x27 => List.replicate 16 (ld .none .mem)
  | 0x28 => List.replicate 2 (ld .none .mem)
  | 0x29 => List.replicate 2 { pipe := .mem, need := .mem, guard := false }
  | 0x2A => List.replicate 4 { pipe := .mem, b := .s, opt := .mem } ++
            [{ pipe := .mem, a := .num, b := .s, opt := .mem }, { pipe := .mem, b := .s, opt := .mem }]
  | 0x2B => List.replicate 2 { pipe := .mem, d := .v, a := .num, b := .s, opt := .mem }
  | 0x2C => List.replicate 3 { pipe := .mem, d := .o, b := .s, opt := .mem }
  | 0x2D => [{ pipe := .mtx, d := .o }, { pipe := .mtx, d := .o }, { pipe := .mtx, d := .s, a := .o }]
  | 0x2E => List.replicate 8 { pipe := .mtx, d := .v, a := .v, b := .o, perm := false }
  | 0x2F => List.replicate 3 { pipe := .mtx, d := .v, a := .v, b := .o, need := .cx }
  | 0x30 => List.replicate 8 { pipe := .xfr, d := .s, a := .s, b := .s } ++
            List.replicate 8 { pipe := .xfr, d := .s, a := .s, b := .s, need := .aux }
  | 0x31 | 0x33 => List.replicate 8 { pipe := .xfr, a := .s }
  | 0x32 => List.replicate 8 { pipe := .xfr, d := .s, b := .num }
  | 0x34 => [{ ctl with d := .q, a := .s }, { ctl with d := .q, a := .s, b := .p }]
  | 0x35 => [{ ctl with d := .s, a := .q }, { ctl with d := .s, a := .q, b := .p }]
  | 0x36 => [{ ctl with d := .q, a := .s, b := .s }, { ctl with d := .q, a := .s }, { ctl with d := .q }]
  | 0x37 => [{ ctl with d := .bar, a := .s }, { ctl with d := .bar }, { ctl with d := .bar }, { ctl with d := .bar },
             { ctl with d := .bar, a := .s }]
  | 0x38 => [{ pipe := .xfr, d := .v }, { pipe := .xfr, d := .v }, { pipe := .xfr, d := .v, a := .s },
             { pipe := .xfr, d := .v, a := .s }]
  | 0x39 => [{ pipe := .xfr }, { pipe := .xfr, d := .s, a := .num }, { pipe := .xfr, a := .s }]
  | 0x3B => [aop .v .no, aop .v .no, aop .no .no, aop .no .no, aop .no .no, aop .no .no, aop .v .no, aop .no .no,
             aop .no .num, aop .no .no]
  | 0x3C => [{ ctl with d := .s, a := .s }, ctl, { ctl with a := .s }, { ctl with a := .s },
             { ctl with d := .s, a := .s }]
  | 0x3D => [{ ctl with d := .s, b := .num }, { ctl with a := .s, b := .num },
             { ctl with a := .s, b := .s, need := .mem }, { ctl with d := .s, a := .s, b := .s },
             { ctl with d := .s, a := .s }, { ctl with d := .s, a := .s }, { ctl with a := .s, b := .s },
             { ctl with a := .s }, { ctl with d := .s, a := .s, b := .num }, { ctl with d := .s, a := .s },
             { ctl with d := .s }]
  | _ => []

end Form

namespace Head

/-- The form of a head, if its (major, F) pair is assigned (03 R74, R75). -/
def form (h : Head) : Option Form := (Form.table h.op.toNat)[h.f.toNat]?

/-- The kind of an extension word; EXT.MOD has none here, it is taken by `Form.mod`. -/
def extKind : Ext → ExtKind
  | .imm _ => .imm
  | .mem _ => .mem
  | .cx _ _ => .cx
  | .aux _ _ => .aux
  | _ => .none

/-- The extension is one the head needs, or one it accepts (03 R61, R63). -/
def extOk (fm : Form) (e : Ext) : Bool :=
  match e with
  | .none => fm.need == .none
  | .mod _ => fm.need == .none && fm.mod
  | e => if fm.need == .none then fm.opt == extKind e else fm.need == extKind e

/-- One permutation pattern and its parameter (03 R69, Table 03-4). -/
def permOk (p : BitVec 3) (x : BitVec 5) : Bool :=
  match p.toNat with
  | 0 => x == 0
  | 4 => 1 ≤ x.toNat && x.toNat ≤ 5
  | 1 | 2 | 3 | 5 => true
  | _ => false

/-- The effective guard index (03 R67): GX where an EXT.MOD gives a nonzero one, and G otherwise. -/
def gidx (h : Head) : BitVec 6 :=
  match h.ext with
  | .mod m => if m.gx ≠ 0 then m.gx else h.g.setWidth 6
  | _ => h.g.setWidth 6

/-- GN of the head's EXT.MOD, if any. -/
def gneg (h : Head) : Bool :=
  match h.ext with
  | .mod m => m.gn
  | _ => false

/-- The memory majors whose A is an offset register or, when zero, no register (03 R59). -/
def isMem (h : Head) : Bool := 0x20 ≤ h.op.toNat && h.op.toNat ≤ 0x28 && h.op != 0x22 && h.op != 0x23

/-- Guard, marks and permutations (03 R67 to R69): no second index, no negated constant, no mark or pattern on a
field that names no vector source. -/
def modOk (fm : Form) (h : Head) : Bool :=
  let aVec := fm.a == .v && !(h.isMem && h.a == 0)
  let bVec := fm.b == .v
  (fm.guard || (h.gidx == 0 && !h.gneg && h.g == 0)) &&
  (h.op != 2 || h.gidx != 0) &&
  match h.ext with
  | .mod m =>
    !(m.gx != 0 && h.g != 0) && !(m.gn && h.gidx == 0) &&
    (!m.ta || (aVec && fm.mark)) && (!m.tb || (bVec && fm.mark)) &&
    permOk m.pa m.pax && permOk m.pb m.pbx &&
    (m.pa == 0 || (aVec && fm.perm)) && (m.pb == 0 || (bVec && fm.perm))
  | _ => true

/-- Unused fields are zero (03 R60), couplings and barriers stay below 16 (R70), and an EXT.IMM that replaces source
B leaves the B field zero (R64). -/
def fieldsOk (fm : Form) (h : Head) : Bool :=
  (fm.d != .no || h.d == 0) && (fm.a != .no || h.a == 0) && (fm.b != .no || h.b == 0) &&
  (fm.d != .q || h.d.toNat < 16) && (fm.a != .q || h.a.toNat < 16) && (fm.d != .bar || h.d.toNat < 16) &&
  (match h.ext with | .imm _ => h.b == 0 | _ => true)

/-- The orders a head accepts (07 Table 07-6), as a list of ORD codes. -/
def ordersOf (op : Nat) : List Nat :=
  match op with
  | 0x24 => [0, 1]
  | 0x25 | 0x27 => [0, 2]
  | 0x26 | 0x28 => [0, 1, 2, 3]
  | 0x29 => [1, 2, 3]
  | _ => [0]

/-- The payload of an EXT.MEM (03 R65; FENCE 07 R193; TLBI 15 R386; BANKM 06 R146). -/
def memOk (h : Head) : Bool :=
  match h.ext with
  | .mem m =>
    m.sc != 7 && (ordersOf h.op.toNat).contains m.ord.toNat &&
    (match h.op.toNat with
     | 0x24 | 0x25 | 0x26 | 0x27 | 0x28 => true
     | 0x29 => m.ofs == 0 && m.hint == 0
     | 0x3D => m.ofs == 0 && m.hint == 0 && 4 ≤ m.sc.toNat
     | 0x2A => m.sc == 0 && (h.f != 4 || m.ofs == 0)
     | _ => m.sc == 0)
  | _ => true

/-- The number of registers of a memory form's data span (03 Table 03-6, 07 R175). -/
def span (op f : Nat) : Nat :=
  match op, f with
  | 0x20, 5 | 0x24, 5 | 0x21, 3 | 0x25, 3 => 2
  | 0x20, 6 | 0x24, 6 | 0x21, 4 | 0x25, 4 => 4
  | 0x26, 12 | 0x26, 13 | 0x27, 12 | 0x27, 13 | 0x28, 0 => 2
  | 0x28, 1 => 4
  | _, _ => 1

/-- The B field of a CVT (10 Table 10-11): `n` the slot, `s` SAT, `r` the rounding code. -/
def cvtOk (f n s r : Nat) : Bool :=
  match f with
  | 0 | 1 => r ≤ 5 && n ≤ 1
  | 2 | 3 => r ≤ 5
  | 4 | 5 => r == 0 && s == 0 && n ≤ 1
  | 6 | 7 => r == 0 && s == 0
  | 8 | 9 => r ≤ 5 && n == 0
  | 10 | 11 => r ≤ 5 && s == 0 && n == 0
  | 12 => s == 0 && n == 0
  | _ => false

/-- The limits that single entries set on their fields (03 R59, R66, R71, R75 and the entries named). -/
def limitsOk (h : Head) : Bool :=
  let d := h.d.toNat
  let a := h.a.toNat
  let b := h.b.toNat
  let f := h.f.toNat
  match h.op.toNat with
  | 0x00 => f != 7 || b < 16                                     -- PROG
  | 0x04 => f != 1 || (1 ≤ a && a ≤ 62)                          -- JMPV
  | 0x05 => (f != 2 && f != 3) || (48 ≤ d && a ≤ 47)             -- MAP0, MAP1
  | 0x0B => (f != 3 || (1 ≤ b && b ≤ 5)) && (f != 7 || b < 32)   -- WFLD, VEXT
  | 0x10 => f != 4 || b < 32                                     -- VINS
  | 0x1A => f != 3 || (match h.ext with | .cx _ s => s == 0 | _ => true)
  | 0x1B => f != 8 || (match h.ext with | .imm v => v.toNat < 512 | _ => true)
  | 0x1D => cvtOk f (b / 16) (b / 8 % 2) (b % 8)
  | 0x20 | 0x21 | 0x24 | 0x25 | 0x26 | 0x27 | 0x28 =>
    d + span h.op.toNat f ≤ 64 &&
    (!((h.op == 0x20 && f == 7) || (h.op == 0x21 && f == 5)) || (1 ≤ a && a ≤ 62 && b == 0))
  | 0x2A => f != 4 || a ≤ 3                                      -- BANKM
  | 0x2B => 1 ≤ a && a ≤ 16 && d + a ≤ 64                        -- SPILL, FILL
  | 0x2C => f != 2 || (1 ≤ b && b ≤ 62)                          -- LDO.Q4N
  | 0x2E => d % 8 == 0 && a ≤ (if f == 6 then 48 else 56)
  | 0x2F => d % 8 == 0 && a ≤ 60 && (match h.ext with | .cx _ s => s != 3 | _ => true)
  | 0x30 => 1 ≤ b && b ≤ 62
  | 0x32 => b ≤ 2
  | 0x3B => f != 8 || b ≤ 7
  | 0x3D => f != 8 || b ≤ 7                                      -- PTLOAD
  | _ => true

/-- The head, with its extension, is an assigned instruction with every field in its limits: row 4 of Table 03-15
but for the feature bits (03 R60 to R71, R75). -/
def ok (h : Head) : Bool :=
  match h.form with
  | none => false
  | some fm => extOk fm h.ext && modOk fm h && fieldsOk fm h && memOk h && limitsOk h

/-- The pipe of a head; MISC stands for an unassigned one, which never issues. -/
def pipe (h : Head) : Pipe := (h.form.map (·.pipe)).getD .ctl

/-- The feature bit of a launch that the head needs, if any (03 Table 03-17). -/
def feature (h : Head) : Option Nat :=
  match h.op.toNat, h.f.toNat with
  | 0x02, _ => some 4
  | 0x05, f => if 1 ≤ f && f ≤ 4 then some 4 else none
  | 0x1D, 12 | 0x2C, 2 | 0x2E, 6 => some 5
  | 0x2F, _ => some 6
  | 0x1D, 3 | 0x1D, 7 | 0x2E, 1 | 0x2E, 2 | 0x2E, 3 => some 7
  | 0x00, 7 => some 10
  | _, _ => none

/-- The head is a privileged form (03 R75; the reserved system registers 0x30 to 0x3F trap PRIVILEGE on a write). -/
def privileged (h : Head) : Bool :=
  match h.op.toNat, h.f.toNat with
  | 0x2A, 2 => true
  | 0x3D, 0 => 0x20 ≤ h.b.toNat && h.b.toNat ≤ 0x2F
  | 0x3D, 1 => 0x20 ≤ h.b.toNat && h.b.toNat ≤ 0x2F
  | 0x3D, f => 2 ≤ f && f ≤ 9
  | _, _ => false

/-- The class of registers a destination belongs to, for the chain rule (03 R53). -/
inductive DClass where
  | v | s | p | o | q | bar
  deriving DecidableEq, Repr

/-- The registers a head names as destinations, implicit ones included: a class, the first and how many (03 R53). -/
def dests (h : Head) : List (DClass × Nat × Nat) :=
  let d := h.d.toNat
  let f := h.f.toNat
  match h.op.toNat with
  | 0x00 | 0x01 | 0x02 | 0x21 | 0x23 | 0x25 | 0x27 | 0x29 | 0x2A | 0x31 | 0x33 => []
  | 0x03 => [(.s, 62, 1)]
  | 0x04 => if f == 2 then [(.s, 62, 1)] else []
  | 0x05 => if f == 4 then [(.p, d, 1)] else []
  | 0x20 | 0x24 => [(.v, d, span h.op.toNat f)]
  | 0x26 => [(.v, d, span 0x26 f)]
  | 0x28 => [(.v, d, if f == 0 then 1 else 2)]
  | 0x2B => if f == 1 then [(.v, d, h.a.toNat)] else []
  | 0x2C => [(.o, d, 1)]
  | 0x2D => if f == 2 then [(.s, d, 1)] else [(.o, d, 1)]
  | 0x2E | 0x2F => [(.v, d, 8)]
  | 0x34 => if f == 1 then [(.p, h.b.toNat, 1)] else []
  | 0x35 => if f == 1 then [(.s, d, 1), (.p, h.b.toNat, 1)] else [(.s, d, 1)]
  | 0x36 | 0x37 => []
  | _ =>
    match h.form with
    | some fm => match fm.d with
      | .v => [(.v, d, 1)] | .s => [(.s, d, 1)] | .p => [(.p, d, 1)] | _ => []
    | none => []

/-- Two heads name one register of one class as a destination. -/
def clash (x y : Head) : Bool :=
  x.dests.any fun i => y.dests.any fun j =>
    i.1 == j.1 && i.2.1 < j.2.1 + j.2.2 && j.2.1 < i.2.1 + i.2.2

end Head

end Sys2Proof
end

