-- ==== Sys2Proof/Decode.lean ====
section
/-!
DEFINITION. The decoder, from the words of a packet to instructions, and after it the encoder, both from the encoding
tables of 03. `Instr.view` and `Head.instr` relate an instruction to the fields of its head word; a packet is three
words (R48), cut into chain groups by K (R51, R52, R61), and `decodeGroup` gives the group at a slot or the first of
the decode faults of Table 03-15 that needs no state.
-/
namespace Sys2Proof

namespace Instr

/-- The head of an instruction, by the encoding tables of 03 (Tables 03-1, 03-8 to 03-14) and the entries; an event
row has none. -/
def view (i : Instr) : Option Head :=
  match i with
  | .moduleReset => none
  | .runStart _ _ => none
  | .waitEnd _ _ _ => none
  | .causalDelayEnd _ _ _ => none
  | .loadDataArrival _ _ _ => none
  | .postExecute _ _ _ => none
  | .postReport _ _ _ => none
  | .postRelease _ _ _ => none
  | .cancelFrom _ _ _ => none
  | .faultRecordWrite _ => none
  | .groupHeld _ _ => none
  | .translationWalk _ _ _ => none
  | .gets _ => none
  | .getm _ => none
  | .getu _ => none
  | .puts _ => none
  | .putm _ => none
  | .ack _ => none
  | .data _ => none
  | .atom _ => none
  | .recall _ _ => none
  | .leasex _ _ => none
  | .hsnp _ => none
  | .hget _ => none
  | .hput _ => none
  | .ncr _ => none
  | .ncw _ => none
  | .invalidation _ => none
  | .update _ => none
  | .forward _ => none
  | .reply _ => none
  | .sliceEviction _ _ => none
  | .prangeWrite _ _ _ => none
  | .fmtWrite _ _ _ => none
  | .bankpartWrite _ _ => none
  | .mirmetCfgWrite _ _ => none
  | .subWave _ _ => none
  | .computeBankRefresh _ _ _ => none
  | .computeWindowAccess _ => none
  | .bankDrain _ _ => none
  | .copyPiece _ _ => none
  | .chCtlResume _ _ => none
  | .chCtlAbort _ _ => none
  | .slotPresent _ _ _ => none
  | .matrixPass _ _ => none
  | .passResult _ _ => none
  | .lnqTailWrite _ _ _ => none
  | .launchAccept _ _ => none
  | .lnqCfgWrite _ _ _ => none
  | .lnqBaseWrite _ _ _ => none
  | .teamDispatch _ _ _ _ => none
  | .teamRetire _ _ _ => none
  | .memrd _ _ _ => none
  | .memwr _ _ _ _ => none
  | .birsp _ _ _ _ => none
  | .h2dSnoop _ _ => none
  | .rdcurrCompletion _ _ _ => none
  | .globalObservation _ => none
  | .biasReqWrite _ _ => none
  | .biasStatWrite _ _ => none
  | .biasFlipComplete _ _ => none
  | .ptmDialogue _ _ => none
  | .buithFlit _ _ => none
  | .hwCfgWrite _ _ _ => none
  | .quiesce _ => none
  | .quiesceDone => none
  | .quiesceTimeout => none
  | .release _ => none
  | .abort _ => none
  | .partitionRegisterWrite _ _ => none
  | .partQtimeoutWrite _ => none
  | .viPolicyWrite _ _ => none
  | .admSqTailWrite _ _ => none
  | .resync _ => none
  | .imageLoad _ => none
  | .acct _ => none
  | .ctxReset _ => none
  | .adminCompletionWrite _ => none
  | .admCfgWrite _ _ => none
  | .haltWrite _ _ => none
  | .accountingUpdate _ => none
  | .acctRead _ => none
  | .pldmSensorRead _ => none
  | .spdmRequest _ => none
  | .fqCfgWrite _ _ => none
  | .registerWrite _ _ => none
  | .nop q => some ⟨0x00#6, q.g, 0#6, 0#6, 0#6, 0#4, q.ext⟩
  | .land q => some ⟨0x00#6, q.g, 0#6, 0#6, 0#6, 1#4, q.ext⟩
  | .yield q => some ⟨0x00#6, q.g, 0#6, 0#6, 0#6, 2#4, q.ext⟩
  | .exit q => some ⟨0x00#6, q.g, 0#6, 0#6, 0#6, 3#4, q.ext⟩
  | .brk q b => some ⟨0x00#6, q.g, 0#6, 0#6, b, 4#4, q.ext⟩
  | .trap q b => some ⟨0x00#6, q.g, 0#6, 0#6, b, 5#4, q.ext⟩
  | .waitf q d => some ⟨0x00#6, q.g, d, 0#6, 0#6, 6#4, q.ext⟩
  | .prog q b => some ⟨0x00#6, q.g, 0#6, 0#6, b, 7#4, q.ext⟩
  | .dphinc q => some ⟨0x00#6, q.g, 0#6, 0#6, 0#6, 8#4, q.ext⟩
  | .br q x => some ⟨0x01#6, q.g, (x.extractLsb' 16 6), (x.extractLsb' 10 6), (x.extractLsb' 4 6), (x.extractLsb' 0 4), q.ext⟩
  | .brm q x => some ⟨0x02#6, q.g, (x.extractLsb' 16 6), (x.extractLsb' 10 6), (x.extractLsb' 4 6), (x.extractLsb' 0 4), q.ext⟩
  | .call q x => some ⟨0x03#6, q.g, (x.extractLsb' 16 6), (x.extractLsb' 10 6), (x.extractLsb' 4 6), (x.extractLsb' 0 4), q.ext⟩
  | .jmps q a => some ⟨0x04#6, q.g, 0#6, a, 0#6, 0#4, q.ext⟩
  | .jmpv q a => some ⟨0x04#6, q.g, 0#6, a, 0#6, 1#4, q.ext⟩
  | .calls q a => some ⟨0x04#6, q.g, 0#6, a, 0#6, 2#4, q.ext⟩
  | .ret q => some ⟨0x04#6, q.g, 0#6, 0#6, 0#6, 3#4, q.ext⟩
  | .join  => some ⟨0x05#6, 0#3, 0#6, 0#6, 0#6, 0#4, .none⟩
  | .joinm  => some ⟨0x05#6, 0#3, 0#6, 0#6, 0#6, 1#4, .none⟩
  | .map0 d a => some ⟨0x05#6, 0#3, (3#2 ++ d), a, 0#6, 2#4, .none⟩
  | .map1 d a => some ⟨0x05#6, 0#3, (3#2 ++ d), a, 0#6, 3#4, .none⟩
  | .side d => some ⟨0x05#6, 0#3, d, 0#6, 0#6, 4#4, .none⟩
  | .split v => some ⟨0x05#6, 0#3, 0#6, 0#6, 0#6, 5#4, (.imm v)⟩
  | .emrd q d => some ⟨0x06#6, q.g, d, 0#6, 0#6, 0#4, q.ext⟩
  | .emwr q a => some ⟨0x06#6, q.g, 0#6, a, 0#6, 1#4, q.ext⟩
  | .laneid q d => some ⟨0x06#6, q.g, d, 0#6, 0#6, 2#4, q.ext⟩
  | .emp q d => some ⟨0x06#6, q.g, d, 0#6, 0#6, 3#4, q.ext⟩
  | .pathid d => some ⟨0x06#6, 0#3, d, 0#6, 0#6, 4#4, .none⟩
  | .sadd q d a b => some ⟨0x08#6, q.g, d, a, b, 0#4, q.ext⟩
  | .ssub q d a b => some ⟨0x08#6, q.g, d, a, b, 1#4, q.ext⟩
  | .smul q d a b => some ⟨0x08#6, q.g, d, a, b, 2#4, q.ext⟩
  | .smulhi q d a b => some ⟨0x08#6, q.g, d, a, b, 3#4, q.ext⟩
  | .smulhu q d a b => some ⟨0x08#6, q.g, d, a, b, 4#4, q.ext⟩
  | .sand q d a b => some ⟨0x08#6, q.g, d, a, b, 5#4, q.ext⟩
  | .sor q d a b => some ⟨0x08#6, q.g, d, a, b, 6#4, q.ext⟩
  | .sxor q d a b => some ⟨0x08#6, q.g, d, a, b, 7#4, q.ext⟩
  | .sandn q d a b => some ⟨0x08#6, q.g, d, a, b, 8#4, q.ext⟩
  | .sshl q d a b => some ⟨0x08#6, q.g, d, a, b, 9#4, q.ext⟩
  | .sshr q d a b => some ⟨0x08#6, q.g, d, a, b, 10#4, q.ext⟩
  | .ssar q d a b => some ⟨0x08#6, q.g, d, a, b, 11#4, q.ext⟩
  | .smin q d a b => some ⟨0x08#6, q.g, d, a, b, 12#4, q.ext⟩
  | .smax q d a b => some ⟨0x08#6, q.g, d, a, b, 13#4, q.ext⟩
  | .sminu q d a b => some ⟨0x08#6, q.g, d, a, b, 14#4, q.ext⟩
  | .smaxu q d a b => some ⟨0x08#6, q.g, d, a, b, 15#4, q.ext⟩
  | .saddImm6 q d a i => some ⟨0x09#6, q.g, d, a, i, 0#4, q.ext⟩
  | .ssubImm6 q d a i => some ⟨0x09#6, q.g, d, a, i, 1#4, q.ext⟩
  | .smulImm6 q d a i => some ⟨0x09#6, q.g, d, a, i, 2#4, q.ext⟩
  | .smulhiImm6 q d a i => some ⟨0x09#6, q.g, d, a, i, 3#4, q.ext⟩
  | .smulhuImm6 q d a i => some ⟨0x09#6, q.g, d, a, i, 4#4, q.ext⟩
  | .sandImm6 q d a i => some ⟨0x09#6, q.g, d, a, i, 5#4, q.ext⟩
  | .sorImm6 q d a i => some ⟨0x09#6, q.g, d, a, i, 6#4, q.ext⟩
  | .sxorImm6 q d a i => some ⟨0x09#6, q.g, d, a, i, 7#4, q.ext⟩
  | .sandnImm6 q d a i => some ⟨0x09#6, q.g, d, a, i, 8#4, q.ext⟩
  | .sshlImm6 q d a i => some ⟨0x09#6, q.g, d, a, i, 9#4, q.ext⟩
  | .sshrImm6 q d a i => some ⟨0x09#6, q.g, d, a, i, 10#4, q.ext⟩
  | .ssarImm6 q d a i => some ⟨0x09#6, q.g, d, a, i, 11#4, q.ext⟩
  | .sminImm6 q d a i => some ⟨0x09#6, q.g, d, a, i, 12#4, q.ext⟩
  | .smaxImm6 q d a i => some ⟨0x09#6, q.g, d, a, i, 13#4, q.ext⟩
  | .sminuImm6 q d a i => some ⟨0x09#6, q.g, d, a, i, 14#4, q.ext⟩
  | .smaxuImm6 q d a i => some ⟨0x09#6, q.g, d, a, i, 15#4, q.ext⟩
  | .scmpEq q d a b => some ⟨0x0A#6, q.g, d, a, b, 0#4, q.ext⟩
  | .scmpNe q d a b => some ⟨0x0A#6, q.g, d, a, b, 1#4, q.ext⟩
  | .scmpLt q d a b => some ⟨0x0A#6, q.g, d, a, b, 2#4, q.ext⟩
  | .scmpLe q d a b => some ⟨0x0A#6, q.g, d, a, b, 3#4, q.ext⟩
  | .scmpLtu q d a b => some ⟨0x0A#6, q.g, d, a, b, 4#4, q.ext⟩
  | .scmpLeu q d a b => some ⟨0x0A#6, q.g, d, a, b, 5#4, q.ext⟩
  | .scmpBt q d a b => some ⟨0x0A#6, q.g, d, a, b, 6#4, q.ext⟩
  | .smov q d a => some ⟨0x0B#6, q.g, d, a, 0#6, 0#4, q.ext⟩
  | .ldi g d v => some ⟨0x0B#6, g, d, 0#6, 0#6, 1#4, (.imm v)⟩
  | .ldih g d v => some ⟨0x0B#6, g, d, 0#6, 0#6, 2#4, (.imm v)⟩
  | .wfld q d b => some ⟨0x0B#6, q.g, d, 0#6, b, 3#4, q.ext⟩
  | .sclz q d a => some ⟨0x0B#6, q.g, d, a, 0#6, 4#4, q.ext⟩
  | .spopc q d a => some ⟨0x0B#6, q.g, d, a, 0#6, 5#4, q.ext⟩
  | .sbrev q d a => some ⟨0x0B#6, q.g, d, a, 0#6, 6#4, q.ext⟩
  | .vext q d a b => some ⟨0x0B#6, q.g, d, a, b, 7#4, q.ext⟩
  | .sext32 q d a => some ⟨0x0B#6, q.g, d, a, 0#6, 8#4, q.ext⟩
  | .iadd q d a b => some ⟨0x0C#6, q.g, d, a, b, 0#4, q.ext⟩
  | .isub q d a b => some ⟨0x0C#6, q.g, d, a, b, 1#4, q.ext⟩
  | .imul q d a b => some ⟨0x0C#6, q.g, d, a, b, 2#4, q.ext⟩
  | .imulhi q d a b => some ⟨0x0C#6, q.g, d, a, b, 3#4, q.ext⟩
  | .imulhu q d a b => some ⟨0x0C#6, q.g, d, a, b, 4#4, q.ext⟩
  | .and q d a b => some ⟨0x0C#6, q.g, d, a, b, 5#4, q.ext⟩
  | .or q d a b => some ⟨0x0C#6, q.g, d, a, b, 6#4, q.ext⟩
  | .xor q d a b => some ⟨0x0C#6, q.g, d, a, b, 7#4, q.ext⟩
  | .andn q d a b => some ⟨0x0C#6, q.g, d, a, b, 8#4, q.ext⟩
  | .shl q d a b => some ⟨0x0C#6, q.g, d, a, b, 9#4, q.ext⟩
  | .shr q d a b => some ⟨0x0C#6, q.g, d, a, b, 10#4, q.ext⟩
  | .sar q d a b => some ⟨0x0C#6, q.g, d, a, b, 11#4, q.ext⟩
  | .imin q d a b => some ⟨0x0C#6, q.g, d, a, b, 12#4, q.ext⟩
  | .imax q d a b => some ⟨0x0C#6, q.g, d, a, b, 13#4, q.ext⟩
  | .iminu q d a b => some ⟨0x0C#6, q.g, d, a, b, 14#4, q.ext⟩
  | .imaxu q d a b => some ⟨0x0C#6, q.g, d, a, b, 15#4, q.ext⟩
  | .iaddImm6 q d a i => some ⟨0x0D#6, q.g, d, a, i, 0#4, q.ext⟩
  | .isubImm6 q d a i => some ⟨0x0D#6, q.g, d, a, i, 1#4, q.ext⟩
  | .imulImm6 q d a i => some ⟨0x0D#6, q.g, d, a, i, 2#4, q.ext⟩
  | .imulhiImm6 q d a i => some ⟨0x0D#6, q.g, d, a, i, 3#4, q.ext⟩
  | .imulhuImm6 q d a i => some ⟨0x0D#6, q.g, d, a, i, 4#4, q.ext⟩
  | .andImm6 q d a i => some ⟨0x0D#6, q.g, d, a, i, 5#4, q.ext⟩
  | .orImm6 q d a i => some ⟨0x0D#6, q.g, d, a, i, 6#4, q.ext⟩
  | .xorImm6 q d a i => some ⟨0x0D#6, q.g, d, a, i, 7#4, q.ext⟩
  | .andnImm6 q d a i => some ⟨0x0D#6, q.g, d, a, i, 8#4, q.ext⟩
  | .shlImm6 q d a i => some ⟨0x0D#6, q.g, d, a, i, 9#4, q.ext⟩
  | .shrImm6 q d a i => some ⟨0x0D#6, q.g, d, a, i, 10#4, q.ext⟩
  | .sarImm6 q d a i => some ⟨0x0D#6, q.g, d, a, i, 11#4, q.ext⟩
  | .iminImm6 q d a i => some ⟨0x0D#6, q.g, d, a, i, 12#4, q.ext⟩
  | .imaxImm6 q d a i => some ⟨0x0D#6, q.g, d, a, i, 13#4, q.ext⟩
  | .iminuImm6 q d a i => some ⟨0x0D#6, q.g, d, a, i, 14#4, q.ext⟩
  | .imaxuImm6 q d a i => some ⟨0x0D#6, q.g, d, a, i, 15#4, q.ext⟩
  | .imad q d a b => some ⟨0x0E#6, q.g, d, a, b, 0#4, q.ext⟩
  | .vclz q d a => some ⟨0x0E#6, q.g, d, a, 0#6, 1#4, q.ext⟩
  | .vpopc q d a => some ⟨0x0E#6, q.g, d, a, 0#6, 2#4, q.ext⟩
  | .vbrev q d a => some ⟨0x0E#6, q.g, d, a, 0#6, 3#4, q.ext⟩
  | .bfe q d a b => some ⟨0x0E#6, q.g, d, a, b, 4#4, q.ext⟩
  | .bfi q d a b => some ⟨0x0E#6, q.g, d, a, b, 5#4, q.ext⟩
  | .bysel q d a b => some ⟨0x0E#6, q.g, d, a, b, 6#4, q.ext⟩
  | .i8dot4 q d a b => some ⟨0x0E#6, q.g, d, a, b, 7#4, q.ext⟩
  | .n8dot4 q d a b => some ⟨0x0E#6, q.g, d, a, b, 8#4, q.ext⟩
  | .icmpEq q d a b => some ⟨0x0F#6, q.g, d, a, b, 0#4, q.ext⟩
  | .icmpNe q d a b => some ⟨0x0F#6, q.g, d, a, b, 1#4, q.ext⟩
  | .icmpLt q d a b => some ⟨0x0F#6, q.g, d, a, b, 2#4, q.ext⟩
  | .icmpLe q d a b => some ⟨0x0F#6, q.g, d, a, b, 3#4, q.ext⟩
  | .icmpGt q d a b => some ⟨0x0F#6, q.g, d, a, b, 4#4, q.ext⟩
  | .icmpGe q d a b => some ⟨0x0F#6, q.g, d, a, b, 5#4, q.ext⟩
  | .icmpLtu q d a b => some ⟨0x0F#6, q.g, d, a, b, 6#4, q.ext⟩
  | .icmpLeu q d a b => some ⟨0x0F#6, q.g, d, a, b, 7#4, q.ext⟩
  | .icmpGtu q d a b => some ⟨0x0F#6, q.g, d, a, b, 8#4, q.ext⟩
  | .icmpGeu q d a b => some ⟨0x0F#6, q.g, d, a, b, 9#4, q.ext⟩
  | .icmpBt q d a b => some ⟨0x0F#6, q.g, d, a, b, 10#4, q.ext⟩
  | .vmov q d a => some ⟨0x10#6, q.g, d, a, 0#6, 0#4, q.ext⟩
  | .sel q d a b => some ⟨0x10#6, q.g, d, a, b, 1#4, q.ext⟩
  | .bcst q d a => some ⟨0x10#6, q.g, d, a, 0#6, 2#4, q.ext⟩
  | .ldiv g d v => some ⟨0x10#6, g, d, 0#6, 0#6, 3#4, (.imm v)⟩
  | .vins q d a b => some ⟨0x10#6, q.g, d, a, b, 4#4, q.ext⟩
  | .pand q d a b => some ⟨0x11#6, q.g, d, a, b, 0#4, q.ext⟩
  | .por q d a b => some ⟨0x11#6, q.g, d, a, b, 1#4, q.ext⟩
  | .pxor q d a b => some ⟨0x11#6, q.g, d, a, b, 2#4, q.ext⟩
  | .pandn q d a b => some ⟨0x11#6, q.g, d, a, b, 3#4, q.ext⟩
  | .porn q d a b => some ⟨0x11#6, q.g, d, a, b, 4#4, q.ext⟩
  | .pnot q d a => some ⟨0x11#6, q.g, d, a, 0#6, 5#4, q.ext⟩
  | .pmov q d a => some ⟨0x11#6, q.g, d, a, 0#6, 6#4, q.ext⟩
  | .pset q d => some ⟨0x11#6, q.g, d, 0#6, 0#6, 7#4, q.ext⟩
  | .pclr q d => some ⟨0x11#6, q.g, d, 0#6, 0#6, 8#4, q.ext⟩
  | .p2s q d a => some ⟨0x12#6, q.g, d, a, 0#6, 0#4, q.ext⟩
  | .s2p q d a => some ⟨0x12#6, q.g, d, a, 0#6, 1#4, q.ext⟩
  | .ppop q d a => some ⟨0x12#6, q.g, d, a, 0#6, 2#4, q.ext⟩
  | .pfirst q d a => some ⟨0x12#6, q.g, d, a, 0#6, 3#4, q.ext⟩
  | .shfl q d a b => some ⟨0x13#6, q.g, d, a, b, 0#4, q.ext⟩
  | .shfls q d a b => some ⟨0x13#6, q.g, d, a, b, 1#4, q.ext⟩
  | .xredAddI32 q d a b => some ⟨0x14#6, q.g, d, a, b, 0#4, q.ext⟩
  | .xredMinI32 q d a b => some ⟨0x14#6, q.g, d, a, b, 1#4, q.ext⟩
  | .xredMaxI32 q d a b => some ⟨0x14#6, q.g, d, a, b, 2#4, q.ext⟩
  | .xredMinu q d a b => some ⟨0x14#6, q.g, d, a, b, 3#4, q.ext⟩
  | .xredMaxu q d a b => some ⟨0x14#6, q.g, d, a, b, 4#4, q.ext⟩
  | .xredAnd q d a b => some ⟨0x14#6, q.g, d, a, b, 5#4, q.ext⟩
  | .xredOr q d a b => some ⟨0x14#6, q.g, d, a, b, 6#4, q.ext⟩
  | .xredXor q d a b => some ⟨0x14#6, q.g, d, a, b, 7#4, q.ext⟩
  | .xredAddF32 q d a b => some ⟨0x14#6, q.g, d, a, b, 8#4, q.ext⟩
  | .xredMinF32 q d a b => some ⟨0x14#6, q.g, d, a, b, 9#4, q.ext⟩
  | .xredMaxF32 q d a b => some ⟨0x14#6, q.g, d, a, b, 10#4, q.ext⟩
  | .xscanAddI32 q d a b => some ⟨0x15#6, q.g, d, a, b, 0#4, q.ext⟩
  | .xscanAddF32 q d a b => some ⟨0x15#6, q.g, d, a, b, 1#4, q.ext⟩
  | .xscanMaxF32 q d a b => some ⟨0x15#6, q.g, d, a, b, 2#4, q.ext⟩
  | .xscanMinF32 q d a b => some ⟨0x15#6, q.g, d, a, b, 3#4, q.ext⟩
  | .xscanMaxI32 q d a b => some ⟨0x15#6, q.g, d, a, b, 4#4, q.ext⟩
  | .xscanOr q d a b => some ⟨0x15#6, q.g, d, a, b, 5#4, q.ext⟩
  | .xvoteAll q d a b => some ⟨0x16#6, q.g, d, a, b, 0#4, q.ext⟩
  | .xvoteAny q d a b => some ⟨0x16#6, q.g, d, a, b, 1#4, q.ext⟩
  | .xvoteBallot q d a b => some ⟨0x16#6, q.g, d, a, b, 2#4, q.ext⟩
  | .xvoteMatch q d a b => some ⟨0x16#6, q.g, d, a, b, 3#4, q.ext⟩
  | .fadd q d a b => some ⟨0x18#6, q.g, d, a, b, 0#4, q.ext⟩
  | .fsub q d a b => some ⟨0x18#6, q.g, d, a, b, 1#4, q.ext⟩
  | .fmul q d a b => some ⟨0x18#6, q.g, d, a, b, 2#4, q.ext⟩
  | .fmin q d a b => some ⟨0x18#6, q.g, d, a, b, 3#4, q.ext⟩
  | .fmax q d a b => some ⟨0x18#6, q.g, d, a, b, 4#4, q.ext⟩
  | .fminn q d a b => some ⟨0x18#6, q.g, d, a, b, 5#4, q.ext⟩
  | .fmaxn q d a b => some ⟨0x18#6, q.g, d, a, b, 6#4, q.ext⟩
  | .fabs q d a => some ⟨0x18#6, q.g, d, a, 0#6, 7#4, q.ext⟩
  | .fneg q d a => some ⟨0x18#6, q.g, d, a, 0#6, 8#4, q.ext⟩
  | .fcps q d a b => some ⟨0x18#6, q.g, d, a, b, 9#4, q.ext⟩
  | .fflr q d a => some ⟨0x18#6, q.g, d, a, 0#6, 10#4, q.ext⟩
  | .fcel q d a => some ⟨0x18#6, q.g, d, a, 0#6, 11#4, q.ext⟩
  | .ftrc q d a => some ⟨0x18#6, q.g, d, a, 0#6, 12#4, q.ext⟩
  | .frni q d a => some ⟨0x18#6, q.g, d, a, 0#6, 13#4, q.ext⟩
  | .hadd2 q d a b => some ⟨0x19#6, q.g, d, a, b, 0#4, q.ext⟩
  | .hmul2 q d a b => some ⟨0x19#6, q.g, d, a, b, 1#4, q.ext⟩
  | .hmin2 q d a b => some ⟨0x19#6, q.g, d, a, b, 2#4, q.ext⟩
  | .hmax2 q d a b => some ⟨0x19#6, q.g, d, a, b, 3#4, q.ext⟩
  | .badd2 q d a b => some ⟨0x19#6, q.g, d, a, b, 4#4, q.ext⟩
  | .bmul2 q d a b => some ⟨0x19#6, q.g, d, a, b, 5#4, q.ext⟩
  | .bmin2 q d a b => some ⟨0x19#6, q.g, d, a, b, 6#4, q.ext⟩
  | .bmax2 q d a b => some ⟨0x19#6, q.g, d, a, b, 7#4, q.ext⟩
  | .fma q d a b => some ⟨0x1A#6, q.g, d, a, b, 0#4, q.ext⟩
  | .fms q d a b => some ⟨0x1A#6, q.g, d, a, b, 1#4, q.ext⟩
  | .fnma q d a b => some ⟨0x1A#6, q.g, d, a, b, 2#4, q.ext⟩
  | .fma3 g d a b c sx => some ⟨0x1A#6, g, d, a, b, 3#4, (.cx c sx)⟩
  | .hfma2 q d a b => some ⟨0x1A#6, q.g, d, a, b, 4#4, q.ext⟩
  | .bfma2 q d a b => some ⟨0x1A#6, q.g, d, a, b, 5#4, q.ext⟩
  | .fcmpEq q d a b => some ⟨0x1B#6, q.g, d, a, b, 0#4, q.ext⟩
  | .fcmpNe q d a b => some ⟨0x1B#6, q.g, d, a, b, 1#4, q.ext⟩
  | .fcmpLt q d a b => some ⟨0x1B#6, q.g, d, a, b, 2#4, q.ext⟩
  | .fcmpLe q d a b => some ⟨0x1B#6, q.g, d, a, b, 3#4, q.ext⟩
  | .fcmpGt q d a b => some ⟨0x1B#6, q.g, d, a, b, 4#4, q.ext⟩
  | .fcmpGe q d a b => some ⟨0x1B#6, q.g, d, a, b, 5#4, q.ext⟩
  | .fcmpUno q d a b => some ⟨0x1B#6, q.g, d, a, b, 6#4, q.ext⟩
  | .fcmpOrd q d a b => some ⟨0x1B#6, q.g, d, a, b, 7#4, q.ext⟩
  | .fcmpClass g d a v => some ⟨0x1B#6, g, d, a, 0#6, 8#4, (.imm v)⟩
  | .frcp q d a => some ⟨0x1C#6, q.g, d, a, 0#6, 0#4, q.ext⟩
  | .frsq q d a => some ⟨0x1C#6, q.g, d, a, 0#6, 1#4, q.ext⟩
  | .fsqrt q d a => some ⟨0x1C#6, q.g, d, a, 0#6, 2#4, q.ext⟩
  | .fexp2 q d a => some ⟨0x1C#6, q.g, d, a, 0#6, 3#4, q.ext⟩
  | .flog2 q d a => some ⟨0x1C#6, q.g, d, a, 0#6, 4#4, q.ext⟩
  | .fdiv q d a b => some ⟨0x1C#6, q.g, d, a, b, 5#4, q.ext⟩
  | .cvtF16F32 q d a n s r => some ⟨0x1D#6, q.g, d, a, (n ++ s ++ r), 0#4, q.ext⟩
  | .cvtBf16F32 q d a n s r => some ⟨0x1D#6, q.g, d, a, (n ++ s ++ r), 1#4, q.ext⟩
  | .cvtF8e4F32 q d a n s r => some ⟨0x1D#6, q.g, d, a, (n ++ s ++ r), 2#4, q.ext⟩
  | .cvtF8e5F32 q d a n s r => some ⟨0x1D#6, q.g, d, a, (n ++ s ++ r), 3#4, q.ext⟩
  | .cvtF32F16 q d a n => some ⟨0x1D#6, q.g, d, a, (n ++ 0#1 ++ 0#3), 4#4, q.ext⟩
  | .cvtF32Bf16 q d a n => some ⟨0x1D#6, q.g, d, a, (n ++ 0#1 ++ 0#3), 5#4, q.ext⟩
  | .cvtF32F8e4 q d a n => some ⟨0x1D#6, q.g, d, a, (n ++ 0#1 ++ 0#3), 6#4, q.ext⟩
  | .cvtF32F8e5 q d a n => some ⟨0x1D#6, q.g, d, a, (n ++ 0#1 ++ 0#3), 7#4, q.ext⟩
  | .cvtI32F32 q d a s r => some ⟨0x1D#6, q.g, d, a, (0#2 ++ s ++ r), 8#4, q.ext⟩
  | .cvtN32F32 q d a s r => some ⟨0x1D#6, q.g, d, a, (0#2 ++ s ++ r), 9#4, q.ext⟩
  | .cvtF32I32 q d a r => some ⟨0x1D#6, q.g, d, a, (0#2 ++ 0#1 ++ r), 10#4, q.ext⟩
  | .cvtF32N32 q d a r => some ⟨0x1D#6, q.g, d, a, (0#2 ++ 0#1 ++ r), 11#4, q.ext⟩
  | .cbk q d a n => some ⟨0x1D#6, q.g, d, a, (0#3 ++ n), 12#4, q.ext⟩
  | .pk2h q d a b => some ⟨0x1E#6, q.g, d, a, b, 0#4, q.ext⟩
  | .pkhi q d a b => some ⟨0x1E#6, q.g, d, a, b, 1#4, q.ext⟩
  | .pkb01 q d a b => some ⟨0x1E#6, q.g, d, a, b, 2#4, q.ext⟩
  | .pkb23 q d a b => some ⟨0x1E#6, q.g, d, a, b, 3#4, q.ext⟩
  | .upklo q d a => some ⟨0x1E#6, q.g, d, a, 0#6, 4#4, q.ext⟩
  | .upkhi q d a => some ⟨0x1E#6, q.g, d, a, 0#6, 5#4, q.ext⟩
  | .ldB8z q d a s => some ⟨0x20#6, q.g, d, a, s, 0#4, q.ext⟩
  | .ldB8s q d a s => some ⟨0x20#6, q.g, d, a, s, 1#4, q.ext⟩
  | .ldB16z q d a s => some ⟨0x20#6, q.g, d, a, s, 2#4, q.ext⟩
  | .ldB16s q d a s => some ⟨0x20#6, q.g, d, a, s, 3#4, q.ext⟩
  | .ldB32 q d a s => some ⟨0x20#6, q.g, d, a, s, 4#4, q.ext⟩
  | .ldB64 q d a s => some ⟨0x20#6, q.g, d, a, s, 5#4, q.ext⟩
  | .ldB128 q d a s => some ⟨0x20#6, q.g, d, a, s, 6#4, q.ext⟩
  | .ldW32 q d a => some ⟨0x20#6, q.g, d, a, 0#6, 7#4, q.ext⟩
  | .stB8 q d a s => some ⟨0x21#6, q.g, d, a, s, 0#4, q.ext⟩
  | .stB16 q d a s => some ⟨0x21#6, q.g, d, a, s, 1#4, q.ext⟩
  | .stB32 q d a s => some ⟨0x21#6, q.g, d, a, s, 2#4, q.ext⟩
  | .stB64 q d a s => some ⟨0x21#6, q.g, d, a, s, 3#4, q.ext⟩
  | .stB128 q d a s => some ⟨0x21#6, q.g, d, a, s, 4#4, q.ext⟩
  | .stW32 q d a => some ⟨0x21#6, q.g, d, a, 0#6, 5#4, q.ext⟩
  | .lduB32z q d s => some ⟨0x22#6, q.g, d, 0#6, s, 0#4, q.ext⟩
  | .lduB32s q d s => some ⟨0x22#6, q.g, d, 0#6, s, 1#4, q.ext⟩
  | .lduB64 q d s => some ⟨0x22#6, q.g, d, 0#6, s, 2#4, q.ext⟩
  | .stuB32 q d s => some ⟨0x23#6, q.g, d, 0#6, s, 0#4, q.ext⟩
  | .stuB64 q d s => some ⟨0x23#6, q.g, d, 0#6, s, 1#4, q.ext⟩
  | .ldxB8z g d a s m => some ⟨0x24#6, g, d, a, s, 0#4, (.mem m)⟩
  | .ldxB8s g d a s m => some ⟨0x24#6, g, d, a, s, 1#4, (.mem m)⟩
  | .ldxB16z g d a s m => some ⟨0x24#6, g, d, a, s, 2#4, (.mem m)⟩
  | .ldxB16s g d a s m => some ⟨0x24#6, g, d, a, s, 3#4, (.mem m)⟩
  | .ldxB32 g d a s m => some ⟨0x24#6, g, d, a, s, 4#4, (.mem m)⟩
  | .ldxB64 g d a s m => some ⟨0x24#6, g, d, a, s, 5#4, (.mem m)⟩
  | .ldxB128 g d a s m => some ⟨0x24#6, g, d, a, s, 6#4, (.mem m)⟩
  | .stxB8 g d a s m => some ⟨0x25#6, g, d, a, s, 0#4, (.mem m)⟩
  | .stxB16 g d a s m => some ⟨0x25#6, g, d, a, s, 1#4, (.mem m)⟩
  | .stxB32 g d a s m => some ⟨0x25#6, g, d, a, s, 2#4, (.mem m)⟩
  | .stxB64 g d a s m => some ⟨0x25#6, g, d, a, s, 3#4, (.mem m)⟩
  | .stxB128 g d a s m => some ⟨0x25#6, g, d, a, s, 4#4, (.mem m)⟩
  | .atomAddI32 g d a s m => some ⟨0x26#6, g, d, a, s, 0#4, (.mem m)⟩
  | .atomAddF32 g d a s m => some ⟨0x26#6, g, d, a, s, 1#4, (.mem m)⟩
  | .atomMinI32 g d a s m => some ⟨0x26#6, g, d, a, s, 2#4, (.mem m)⟩
  | .atomMaxI32 g d a s m => some ⟨0x26#6, g, d, a, s, 3#4, (.mem m)⟩
  | .atomMinu g d a s m => some ⟨0x26#6, g, d, a, s, 4#4, (.mem m)⟩
  | .atomMaxu g d a s m => some ⟨0x26#6, g, d, a, s, 5#4, (.mem m)⟩
  | .atomAnd g d a s m => some ⟨0x26#6, g, d, a, s, 6#4, (.mem m)⟩
  | .atomOr g d a s m => some ⟨0x26#6, g, d, a, s, 7#4, (.mem m)⟩
  | .atomXor g d a s m => some ⟨0x26#6, g, d, a, s, 8#4, (.mem m)⟩
  | .atomXchg g d a s m => some ⟨0x26#6, g, d, a, s, 9#4, (.mem m)⟩
  | .atomIncw g d a s m => some ⟨0x26#6, g, d, a, s, 10#4, (.mem m)⟩
  | .atomDecw g d a s m => some ⟨0x26#6, g, d, a, s, 11#4, (.mem m)⟩
  | .atomAddI64 g d a s m => some ⟨0x26#6, g, d, a, s, 12#4, (.mem m)⟩
  | .atomXchg64 g d a s m => some ⟨0x26#6, g, d, a, s, 13#4, (.mem m)⟩
  | .atomAddH2 g d a s m => some ⟨0x26#6, g, d, a, s, 14#4, (.mem m)⟩
  | .atomAddB2 g d a s m => some ⟨0x26#6, g, d, a, s, 15#4, (.mem m)⟩
  | .redAddI32 g d a s m => some ⟨0x27#6, g, d, a, s, 0#4, (.mem m)⟩
  | .redAddF32 g d a s m => some ⟨0x27#6, g, d, a, s, 1#4, (.mem m)⟩
  | .redMinI32 g d a s m => some ⟨0x27#6, g, d, a, s, 2#4, (.mem m)⟩
  | .redMaxI32 g d a s m => some ⟨0x27#6, g, d, a, s, 3#4, (.mem m)⟩
  | .redMinu g d a s m => some ⟨0x27#6, g, d, a, s, 4#4, (.mem m)⟩
  | .redMaxu g d a s m => some ⟨0x27#6, g, d, a, s, 5#4, (.mem m)⟩
  | .redAnd g d a s m => some ⟨0x27#6, g, d, a, s, 6#4, (.mem m)⟩
  | .redOr g d a s m => some ⟨0x27#6, g, d, a, s, 7#4, (.mem m)⟩
  | .redXor g d a s m => some ⟨0x27#6, g, d, a, s, 8#4, (.mem m)⟩
  | .redXchg g d a s m => some ⟨0x27#6, g, d, a, s, 9#4, (.mem m)⟩
  | .redIncw g d a s m => some ⟨0x27#6, g, d, a, s, 10#4, (.mem m)⟩
  | .redDecw g d a s m => some ⟨0x27#6, g, d, a, s, 11#4, (.mem m)⟩
  | .redAddI64 g d a s m => some ⟨0x27#6, g, d, a, s, 12#4, (.mem m)⟩
  | .redXchg64 g d a s m => some ⟨0x27#6, g, d, a, s, 13#4, (.mem m)⟩
  | .redAddH2 g d a s m => some ⟨0x27#6, g, d, a, s, 14#4, (.mem m)⟩
  | .redAddB2 g d a s m => some ⟨0x27#6, g, d, a, s, 15#4, (.mem m)⟩
  | .cas32 g d a s m => some ⟨0x28#6, g, d, a, s, 0#4, (.mem m)⟩
  | .cas64 g d a s m => some ⟨0x28#6, g, d, a, s, 1#4, (.mem m)⟩
  | .fence m => some ⟨0x29#6, 0#3, 0#6, 0#6, 0#6, 0#4, (.mem m)⟩
  | .fenceEng m => some ⟨0x29#6, 0#3, 0#6, 0#6, 0#6, 1#4, (.mem m)⟩
  | .pref q s => some ⟨0x2A#6, q.g, 0#6, 0#6, s, 0#4, q.ext⟩
  | .cwb q s => some ⟨0x2A#6, q.g, 0#6, 0#6, s, 1#4, q.ext⟩
  | .cinv q s => some ⟨0x2A#6, q.g, 0#6, 0#6, s, 2#4, q.ext⟩
  | .czero q s => some ⟨0x2A#6, q.g, 0#6, 0#6, s, 3#4, q.ext⟩
  | .bankm q a s => some ⟨0x2A#6, q.g, 0#6, a, s, 4#4, q.ext⟩
  | .cevt q s => some ⟨0x2A#6, q.g, 0#6, 0#6, s, 5#4, q.ext⟩
  | .spill q d a s => some ⟨0x2B#6, q.g, d, a, s, 0#4, q.ext⟩
  | .fill q d a s => some ⟨0x2B#6, q.g, d, a, s, 1#4, q.ext⟩
  | .ldoF8 q d s => some ⟨0x2C#6, q.g, d, 0#6, s, 0#4, q.ext⟩
  | .ldoBf16 q d s => some ⟨0x2C#6, q.g, d, 0#6, s, 1#4, q.ext⟩
  | .ldoQ4n q d s => some ⟨0x2C#6, q.g, d, 0#6, s, 2#4, q.ext⟩
  | .claim q d => some ⟨0x2D#6, q.g, d, 0#6, 0#6, 0#4, q.ext⟩
  | .rels q d => some ⟨0x2D#6, q.g, d, 0#6, 0#6, 1#4, q.ext⟩
  | .slotq q d a => some ⟨0x2D#6, q.g, d, a, 0#6, 2#4, q.ext⟩
  | .mmaE4e4 q d a b => some ⟨0x2E#6, q.g, d, a, b, 0#4, q.ext⟩
  | .mmaE5e4 q d a b => some ⟨0x2E#6, q.g, d, a, b, 1#4, q.ext⟩
  | .mmaE4e5 q d a b => some ⟨0x2E#6, q.g, d, a, b, 2#4, q.ext⟩
  | .mmaE5e5 q d a b => some ⟨0x2E#6, q.g, d, a, b, 3#4, q.ext⟩
  | .mmaBf16 q d a b => some ⟨0x2E#6, q.g, d, a, b, 4#4, q.ext⟩
  | .mmaF16 q d a b => some ⟨0x2E#6, q.g, d, a, b, 5#4, q.ext⟩
  | .mmaE4q4 q d a b => some ⟨0x2E#6, q.g, d, a, b, 6#4, q.ext⟩
  | .mmaI8 q d a b => some ⟨0x2E#6, q.g, d, a, b, 7#4, q.ext⟩
  | .mmspE4e4 g d a b c sx => some ⟨0x2F#6, g, d, a, b, 0#4, (.cx c sx)⟩
  | .mmspBf16 g d a b c sx => some ⟨0x2F#6, g, d, a, b, 1#4, (.cx c sx)⟩
  | .mmspI8 g d a b c sx => some ⟨0x2F#6, g, d, a, b, 2#4, (.cx c sx)⟩
  | .cpy q d a b c => some ⟨0x30#6, q.g, d, a, b, (0#1 ++ c), q.ext⟩
  | .cpy2d g d a b c rows pitch => some ⟨0x30#6, g, d, a, b, (1#1 ++ c), (.aux rows pitch)⟩
  | .twait q a c => some ⟨0x31#6, q.g, 0#6, a, 0#6, (0#1 ++ c), q.ext⟩
  | .treadIss q d c => some ⟨0x32#6, q.g, d, 0#6, 0#6, (0#1 ++ c), q.ext⟩
  | .treadDone q d c => some ⟨0x32#6, q.g, d, 0#6, 1#6, (0#1 ++ c), q.ext⟩
  | .treadWp q d c => some ⟨0x32#6, q.g, d, 0#6, 2#6, (0#1 ++ c), q.ext⟩
  | .wpwait q a c => some ⟨0x33#6, q.g, 0#6, a, 0#6, (0#1 ++ c), q.ext⟩
  | .qpush q d a => some ⟨0x34#6, q.g, d, a, 0#6, 0#4, q.ext⟩
  | .qpushTry q d a b => some ⟨0x34#6, q.g, d, a, b, 1#4, q.ext⟩
  | .qpop q d a => some ⟨0x35#6, q.g, d, a, 0#6, 0#4, q.ext⟩
  | .qpopTry q d a b => some ⟨0x35#6, q.g, d, a, b, 1#4, q.ext⟩
  | .qinit q d a b => some ⟨0x36#6, q.g, d, a, b, 0#4, q.ext⟩
  | .qallow q d a => some ⟨0x36#6, q.g, d, a, 0#6, 1#4, q.ext⟩
  | .qclose q d => some ⟨0x36#6, q.g, d, 0#6, 0#6, 2#4, q.ext⟩
  | .binit q d a => some ⟨0x37#6, q.g, d, a, 0#6, 0#4, q.ext⟩
  | .barr q d => some ⟨0x37#6, q.g, d, 0#6, 0#6, 1#4, q.ext⟩
  | .bwait q d => some ⟨0x37#6, q.g, d, 0#6, 0#6, 2#4, q.ext⟩
  | .bsync q d => some ⟨0x37#6, q.g, d, 0#6, 0#6, 3#4, q.ext⟩
  | .barrn q d a => some ⟨0x37#6, q.g, d, a, 0#6, 4#4, q.ext⟩
  | .homeL q d => some ⟨0x38#6, q.g, d, 0#6, 0#6, 0#4, q.ext⟩
  | .homeK q d => some ⟨0x38#6, q.g, d, 0#6, 0#6, 1#4, q.ext⟩
  | .homeH q d a => some ⟨0x38#6, q.g, d, a, 0#6, 2#4, q.ext⟩
  | .homeM q d a => some ⟨0x38#6, q.g, d, a, 0#6, 3#4, q.ext⟩
  | .drain q => some ⟨0x39#6, q.g, 0#6, 0#6, 0#6, 0#4, q.ext⟩
  | .mfpm q d a => some ⟨0x39#6, q.g, d, a, 0#6, 1#4, q.ext⟩
  | .quota q a => some ⟨0x39#6, q.g, 0#6, a, 0#6, 2#4, q.ext⟩
  | .akey q d a => some ⟨0x3B#6, q.g, d, a, 0#6, 0#4, q.ext⟩
  | .aact q d a => some ⟨0x3B#6, q.g, d, a, 0#6, 1#4, q.ext⟩
  | .acmp q d => some ⟨0x3B#6, q.g, d, 0#6, 0#6, 2#4, q.ext⟩
  | .acmpa q d => some ⟨0x3B#6, q.g, d, 0#6, 0#6, 3#4, q.ext⟩
  | .acmpo q d => some ⟨0x3B#6, q.g, d, 0#6, 0#6, 4#4, q.ext⟩
  | .awrt q d => some ⟨0x3B#6, q.g, d, 0#6, 0#6, 5#4, q.ext⟩
  | .apass q d a => some ⟨0x3B#6, q.g, d, a, 0#6, 6#4, q.ext⟩
  | .apre q d => some ⟨0x3B#6, q.g, d, 0#6, 0#6, 7#4, q.ext⟩
  | .ardt q d b => some ⟨0x3B#6, q.g, d, 0#6, b, 8#4, q.ext⟩
  | .acnt q d => some ⟨0x3B#6, q.g, d, 0#6, 0#6, 9#4, q.ext⟩
  | .launch q d a => some ⟨0x3C#6, q.g, d, a, 0#6, 0#4, q.ext⟩
  | .tsig q => some ⟨0x3C#6, q.g, 0#6, 0#6, 0#6, 1#4, q.ext⟩
  | .evset q a => some ⟨0x3C#6, q.g, 0#6, a, 0#6, 2#4, q.ext⟩
  | .evwait q a => some ⟨0x3C#6, q.g, 0#6, a, 0#6, 3#4, q.ext⟩
  | .lstat q d a => some ⟨0x3C#6, q.g, d, a, 0#6, 4#4, q.ext⟩
  | .mfs q d b => some ⟨0x3D#6, q.g, d, 0#6, b, 0#4, q.ext⟩
  | .mts q a b => some ⟨0x3D#6, q.g, 0#6, a, b, 1#4, q.ext⟩
  | .tlbi g a b m => some ⟨0x3D#6, g, 0#6, a, b, 2#4, (.mem m)⟩
  | .ctxsv q d a b => some ⟨0x3D#6, q.g, d, a, b, 3#4, q.ext⟩
  | .ctxrs q d a => some ⟨0x3D#6, q.g, d, a, 0#6, 4#4, q.ext⟩
  | .winrd q d a => some ⟨0x3D#6, q.g, d, a, 0#6, 5#4, q.ext⟩
  | .winwr q a b => some ⟨0x3D#6, q.g, 0#6, a, b, 6#4, q.ext⟩
  | .resume q a => some ⟨0x3D#6, q.g, 0#6, a, 0#6, 7#4, q.ext⟩
  | .ptload q d a b => some ⟨0x3D#6, q.g, d, a, b, 8#4, q.ext⟩
  | .bias q d a => some ⟨0x3D#6, q.g, d, a, 0#6, 9#4, q.ext⟩
  | .dtime q d => some ⟨0x3D#6, q.g, d, 0#6, 0#6, 10#4, q.ext⟩
  | .configurationRequest _ _ => none
  | .replicaFill _ => none
  | .backInvalidation _ => none

end Instr

namespace Head

/-- The guard field and optional extension of a head. -/
def quals (h : Head) : Quals := ⟨h.g, h.ext⟩

/-- The 22-bit branch offset of a B-format head (03 Table 03-1). -/
def offset (h : Head) : BitVec 22 := h.d ++ h.a ++ h.b ++ h.f

/-- The instructions of major 0x00. -/
noncomputable def read00 (h : Head) : Option Instr :=
  [.nop h.quals,
    .land h.quals,
    .yield h.quals,
    .exit h.quals,
    .brk h.quals h.b,
    .trap h.quals h.b,
    .waitf h.quals h.d,
    .prog h.quals h.b,
    .dphinc h.quals][h.f.toNat]?

/-- The instructions of major 0x01. -/
noncomputable def read01 (h : Head) : Option Instr :=
  some (.br h.quals h.offset)

/-- The instructions of major 0x02. -/
noncomputable def read02 (h : Head) : Option Instr :=
  some (.brm h.quals h.offset)

/-- The instructions of major 0x03. -/
noncomputable def read03 (h : Head) : Option Instr :=
  some (.call h.quals h.offset)

/-- The instructions of major 0x04. -/
noncomputable def read04 (h : Head) : Option Instr :=
  [.jmps h.quals h.a,
    .jmpv h.quals h.a,
    .calls h.quals h.a,
    .ret h.quals][h.f.toNat]?

/-- The instructions of major 0x05. -/
noncomputable def read05 (h : Head) : Option Instr :=
  match h.ext with
  | .imm v => ([some (.join),
    some (.joinm),
    some (.map0 (h.d.extractLsb' 0 4) h.a),
    some (.map1 (h.d.extractLsb' 0 4) h.a),
    some (.side h.d),
    some (.split v)][h.f.toNat]?).join
  | _ => ([some (.join),
    some (.joinm),
    some (.map0 (h.d.extractLsb' 0 4) h.a),
    some (.map1 (h.d.extractLsb' 0 4) h.a),
    some (.side h.d),
    none][h.f.toNat]?).join

/-- The instructions of major 0x06. -/
noncomputable def read06 (h : Head) : Option Instr :=
  [.emrd h.quals h.d,
    .emwr h.quals h.a,
    .laneid h.quals h.d,
    .emp h.quals h.d,
    .pathid h.d][h.f.toNat]?

/-- The instructions of major 0x08. -/
noncomputable def read08 (h : Head) : Option Instr :=
  [.sadd h.quals h.d h.a h.b,
    .ssub h.quals h.d h.a h.b,
    .smul h.quals h.d h.a h.b,
    .smulhi h.quals h.d h.a h.b,
    .smulhu h.quals h.d h.a h.b,
    .sand h.quals h.d h.a h.b,
    .sor h.quals h.d h.a h.b,
    .sxor h.quals h.d h.a h.b,
    .sandn h.quals h.d h.a h.b,
    .sshl h.quals h.d h.a h.b,
    .sshr h.quals h.d h.a h.b,
    .ssar h.quals h.d h.a h.b,
    .smin h.quals h.d h.a h.b,
    .smax h.quals h.d h.a h.b,
    .sminu h.quals h.d h.a h.b,
    .smaxu h.quals h.d h.a h.b][h.f.toNat]?

/-- The instructions of major 0x09. -/
noncomputable def read09 (h : Head) : Option Instr :=
  [.saddImm6 h.quals h.d h.a h.b,
    .ssubImm6 h.quals h.d h.a h.b,
    .smulImm6 h.quals h.d h.a h.b,
    .smulhiImm6 h.quals h.d h.a h.b,
    .smulhuImm6 h.quals h.d h.a h.b,
    .sandImm6 h.quals h.d h.a h.b,
    .sorImm6 h.quals h.d h.a h.b,
    .sxorImm6 h.quals h.d h.a h.b,
    .sandnImm6 h.quals h.d h.a h.b,
    .sshlImm6 h.quals h.d h.a h.b,
    .sshrImm6 h.quals h.d h.a h.b,
    .ssarImm6 h.quals h.d h.a h.b,
    .sminImm6 h.quals h.d h.a h.b,
    .smaxImm6 h.quals h.d h.a h.b,
    .sminuImm6 h.quals h.d h.a h.b,
    .smaxuImm6 h.quals h.d h.a h.b][h.f.toNat]?

/-- The instructions of major 0x0A. -/
noncomputable def read0A (h : Head) : Option Instr :=
  [.scmpEq h.quals h.d h.a h.b,
    .scmpNe h.quals h.d h.a h.b,
    .scmpLt h.quals h.d h.a h.b,
    .scmpLe h.quals h.d h.a h.b,
    .scmpLtu h.quals h.d h.a h.b,
    .scmpLeu h.quals h.d h.a h.b,
    .scmpBt h.quals h.d h.a h.b][h.f.toNat]?

/-- The instructions of major 0x0B. -/
noncomputable def read0B (h : Head) : Option Instr :=
  match h.ext with
  | .imm v => ([some (.smov h.quals h.d h.a),
    some (.ldi h.g h.d v),
    some (.ldih h.g h.d v),
    some (.wfld h.quals h.d h.b),
    some (.sclz h.quals h.d h.a),
    some (.spopc h.quals h.d h.a),
    some (.sbrev h.quals h.d h.a),
    some (.vext h.quals h.d h.a h.b),
    some (.sext32 h.quals h.d h.a)][h.f.toNat]?).join
  | _ => ([some (.smov h.quals h.d h.a),
    none,
    none,
    some (.wfld h.quals h.d h.b),
    some (.sclz h.quals h.d h.a),
    some (.spopc h.quals h.d h.a),
    some (.sbrev h.quals h.d h.a),
    some (.vext h.quals h.d h.a h.b),
    some (.sext32 h.quals h.d h.a)][h.f.toNat]?).join

/-- The instructions of major 0x0C. -/
noncomputable def read0C (h : Head) : Option Instr :=
  [.iadd h.quals h.d h.a h.b,
    .isub h.quals h.d h.a h.b,
    .imul h.quals h.d h.a h.b,
    .imulhi h.quals h.d h.a h.b,
    .imulhu h.quals h.d h.a h.b,
    .and h.quals h.d h.a h.b,
    .or h.quals h.d h.a h.b,
    .xor h.quals h.d h.a h.b,
    .andn h.quals h.d h.a h.b,
    .shl h.quals h.d h.a h.b,
    .shr h.quals h.d h.a h.b,
    .sar h.quals h.d h.a h.b,
    .imin h.quals h.d h.a h.b,
    .imax h.quals h.d h.a h.b,
    .iminu h.quals h.d h.a h.b,
    .imaxu h.quals h.d h.a h.b][h.f.toNat]?

/-- The instructions of major 0x0D. -/
noncomputable def read0D (h : Head) : Option Instr :=
  [.iaddImm6 h.quals h.d h.a h.b,
    .isubImm6 h.quals h.d h.a h.b,
    .imulImm6 h.quals h.d h.a h.b,
    .imulhiImm6 h.quals h.d h.a h.b,
    .imulhuImm6 h.quals h.d h.a h.b,
    .andImm6 h.quals h.d h.a h.b,
    .orImm6 h.quals h.d h.a h.b,
    .xorImm6 h.quals h.d h.a h.b,
    .andnImm6 h.quals h.d h.a h.b,
    .shlImm6 h.quals h.d h.a h.b,
    .shrImm6 h.quals h.d h.a h.b,
    .sarImm6 h.quals h.d h.a h.b,
    .iminImm6 h.quals h.d h.a h.b,
    .imaxImm6 h.quals h.d h.a h.b,
    .iminuImm6 h.quals h.d h.a h.b,
    .imaxuImm6 h.quals h.d h.a h.b][h.f.toNat]?

/-- The instructions of major 0x0E. -/
noncomputable def read0E (h : Head) : Option Instr :=
  [.imad h.quals h.d h.a h.b,
    .vclz h.quals h.d h.a,
    .vpopc h.quals h.d h.a,
    .vbrev h.quals h.d h.a,
    .bfe h.quals h.d h.a h.b,
    .bfi h.quals h.d h.a h.b,
    .bysel h.quals h.d h.a h.b,
    .i8dot4 h.quals h.d h.a h.b,
    .n8dot4 h.quals h.d h.a h.b][h.f.toNat]?

/-- The instructions of major 0x0F. -/
noncomputable def read0F (h : Head) : Option Instr :=
  [.icmpEq h.quals h.d h.a h.b,
    .icmpNe h.quals h.d h.a h.b,
    .icmpLt h.quals h.d h.a h.b,
    .icmpLe h.quals h.d h.a h.b,
    .icmpGt h.quals h.d h.a h.b,
    .icmpGe h.quals h.d h.a h.b,
    .icmpLtu h.quals h.d h.a h.b,
    .icmpLeu h.quals h.d h.a h.b,
    .icmpGtu h.quals h.d h.a h.b,
    .icmpGeu h.quals h.d h.a h.b,
    .icmpBt h.quals h.d h.a h.b][h.f.toNat]?

/-- The instructions of major 0x10. -/
noncomputable def read10 (h : Head) : Option Instr :=
  match h.ext with
  | .imm v => ([some (.vmov h.quals h.d h.a),
    some (.sel h.quals h.d h.a h.b),
    some (.bcst h.quals h.d h.a),
    some (.ldiv h.g h.d v),
    some (.vins h.quals h.d h.a h.b)][h.f.toNat]?).join
  | _ => ([some (.vmov h.quals h.d h.a),
    some (.sel h.quals h.d h.a h.b),
    some (.bcst h.quals h.d h.a),
    none,
    some (.vins h.quals h.d h.a h.b)][h.f.toNat]?).join

/-- The instructions of major 0x11. -/
noncomputable def read11 (h : Head) : Option Instr :=
  [.pand h.quals h.d h.a h.b,
    .por h.quals h.d h.a h.b,
    .pxor h.quals h.d h.a h.b,
    .pandn h.quals h.d h.a h.b,
    .porn h.quals h.d h.a h.b,
    .pnot h.quals h.d h.a,
    .pmov h.quals h.d h.a,
    .pset h.quals h.d,
    .pclr h.quals h.d][h.f.toNat]?

/-- The instructions of major 0x12. -/
noncomputable def read12 (h : Head) : Option Instr :=
  [.p2s h.quals h.d h.a,
    .s2p h.quals h.d h.a,
    .ppop h.quals h.d h.a,
    .pfirst h.quals h.d h.a][h.f.toNat]?

/-- The instructions of major 0x13. -/
noncomputable def read13 (h : Head) : Option Instr :=
  [.shfl h.quals h.d h.a h.b,
    .shfls h.quals h.d h.a h.b][h.f.toNat]?

/-- The instructions of major 0x14. -/
noncomputable def read14 (h : Head) : Option Instr :=
  [.xredAddI32 h.quals h.d h.a h.b,
    .xredMinI32 h.quals h.d h.a h.b,
    .xredMaxI32 h.quals h.d h.a h.b,
    .xredMinu h.quals h.d h.a h.b,
    .xredMaxu h.quals h.d h.a h.b,
    .xredAnd h.quals h.d h.a h.b,
    .xredOr h.quals h.d h.a h.b,
    .xredXor h.quals h.d h.a h.b,
    .xredAddF32 h.quals h.d h.a h.b,
    .xredMinF32 h.quals h.d h.a h.b,
    .xredMaxF32 h.quals h.d h.a h.b][h.f.toNat]?

/-- The instructions of major 0x15. -/
noncomputable def read15 (h : Head) : Option Instr :=
  [.xscanAddI32 h.quals h.d h.a h.b,
    .xscanAddF32 h.quals h.d h.a h.b,
    .xscanMaxF32 h.quals h.d h.a h.b,
    .xscanMinF32 h.quals h.d h.a h.b,
    .xscanMaxI32 h.quals h.d h.a h.b,
    .xscanOr h.quals h.d h.a h.b][h.f.toNat]?

/-- The instructions of major 0x16. -/
noncomputable def read16 (h : Head) : Option Instr :=
  [.xvoteAll h.quals h.d h.a h.b,
    .xvoteAny h.quals h.d h.a h.b,
    .xvoteBallot h.quals h.d h.a h.b,
    .xvoteMatch h.quals h.d h.a h.b][h.f.toNat]?

/-- The instructions of major 0x18. -/
noncomputable def read18 (h : Head) : Option Instr :=
  [.fadd h.quals h.d h.a h.b,
    .fsub h.quals h.d h.a h.b,
    .fmul h.quals h.d h.a h.b,
    .fmin h.quals h.d h.a h.b,
    .fmax h.quals h.d h.a h.b,
    .fminn h.quals h.d h.a h.b,
    .fmaxn h.quals h.d h.a h.b,
    .fabs h.quals h.d h.a,
    .fneg h.quals h.d h.a,
    .fcps h.quals h.d h.a h.b,
    .fflr h.quals h.d h.a,
    .fcel h.quals h.d h.a,
    .ftrc h.quals h.d h.a,
    .frni h.quals h.d h.a][h.f.toNat]?

/-- The instructions of major 0x19. -/
noncomputable def read19 (h : Head) : Option Instr :=
  [.hadd2 h.quals h.d h.a h.b,
    .hmul2 h.quals h.d h.a h.b,
    .hmin2 h.quals h.d h.a h.b,
    .hmax2 h.quals h.d h.a h.b,
    .badd2 h.quals h.d h.a h.b,
    .bmul2 h.quals h.d h.a h.b,
    .bmin2 h.quals h.d h.a h.b,
    .bmax2 h.quals h.d h.a h.b][h.f.toNat]?

/-- The instructions of major 0x1A. -/
noncomputable def read1A (h : Head) : Option Instr :=
  match h.ext with
  | .cx c sx => ([some (.fma h.quals h.d h.a h.b),
    some (.fms h.quals h.d h.a h.b),
    some (.fnma h.quals h.d h.a h.b),
    some (.fma3 h.g h.d h.a h.b c sx),
    some (.hfma2 h.quals h.d h.a h.b),
    some (.bfma2 h.quals h.d h.a h.b)][h.f.toNat]?).join
  | _ => ([some (.fma h.quals h.d h.a h.b),
    some (.fms h.quals h.d h.a h.b),
    some (.fnma h.quals h.d h.a h.b),
    none,
    some (.hfma2 h.quals h.d h.a h.b),
    some (.bfma2 h.quals h.d h.a h.b)][h.f.toNat]?).join

/-- The instructions of major 0x1B. -/
noncomputable def read1B (h : Head) : Option Instr :=
  match h.ext with
  | .imm v => ([some (.fcmpEq h.quals h.d h.a h.b),
    some (.fcmpNe h.quals h.d h.a h.b),
    some (.fcmpLt h.quals h.d h.a h.b),
    some (.fcmpLe h.quals h.d h.a h.b),
    some (.fcmpGt h.quals h.d h.a h.b),
    some (.fcmpGe h.quals h.d h.a h.b),
    some (.fcmpUno h.quals h.d h.a h.b),
    some (.fcmpOrd h.quals h.d h.a h.b),
    some (.fcmpClass h.g h.d h.a v)][h.f.toNat]?).join
  | _ => ([some (.fcmpEq h.quals h.d h.a h.b),
    some (.fcmpNe h.quals h.d h.a h.b),
    some (.fcmpLt h.quals h.d h.a h.b),
    some (.fcmpLe h.quals h.d h.a h.b),
    some (.fcmpGt h.quals h.d h.a h.b),
    some (.fcmpGe h.quals h.d h.a h.b),
    some (.fcmpUno h.quals h.d h.a h.b),
    some (.fcmpOrd h.quals h.d h.a h.b),
    none][h.f.toNat]?).join

/-- The instructions of major 0x1C. -/
noncomputable def read1C (h : Head) : Option Instr :=
  [.frcp h.quals h.d h.a,
    .frsq h.quals h.d h.a,
    .fsqrt h.quals h.d h.a,
    .fexp2 h.quals h.d h.a,
    .flog2 h.quals h.d h.a,
    .fdiv h.quals h.d h.a h.b][h.f.toNat]?

/-- The instructions of major 0x1D. -/
noncomputable def read1D (h : Head) : Option Instr :=
  [.cvtF16F32 h.quals h.d h.a (h.b.extractLsb' 4 2) (h.b.extractLsb' 3 1) (h.b.extractLsb' 0 3),
    .cvtBf16F32 h.quals h.d h.a (h.b.extractLsb' 4 2) (h.b.extractLsb' 3 1) (h.b.extractLsb' 0 3),
    .cvtF8e4F32 h.quals h.d h.a (h.b.extractLsb' 4 2) (h.b.extractLsb' 3 1) (h.b.extractLsb' 0 3),
    .cvtF8e5F32 h.quals h.d h.a (h.b.extractLsb' 4 2) (h.b.extractLsb' 3 1) (h.b.extractLsb' 0 3),
    .cvtF32F16 h.quals h.d h.a (h.b.extractLsb' 4 2),
    .cvtF32Bf16 h.quals h.d h.a (h.b.extractLsb' 4 2),
    .cvtF32F8e4 h.quals h.d h.a (h.b.extractLsb' 4 2),
    .cvtF32F8e5 h.quals h.d h.a (h.b.extractLsb' 4 2),
    .cvtI32F32 h.quals h.d h.a (h.b.extractLsb' 3 1) (h.b.extractLsb' 0 3),
    .cvtN32F32 h.quals h.d h.a (h.b.extractLsb' 3 1) (h.b.extractLsb' 0 3),
    .cvtF32I32 h.quals h.d h.a (h.b.extractLsb' 0 3),
    .cvtF32N32 h.quals h.d h.a (h.b.extractLsb' 0 3),
    .cbk h.quals h.d h.a (h.b.extractLsb' 0 3)][h.f.toNat]?

/-- The instructions of major 0x1E. -/
noncomputable def read1E (h : Head) : Option Instr :=
  [.pk2h h.quals h.d h.a h.b,
    .pkhi h.quals h.d h.a h.b,
    .pkb01 h.quals h.d h.a h.b,
    .pkb23 h.quals h.d h.a h.b,
    .upklo h.quals h.d h.a,
    .upkhi h.quals h.d h.a][h.f.toNat]?

/-- The instructions of major 0x20. -/
noncomputable def read20 (h : Head) : Option Instr :=
  [.ldB8z h.quals h.d h.a h.b,
    .ldB8s h.quals h.d h.a h.b,
    .ldB16z h.quals h.d h.a h.b,
    .ldB16s h.quals h.d h.a h.b,
    .ldB32 h.quals h.d h.a h.b,
    .ldB64 h.quals h.d h.a h.b,
    .ldB128 h.quals h.d h.a h.b,
    .ldW32 h.quals h.d h.a][h.f.toNat]?

/-- The instructions of major 0x21. -/
noncomputable def read21 (h : Head) : Option Instr :=
  [.stB8 h.quals h.d h.a h.b,
    .stB16 h.quals h.d h.a h.b,
    .stB32 h.quals h.d h.a h.b,
    .stB64 h.quals h.d h.a h.b,
    .stB128 h.quals h.d h.a h.b,
    .stW32 h.quals h.d h.a][h.f.toNat]?

/-- The instructions of major 0x22. -/
noncomputable def read22 (h : Head) : Option Instr :=
  [.lduB32z h.quals h.d h.b,
    .lduB32s h.quals h.d h.b,
    .lduB64 h.quals h.d h.b][h.f.toNat]?

/-- The instructions of major 0x23. -/
noncomputable def read23 (h : Head) : Option Instr :=
  [.stuB32 h.quals h.d h.b,
    .stuB64 h.quals h.d h.b][h.f.toNat]?

/-- The instructions of major 0x24. -/
noncomputable def read24 (h : Head) : Option Instr :=
  match h.ext with
  | .mem m => [.ldxB8z h.g h.d h.a h.b m,
    .ldxB8s h.g h.d h.a h.b m,
    .ldxB16z h.g h.d h.a h.b m,
    .ldxB16s h.g h.d h.a h.b m,
    .ldxB32 h.g h.d h.a h.b m,
    .ldxB64 h.g h.d h.a h.b m,
    .ldxB128 h.g h.d h.a h.b m][h.f.toNat]?
  | _ => none

/-- The instructions of major 0x25. -/
noncomputable def read25 (h : Head) : Option Instr :=
  match h.ext with
  | .mem m => [.stxB8 h.g h.d h.a h.b m,
    .stxB16 h.g h.d h.a h.b m,
    .stxB32 h.g h.d h.a h.b m,
    .stxB64 h.g h.d h.a h.b m,
    .stxB128 h.g h.d h.a h.b m][h.f.toNat]?
  | _ => none

/-- The instructions of major 0x26. -/
noncomputable def read26 (h : Head) : Option Instr :=
  match h.ext with
  | .mem m => [.atomAddI32 h.g h.d h.a h.b m,
    .atomAddF32 h.g h.d h.a h.b m,
    .atomMinI32 h.g h.d h.a h.b m,
    .atomMaxI32 h.g h.d h.a h.b m,
    .atomMinu h.g h.d h.a h.b m,
    .atomMaxu h.g h.d h.a h.b m,
    .atomAnd h.g h.d h.a h.b m,
    .atomOr h.g h.d h.a h.b m,
    .atomXor h.g h.d h.a h.b m,
    .atomXchg h.g h.d h.a h.b m,
    .atomIncw h.g h.d h.a h.b m,
    .atomDecw h.g h.d h.a h.b m,
    .atomAddI64 h.g h.d h.a h.b m,
    .atomXchg64 h.g h.d h.a h.b m,
    .atomAddH2 h.g h.d h.a h.b m,
    .atomAddB2 h.g h.d h.a h.b m][h.f.toNat]?
  | _ => none

/-- The instructions of major 0x27. -/
noncomputable def read27 (h : Head) : Option Instr :=
  match h.ext with
  | .mem m => [.redAddI32 h.g h.d h.a h.b m,
    .redAddF32 h.g h.d h.a h.b m,
    .redMinI32 h.g h.d h.a h.b m,
    .redMaxI32 h.g h.d h.a h.b m,
    .redMinu h.g h.d h.a h.b m,
    .redMaxu h.g h.d h.a h.b m,
    .redAnd h.g h.d h.a h.b m,
    .redOr h.g h.d h.a h.b m,
    .redXor h.g h.d h.a h.b m,
    .redXchg h.g h.d h.a h.b m,
    .redIncw h.g h.d h.a h.b m,
    .redDecw h.g h.d h.a h.b m,
    .redAddI64 h.g h.d h.a h.b m,
    .redXchg64 h.g h.d h.a h.b m,
    .redAddH2 h.g h.d h.a h.b m,
    .redAddB2 h.g h.d h.a h.b m][h.f.toNat]?
  | _ => none

/-- The instructions of major 0x28. -/
noncomputable def read28 (h : Head) : Option Instr :=
  match h.ext with
  | .mem m => [.cas32 h.g h.d h.a h.b m,
    .cas64 h.g h.d h.a h.b m][h.f.toNat]?
  | _ => none

/-- The instructions of major 0x29. -/
noncomputable def read29 (h : Head) : Option Instr :=
  match h.ext with
  | .mem m => [.fence m,
    .fenceEng m][h.f.toNat]?
  | _ => none

/-- The instructions of major 0x2A. -/
noncomputable def read2A (h : Head) : Option Instr :=
  [.pref h.quals h.b,
    .cwb h.quals h.b,
    .cinv h.quals h.b,
    .czero h.quals h.b,
    .bankm h.quals h.a h.b,
    .cevt h.quals h.b][h.f.toNat]?

/-- The instructions of major 0x2B. -/
noncomputable def read2B (h : Head) : Option Instr :=
  [.spill h.quals h.d h.a h.b,
    .fill h.quals h.d h.a h.b][h.f.toNat]?

/-- The instructions of major 0x2C. -/
noncomputable def read2C (h : Head) : Option Instr :=
  [.ldoF8 h.quals h.d h.b,
    .ldoBf16 h.quals h.d h.b,
    .ldoQ4n h.quals h.d h.b][h.f.toNat]?

/-- The instructions of major 0x2D. -/
noncomputable def read2D (h : Head) : Option Instr :=
  [.claim h.quals h.d,
    .rels h.quals h.d,
    .slotq h.quals h.d h.a][h.f.toNat]?

/-- The instructions of major 0x2E. -/
noncomputable def read2E (h : Head) : Option Instr :=
  [.mmaE4e4 h.quals h.d h.a h.b,
    .mmaE5e4 h.quals h.d h.a h.b,
    .mmaE4e5 h.quals h.d h.a h.b,
    .mmaE5e5 h.quals h.d h.a h.b,
    .mmaBf16 h.quals h.d h.a h.b,
    .mmaF16 h.quals h.d h.a h.b,
    .mmaE4q4 h.quals h.d h.a h.b,
    .mmaI8 h.quals h.d h.a h.b][h.f.toNat]?

/-- The instructions of major 0x2F. -/
noncomputable def read2F (h : Head) : Option Instr :=
  match h.ext with
  | .cx c sx => [.mmspE4e4 h.g h.d h.a h.b c sx,
    .mmspBf16 h.g h.d h.a h.b c sx,
    .mmspI8 h.g h.d h.a h.b c sx][h.f.toNat]?
  | _ => none

/-- The instructions of major 0x30. -/
noncomputable def read30 (h : Head) : Option Instr :=
  match h.ext with
  | .aux rows pitch => if h.f.getLsbD 3 then some (.cpy2d h.g h.d h.a h.b (h.f.extractLsb' 0 3) rows pitch) else none
  | _ => if h.f.getLsbD 3 then none else some (.cpy h.quals h.d h.a h.b (h.f.extractLsb' 0 3))

/-- The instructions of major 0x31. -/
noncomputable def read31 (h : Head) : Option Instr :=
  if h.f.getLsbD 3 then none else some (.twait h.quals h.a (h.f.extractLsb' 0 3))

/-- The instructions of major 0x32. -/
noncomputable def read32 (h : Head) : Option Instr :=
  if h.f.getLsbD 3 then none else [.treadIss h.quals h.d (h.f.extractLsb' 0 3), .treadDone h.quals h.d (h.f.extractLsb' 0 3), .treadWp h.quals h.d (h.f.extractLsb' 0 3)][h.b.toNat]?

/-- The instructions of major 0x33. -/
noncomputable def read33 (h : Head) : Option Instr :=
  if h.f.getLsbD 3 then none else some (.wpwait h.quals h.a (h.f.extractLsb' 0 3))

/-- The instructions of major 0x34. -/
noncomputable def read34 (h : Head) : Option Instr :=
  [.qpush h.quals h.d h.a,
    .qpushTry h.quals h.d h.a h.b][h.f.toNat]?

/-- The instructions of major 0x35. -/
noncomputable def read35 (h : Head) : Option Instr :=
  [.qpop h.quals h.d h.a,
    .qpopTry h.quals h.d h.a h.b][h.f.toNat]?

/-- The instructions of major 0x36. -/
noncomputable def read36 (h : Head) : Option Instr :=
  [.qinit h.quals h.d h.a h.b,
    .qallow h.quals h.d h.a,
    .qclose h.quals h.d][h.f.toNat]?

/-- The instructions of major 0x37. -/
noncomputable def read37 (h : Head) : Option Instr :=
  [.binit h.quals h.d h.a,
    .barr h.quals h.d,
    .bwait h.quals h.d,
    .bsync h.quals h.d,
    .barrn h.quals h.d h.a][h.f.toNat]?

/-- The instructions of major 0x38. -/
noncomputable def read38 (h : Head) : Option Instr :=
  [.homeL h.quals h.d,
    .homeK h.quals h.d,
    .homeH h.quals h.d h.a,
    .homeM h.quals h.d h.a][h.f.toNat]?

/-- The instructions of major 0x39. -/
noncomputable def read39 (h : Head) : Option Instr :=
  [.drain h.quals,
    .mfpm h.quals h.d h.a,
    .quota h.quals h.a][h.f.toNat]?

/-- The instructions of major 0x3B. -/
noncomputable def read3B (h : Head) : Option Instr :=
  [.akey h.quals h.d h.a,
    .aact h.quals h.d h.a,
    .acmp h.quals h.d,
    .acmpa h.quals h.d,
    .acmpo h.quals h.d,
    .awrt h.quals h.d,
    .apass h.quals h.d h.a,
    .apre h.quals h.d,
    .ardt h.quals h.d h.b,
    .acnt h.quals h.d][h.f.toNat]?

/-- The instructions of major 0x3C. -/
noncomputable def read3C (h : Head) : Option Instr :=
  [.launch h.quals h.d h.a,
    .tsig h.quals,
    .evset h.quals h.a,
    .evwait h.quals h.a,
    .lstat h.quals h.d h.a][h.f.toNat]?

/-- The instructions of major 0x3D. -/
noncomputable def read3D (h : Head) : Option Instr :=
  match h.ext with
  | .mem m => ([some (.mfs h.quals h.d h.b),
    some (.mts h.quals h.a h.b),
    some (.tlbi h.g h.a h.b m),
    some (.ctxsv h.quals h.d h.a h.b),
    some (.ctxrs h.quals h.d h.a),
    some (.winrd h.quals h.d h.a),
    some (.winwr h.quals h.a h.b),
    some (.resume h.quals h.a),
    some (.ptload h.quals h.d h.a h.b),
    some (.bias h.quals h.d h.a),
    some (.dtime h.quals h.d)][h.f.toNat]?).join
  | _ => ([some (.mfs h.quals h.d h.b),
    some (.mts h.quals h.a h.b),
    none,
    some (.ctxsv h.quals h.d h.a h.b),
    some (.ctxrs h.quals h.d h.a),
    some (.winrd h.quals h.d h.a),
    some (.winwr h.quals h.a h.b),
    some (.resume h.quals h.a),
    some (.ptload h.quals h.d h.a h.b),
    some (.bias h.quals h.d h.a),
    some (.dtime h.quals h.d)][h.f.toNat]?).join

/-- The instruction a head stands for, by its major opcode and F value (03 R74). -/
noncomputable def instr (h : Head) : Option Instr :=
  match h.op.toNat with
  | 0x00 => h.read00
  | 0x01 => h.read01
  | 0x02 => h.read02
  | 0x03 => h.read03
  | 0x04 => h.read04
  | 0x05 => h.read05
  | 0x06 => h.read06
  | 0x08 => h.read08
  | 0x09 => h.read09
  | 0x0A => h.read0A
  | 0x0B => h.read0B
  | 0x0C => h.read0C
  | 0x0D => h.read0D
  | 0x0E => h.read0E
  | 0x0F => h.read0F
  | 0x10 => h.read10
  | 0x11 => h.read11
  | 0x12 => h.read12
  | 0x13 => h.read13
  | 0x14 => h.read14
  | 0x15 => h.read15
  | 0x16 => h.read16
  | 0x18 => h.read18
  | 0x19 => h.read19
  | 0x1A => h.read1A
  | 0x1B => h.read1B
  | 0x1C => h.read1C
  | 0x1D => h.read1D
  | 0x1E => h.read1E
  | 0x20 => h.read20
  | 0x21 => h.read21
  | 0x22 => h.read22
  | 0x23 => h.read23
  | 0x24 => h.read24
  | 0x25 => h.read25
  | 0x26 => h.read26
  | 0x27 => h.read27
  | 0x28 => h.read28
  | 0x29 => h.read29
  | 0x2A => h.read2A
  | 0x2B => h.read2B
  | 0x2C => h.read2C
  | 0x2D => h.read2D
  | 0x2E => h.read2E
  | 0x2F => h.read2F
  | 0x30 => h.read30
  | 0x31 => h.read31
  | 0x32 => h.read32
  | 0x33 => h.read33
  | 0x34 => h.read34
  | 0x35 => h.read35
  | 0x36 => h.read36
  | 0x37 => h.read37
  | 0x38 => h.read38
  | 0x39 => h.read39
  | 0x3B => h.read3B
  | 0x3C => h.read3C
  | 0x3D => h.read3D
  | _ => none

end Head

/-- The instruction is well formed: its head, with its extension, is one the decoder accepts; an event has no word. -/
def Instr.wf (i : Instr) : Bool :=
  match i.view with
  | some h => h.ok
  | none => true

/-- The major opcode of a word (03 R51). -/
def majorOf (w : Word) : BitVec 6 := w.extractLsb' 25 6

/-- The word is an extension word (03 R61). -/
def isExt (w : Word) : Bool :=
  majorOf w == 0x07 || majorOf w == 0x1F || majorOf w == 0x3A || majorOf w == 0x3E || majorOf w == 0x3F

/-- The extension in a word, by Table 03-2; none where a bit that the table marks zero is set, or the word is no
extension. -/
def extOfWord (w : Word) : Option Ext :=
  match (majorOf w).toNat with
  | 0x3F => some (.imm (w.extractLsb' 0 25))
  | 0x3E => some (.mod ⟨w.getLsbD 24, w.getLsbD 23, w.extractLsb' 17 6, w.getLsbD 16, w.extractLsb' 13 3,
      w.extractLsb' 8 5, w.extractLsb' 5 3, w.extractLsb' 0 5⟩)
  | 0x3A => some (.mem ⟨w.extractLsb' 22 3, w.extractLsb' 20 2, w.extractLsb' 18 2, w.extractLsb' 0 18⟩)
  | 0x1F => if w.extractLsb' 0 17 == 0 then some (.cx (w.extractLsb' 19 6) (w.extractLsb' 17 2)) else none
  | 0x07 => some (.aux (w.extractLsb' 13 12) (w.extractLsb' 0 13))
  | _ => none

/-- The fields of a head word (03 Table 03-1), with the extension given. -/
def headOfWord (w : Word) (e : Ext) : Head :=
  ⟨majorOf w, w.extractLsb' 22 3, w.extractLsb' 16 6, w.extractLsb' 10 6, w.extractLsb' 4 6, w.extractLsb' 0 4, e⟩

/-- Why the decoder refuses: no instruction has the encoding, or the chain breaks R53; with the slot and the word that
offend (03 R78). -/
inductive DecodeFault where
  | illegalEncoding (slot : Nat) (word : Word)
  | illegalChain (slot : Nat) (word : Word)
  deriving DecidableEq, Repr

/-- One instruction of a chain group: its slot, its words, its head and itself. -/
structure Item where
  slot : Nat
  words : Nat
  head : Head
  instr : Instr
  deriving DecidableEq, Repr

/-- One head and its extension word, if one is attached, as an instruction (row 4 of Table 03-15). The word that
offends is the extension where its own bits or its kind are refused, and the head otherwise. -/
noncomputable def decodeItem (slot : Nat) (w : Word) (x : Option Word) : Except DecodeFault Item :=
  let bad := fun (s : Nat) (v : Word) => Except.error (DecodeFault.illegalEncoding s v)
  if isExt w then bad slot w else
  match x with
  | none =>
    let h := headOfWord w .none
    if h.ok then
      match h.instr with
      | some i => .ok ⟨slot, 1, h, i⟩
      | none => bad slot w
    else bad slot w
  | some v =>
    match extOfWord v with
    | none => bad (slot + 1) v
    | some e =>
      let h := headOfWord w e
      if h.ok then
        match h.instr with
        | some i => .ok ⟨slot, 2, h, i⟩
        | none => bad slot w
      else
        match h.form with
        | none => bad slot w
        | some fm => if Head.extOk fm e then bad slot w else bad (slot + 1) v

/-- The words of the chain group that starts at `slot` of a packet, head by head, each with its extension word
(03 R51, R52, R61). A word whose K is 0, and any word of slot 2, ends the group. -/
def groupWords (p : Vector Word 3) (slot : Nat) : List (Nat × Word × Option Word) :=
  let w := fun (j : Nat) => p.toList.getD j 0
  let k := fun (j : Nat) => j < 2 && (w j).getLsbD 31
  let one := fun (j : Nat) => (j, w j, (none : Option Word))
  match slot with
  | 0 =>
    if !k 0 then [one 0]
    else if isExt (w 1) then
      if k 1 then [(0, w 0, some (w 1)), one 2] else [(0, w 0, some (w 1))]
    else if !k 1 then [one 0, one 1]
    else if isExt (w 2) then [one 0, (1, w 1, some (w 2))]
    else [one 0, one 1, one 2]
  | 1 =>
    if !k 1 then [one 1]
    else if isExt (w 2) then [(1, w 1, some (w 2))]
    else [one 1, one 2]
  | _ => [one 2]

/-- The chain rules (03 R53) over a group's items, with the word that first breaks one. -/
def chainFault (p : Vector Word 3) (items : List Item) : Option DecodeFault :=
  let w := fun (j : Nat) => p.toList.getD j 0
  match items with
  | [x, y] => if x.head.pipe == y.head.pipe || x.head.clash y.head then some (.illegalChain y.slot (w y.slot)) else none
  | [x, y, z] =>
    if x.head.pipe == y.head.pipe || x.head.clash y.head then some (.illegalChain y.slot (w y.slot))
    else some (.illegalChain z.slot (w z.slot))
  | _ => none

/-- The instructions of the chain group at `slot`, or the decode fault of row 4 or 5 of Table 03-15. -/
noncomputable def decodeGroup (p : Vector Word 3) (slot : Nat) : Except DecodeFault (List Item) :=
  match (groupWords p slot).mapM (fun t => decodeItem t.1 t.2.1 t.2.2) with
  | .error e => .error e
  | .ok items =>
    match chainFault p items with
    | some e => .error e
    | none => .ok items

/-- The first instruction of a list of words, and the words left: a head with K = 1 takes the extension word after
it (03 R61). -/
noncomputable def decode (ws : List Word) : Except DecodeFault (Instr × List Word) :=
  match ws with
  | [] => .error (.illegalEncoding 0 0)
  | [w] => (decodeItem 0 w none).map fun t => (t.instr, [])
  | w :: x :: r =>
    if w.getLsbD 31 && isExt x then (decodeItem 0 w (some x)).map fun t => (t.instr, r)
    else (decodeItem 0 w none).map fun t => (t.instr, x :: r)

/-- The host's probe: the instruction the decoder reads from a packet whose words, slot 0 in the lowest bits, are
`w`; the bits above `nbits` are zero. -/
noncomputable def decodeTableWord (nbits w : Nat) : Option Instr :=
  let x := w % 2 ^ nbits
  match decode [BitVec.ofNat 32 x, BitVec.ofNat 32 (x / 2 ^ 32), BitVec.ofNat 32 (x / 2 ^ 64)] with
  | .ok t => some t.1
  | .error _ => none

/-- A head word from its fields, with bit 31 given (03 Table 03-1). -/
def Head.word (h : Head) (k : BitVec 1) : Word := k ++ h.op ++ h.g ++ h.d ++ h.a ++ h.b ++ h.f

/-- The word of an extension, with bit 31 zero (03 Table 03-2). -/
def Ext.word (e : Ext) : Option Word :=
  match e with
  | .none => Option.none
  | .imm v => some (0#1 ++ 0x3F#6 ++ v)
  | .mod m => some (0#1 ++ 0x3E#6 ++ BitVec.ofBool m.ta ++ BitVec.ofBool m.tb ++ m.gx ++ BitVec.ofBool m.gn ++ m.pa ++
      m.pax ++ m.pb ++ m.pbx)
  | .mem m => some (0#1 ++ 0x3A#6 ++ m.sc ++ m.ord ++ m.hint ++ m.ofs)
  | .cx c s => some (0#1 ++ 0x1F#6 ++ c ++ s ++ 0#17)
  | .aux r p => some (0#1 ++ 0x07#6 ++ r ++ p)

/-- The words of an instruction that stands alone: K is set exactly where an extension follows, E is clear. An event
has no word. -/
def encode (i : Instr) : List Word :=
  match i.view with
  | none => []
  | some h =>
    match h.ext.word with
    | none => [h.word 0]
    | some x => [h.word 1, x]

/-- The twelve bytes of a packet, slot 0 first, each word little-endian (03 R48, 00 R2). -/
def packetBytes (p : Vector Word 3) : List Byte :=
  p.toList.flatMap fun w => [w.extractLsb' 0 8, w.extractLsb' 8 8, w.extractLsb' 16 8, w.extractLsb' 24 8]

/-- The packet in twelve bytes. -/
def packetOfBytes (bs : List Byte) : Vector Word 3 :=
  let b := fun (j : Nat) => bs.getD j 0
  let w := fun (j : Nat) => b (4 * j + 3) ++ b (4 * j + 2) ++ b (4 * j + 1) ++ b (4 * j)
  #v[w 0, w 1, w 2]

end Sys2Proof
end

