-- ==== Sys2Proof/Machine/Table.lean ====
section
/-!
DEFINITION. Tables, memory cells, bytes and lines: the plain-data operations under everything else.
-/
namespace Sys2Proof.Machine

namespace Table

/-- The record at an index, if listed. -/
def find {α : Type} : Table α → Nat → Option α
  | [], _ => none
  | (j, a) :: r, k => if j = k then some a else find r k

/-- The record at an index, an unlisted one being `d`. -/
def get {α : Type} (t : Table α) (k : Nat) (d : α) : α := (find t k).getD d

/-- Puts a record at an index, keeping the indexes rising. -/
def put {α : Type} : Table α → Nat → α → Table α
  | [], k, a => [(k, a)]
  | (j, b) :: r, k, a => if k < j then (k, a) :: (j, b) :: r else if k = j then (k, a) :: r else (j, b) :: put r k a

/-- Removes an index. -/
def drop {α : Type} (t : Table α) (k : Nat) : Table α := t.filter fun x => x.1 != k

/-- Changes the record at an index, an unlisted one being `d`. -/
def edit {α : Type} (t : Table α) (k : Nat) (d : α) (f : α → α) : Table α := put t k (f (get t k d))

end Table

/-! ### Memory: (address, byte) cells, addresses rising, no zero byte (log 1) -/

namespace Memory

/-- What an unlisted address reads as (log 1). -/
def blank : Byte := 0

/-- The byte at an address. -/
def byte : List Host.Cell → Nat → Byte
  | [], _ => blank
  | (j, b) :: r, a => if j = a then b else byte r a

/-- Writes a byte; a byte equal to what an unlisted address reads as is not listed. -/
def set : List Host.Cell → Nat → Byte → List Host.Cell
  | [], a, b => if b = blank then [] else [(a, b)]
  | (j, c) :: r, a, b =>
    if a < j then (if b = blank then (j, c) :: r else (a, b) :: (j, c) :: r)
    else if a = j then (if b = blank then r else (a, b) :: r)
    else (j, c) :: set r a b

/-- The canonical form: addresses strictly rising, no entry equal to what an unlisted address reads as. -/
def wf : List Host.Cell → Bool
  | [] => true
  | [(_, b)] => b != blank
  | (a, b) :: (a', b') :: r => b != blank && a < a' && wf ((a', b') :: r)

/-- n bytes from an address on. -/
def bytes (m : List Host.Cell) (a n : Nat) : List Byte := (List.range n).map fun i => byte m (a + i)

/-- Writes bytes from an address on. -/
def setBytes : List Host.Cell → Nat → List Byte → List Host.Cell
  | m, _, [] => m
  | m, a, b :: r => setBytes (set m a b) (a + 1) r

end Memory

/-! ### Little-endian bytes (00 R2) -/

/-- The number in little-endian bytes. -/
def natOfBytes : List Byte → Nat
  | [] => 0
  | b :: r => b.toNat + 256 * natOfBytes r

/-- n little-endian bytes of a number. -/
def bytesOfNat : Nat → Nat → List Byte
  | 0, _ => []
  | n + 1, x => BitVec.ofNat 8 x :: bytesOfNat n (x / 256)

/-- Reads n little-endian bytes at an offset of a byte list; bytes past its end are zero. -/
def fieldOf (bs : List Byte) (off n : Nat) : Nat := natOfBytes ((bs.drop off).take n)

/-- Bits hi:lo of a register as a number. -/
def bitsOf (x : DWord) (hi lo : Nat) : Nat := x.toNat / 2 ^ lo % 2 ^ (hi - lo + 1)

/-- Bit i of a number set to a Boolean. -/
def bitNat (b : Bool) (i : Nat) : Nat := if b then 2 ^ i else 0

/-! ### Lines -/

namespace Line

def byte (l : Line) (i : Nat) : Byte := l.extractLsb' (8 * i) 8

def ofBytes (bs : List Byte) : Line := BitVec.ofNat 1024 (natOfBytes bs)

def toBytes (l : Line) : List Byte := bytesOfNat 128 l.toNat

/-- A mask of bytes widened to bits. -/
def wide (m : BitVec 128) : Line :=
  (List.range 128).foldl (fun a i => if m.getLsbD i then a ||| ((0xFF : Line) <<< (8 * i)) else a) 0

/-- The bytes of `new` where the mask is set, and of `old` elsewhere. -/
def merge (old new : Line) (m : BitVec 128) : Line := (old &&& ~~~ wide m) ||| (new &&& wide m)

/-- n little-endian bytes at an offset. -/
def field (l : Line) (off n : Nat) : Nat := (l.toNat / 2 ^ (8 * off)) % 2 ^ (8 * n)

/-- The line with n little-endian bytes at an offset replaced. -/
def setField (l : Line) (off n x : Nat) : Line :=
  let m := BitVec.ofNat 1024 ((2 ^ (8 * n) - 1) * 2 ^ (8 * off))
  (l &&& ~~~ m) ||| (BitVec.ofNat 1024 (x % 2 ^ (8 * n) * 2 ^ (8 * off)))

end Line

/-- The bytes off to off + n - 1 of a line, as a mask. -/
def byteMask (off n : Nat) : BitVec 128 := BitVec.ofNat 128 ((2 ^ n - 1) * 2 ^ off)

/-! ### Masks of lanes -/

/-- Lanes of a mask, ascending. -/
def Mask.list (m : Mask) : List Nat := (List.range 32).filter fun i => m.getLsbD i

/-- How many lanes a mask has. -/
def Mask.count (m : Mask) : Nat := (Mask.list m).length

/-- The mask of one lane. -/
def Mask.one (l : Nat) : Mask := (1 : Mask) <<< l

def Mask.ofList (ls : List Nat) : Mask := ls.foldl (fun m l => m ||| Mask.one l) 0

/-- The mask of the lanes for which f holds. -/
def Mask.of (f : Nat → Bool) : Mask := Mask.ofList ((List.range 32).filter f)

end Sys2Proof.Machine
end

