-- ==== Sys2Proof/Machine/Ops.lean ====
section
/-!
DEFINITION. The named operations over the machine that every meaning shares: groups and their registers, paths and
streams, the retire window, waiting, taking a trap (15 R369 to R372, 08 R215) and cancelling younger work, and how an
instruction is run on its stream (`run`).
-/
namespace Sys2Proof.Machine

/-! ### Causes (15 Table 15-1) -/

def causeTranslation : BitVec 8 := 0x01
def causeProtection : BitVec 8 := 0x02
def causeIllegalEncoding : BitVec 8 := 0x03
def causeIllegalChain : BitVec 8 := 0x04
def causeIllegalRun : BitVec 8 := 0x05
def causeBadLanding : BitVec 8 := 0x06
def causeMisaligned : BitVec 8 := 0x07
def causePlaceOp : BitVec 8 := 0x08
def causePlaceFull : BitVec 8 := 0x09
def causePlaceOffhome : BitVec 8 := 0x0A
def causeEmptySource : BitVec 8 := 0x0B
def causeFpException : BitVec 8 := 0x0C
def causeMember : BitVec 8 := 0x0D
def causeBarrierExcess : BitVec 8 := 0x0E
def causeSlotOwner : BitVec 8 := 0x0F
def causeQueue : BitVec 8 := 0x10
def causeQuota : BitVec 8 := 0x11
def causeTrapInsn : BitVec 8 := 0x12
def causeBreakpoint : BitVec 8 := 0x13
def causePrivilege : BitVec 8 := 0x14
def causePoison : BitVec 8 := 0x15
def causeEmOutsidePath : BitVec 8 := 0x16
def causeMeld : BitVec 8 := 0x17

/-- A trap of the whole stream with nothing in ADDR and OPERAND. -/
def FaultInfo.ofCause (c : BitVec 8) : FaultInfo := ⟨c, 0, 0, none, none, none, .l, none⟩

/-- A trap with an OPERAND. -/
def FaultInfo.withOperand (c : BitVec 8) (x : DWord) : FaultInfo := { FaultInfo.ofCause c with operand := x }

/-- A trap with an ADDR. -/
def FaultInfo.withAddr (c : BitVec 8) (a : DWord) : FaultInfo := { FaultInfo.ofCause c with addr := a }

/-! ### Groups, cores, teams -/

/-- The index of a group in `State.groups`. -/
def groupKey (core grp : Nat) : Nat := core * 256 + grp

/-- A core is a Ranene core (15 R367; log 5). -/
def isRanene (core : Nat) : Bool := Config.clusterCores ≤ core

/-- The die of a core (01 R8: 36 cores to a die). -/
def dieOfCore (core : Nat) : Nat := if isRanene core then core - Config.clusterCores else core / 36

/-- The cluster of a core. -/
def clusterOfCore (core : Nat) : Nat := core / 2

/-- The agent id of a core's cluster or Ranene core (01 R10). -/
def agentOfCore (core : Nat) : Nat := if isRanene core then 72 + (core - Config.clusterCores) else core / 2

/-- The issue partition of a group (14 R355; a Ranene core has one, 15 R367). -/
def partOf (core grp : Nat) : Nat := if isRanene core then 0 else grp % 8

/-- The index of an issue partition in `State.parts`. -/
def partKey (core part : Nat) : Nat := core * 8 + part

/-- Device time in ns (00 R6). -/
def State.ns (s : State) : Nat := s.clk / 2

def State.group (s : State) (core grp : Nat) : Option Group := s.groups.find (groupKey core grp)

def State.setGroup (s : State) (core grp : Nat) (g : Group) : State :=
  { s with groups := s.groups.put (groupKey core grp) g }

def State.part (s : State) (core part : Nat) : Part := s.parts.get (partKey core part) Part.zero

def State.setPart (s : State) (core part : Nat) (p : Part) : State :=
  { s with parts := s.parts.put (partKey core part) p }

def State.ctx (s : State) (vi : Nat) : Context := s.ctxs.get vi Context.zero

def State.setCtx (s : State) (vi : Nat) (c : Context) : State := { s with ctxs := s.ctxs.put vi c }

def State.team (s : State) (g : Group) : Option Team :=
  match g.team with
  | some k => s.teams.find k
  | none => none

/-- The launch a group runs under. -/
def State.launch (s : State) (g : Group) : Option Launch :=
  match s.team g with
  | some t => (s.ctx t.vi).launches.find? fun l => l.id == t.launch
  | none => none

/-- A free value from the machine's counter, and the counter advanced (log 18). -/
def State.fresh (s : State) : DWord × State := (Config.value s.free, { s with free := s.free + 1 })

/-- The feature bits a group runs with: the launch's mask; every bit in privileged mode (03 R76). -/
def State.features (s : State) (core : Nat) (g : Group) : BitVec 128 :=
  if isRanene core then Config.features
  else match s.launch g with
    | some l => l.hdr.features
    | none => 0

/-! ### Scalar and predicate registers (03 Table 03-5: s0 and p0) -/

def Arch.sreg (a : Arch) (n : BitVec 6) : DWord := if n = 0 then 0 else a.s[n.toNat]'(n.isLt)

def Arch.setS (a : Arch) (n : BitVec 6) (x : DWord) : Arch :=
  if n = 0 then a else { a with s := a.s.set n.toNat x n.isLt, sPend := a.sPend.filter fun q => q.1 != n.toNat }

def Arch.preg (a : Arch) (n : BitVec 6) : Mask := if n = 0 then 0xFFFFFFFF else a.p[n.toNat]'(n.isLt)

/-- Writes the lanes of m of a predicate register. -/
def Arch.setP (a : Arch) (n : BitVec 6) (m x : Mask) : Arch :=
  if n = 0 then a else { a with p := a.p.set n.toNat ((a.preg n &&& ~~~ m) ||| (x &&& m)) n.isLt }

/-! ### Vector registers: values, producers and presence (08 R217, R218) -/

def Arch.vreg (a : Arch) (n : Nat) : VReg := a.v[n]?.getD VReg.zero

def Arch.setV (a : Arch) (n : Nat) (r : VReg) : Arch := { a with v := a.v.setIfInBounds n r }

/-- The word of a lane. -/
def VReg.lane (r : VReg) (l : Nat) : Word := r.lanes[l]?.getD 0

/-- Full: no producer is outstanding. -/
def VReg.full (r : VReg) : Bool := r.prods.isEmpty

/-- Lanes that a younger writer has taken over are owed no more. -/
def disown (prods : List (Nat × Mask)) (m : Mask) : List (Nat × Mask) :=
  (prods.map fun p => (p.1, p.2 &&& ~~~ m)).filter fun p => p.2 != 0

/-- The register with the lanes of m replaced. -/
def VReg.mixed (r : VReg) (m : Mask) (w : Vector Word 32) : Vector Word 32 :=
  Vector.ofFn fun i => if m.getLsbD i.val then w[i] else r.lanes[i]

/-- A write of the lanes of m; the register becomes dirty (08 R200). -/
def Arch.writeV (a : Arch) (n : Nat) (m : Mask) (w : Vector Word 32) : Arch :=
  let r := a.vreg n
  { a.setV n { r with lanes := r.mixed m w, prods := disown r.prods m } with dirty := a.dirty ||| ((1 : BitVec 64) <<< n) }

/-- The instruction at `pos` will write the lanes of m: the register is empty until then. -/
def Arch.oweV (a : Arch) (n pos : Nat) (m : Mask) : Arch :=
  let r := a.vreg n
  { a.setV n { r with prods := disown r.prods m ++ [(pos, m)] } with dirty := a.dirty ||| ((1 : BitVec 64) <<< n) }

/-- The lanes the instruction at `pos` still owes. -/
def VReg.owed (r : VReg) (pos : Nat) : Mask :=
  r.prods.foldl (fun m p => if p.1 == pos then m ||| p.2 else m) 0

/-- The producer at `pos` delivers the lanes of m, as far as it still owes them. -/
def Arch.supplyV (a : Arch) (n pos : Nat) (m : Mask) (w : Vector Word 32) : Arch :=
  let r := a.vreg n
  let x := r.owed pos &&& m
  if x == 0 then a
  else
    let ps := (r.prods.map fun p => if p.1 == pos then (p.1, p.2 &&& ~~~ m) else p).filter fun p => p.2 != 0
    a.setV n { r with lanes := r.mixed x w, prods := ps }

/-- The LDU at `pos` delivers its s register. -/
def Arch.supplyS (a : Arch) (n pos : Nat) (x : DWord) : Arch :=
  if a.sPend.contains (n, pos) then
    { a with s := a.s.setIfInBounds n x, sPend := a.sPend.filter fun q => q != (n, pos) }
  else a

/-- Changes the registers of a group and of every younger instruction's snapshot (08 R209: readers in program order
see a value of an older instruction when it exists). -/
def Group.mapYounger (g : Group) (pos : Nat) (f : Arch → Arch) : Group :=
  { g with
    arch := f g.arch
    rob := g.rob.map fun e =>
      if pos < e.pos then { e with before := f e.before, after := f e.after, old := e.old.map f }
      else if pos == e.pos then { e with after := f e.after } else e
    lates := g.lates.map fun l => if pos < l.pos then { l with regs := f l.regs } else l }

/-- Changes the registers of a group in every snapshot. -/
def Group.mapAll (g : Group) (f : Arch → Arch) : Group :=
  { g with arch := f g.arch
           rob := g.rob.map fun e => { e with before := f e.before, after := f e.after, old := e.old.map f }
           lates := g.lates.map fun l => { l with regs := f l.regs } }

/-! ### Paths and streams (13 R311, R314) -/

def Arch.path (a : Arch) (i : Nat) : Path := a.paths[i]?.getD Path.none

def Arch.setPath (a : Arch) (i : Nat) (p : Path) : Arch := { a with paths := a.paths.setIfInBounds i p }

def Arch.editPath (a : Arch) (i : Nat) (f : Path → Path) : Arch := a.setPath i (f (a.path i))

/-- Changes every listed entry. -/
def Arch.editPaths (a : Arch) (is : List Nat) (f : Path → Path) : Arch := is.foldl (fun a i => a.editPath i f) a

/-- The valid entries. -/
def Arch.valid (a : Arch) : List Nat := (List.range 32).filter fun i => (a.path i).valid

/-- The lowest invalid index. -/
def Arch.freeEntry (a : Arch) : Option Nat := (List.range 32).find? fun i => !(a.path i).valid

/-- The entries of the stream an entry belongs to, side 0 first (13 R314). -/
def Arch.stream (a : Arch) (i : Nat) : List Nat :=
  match (a.path i).link with
  | some j => if (a.path i).side then [j, i] else [i, j]
  | none => [i]

/-- The union of an entry field over a stream. -/
def Arch.emOf (a : Arch) (is : List Nat) : Mask := is.foldl (fun m i => m ||| (a.path i).em) 0
def Arch.maskOf (a : Arch) (is : List Nat) : Mask := is.foldl (fun m i => m ||| (a.path i).mask) 0

/-- Places a new entry; where the core holds eight already, the least recently scheduled one that is not in the new
entry's consist is spilled (13 R312). -/
def Arch.insertPath (a : Arch) (j : Nat) (p : Path) : Arch :=
  let a := a.setPath j { p with away := false }
  let held := a.valid.filter fun i => !(a.path i).away
  if held.length ≤ 8 then a
  else
    let can := held.filter fun i => i != j && some i != p.link
    match can.foldl (fun (b : Option Nat) i => match b with
        | some k => if (a.path i).used < (a.path k).used then some i else b
        | none => some i) none with
    | some i => a.editPath i fun p => { p with away := true }
    | none => a

/-- Frees an entry; a linked partner goes on as a consist of one (13 R335, R339). -/
def Arch.freePath (a : Arch) (i : Nat) : Arch :=
  let a := match (a.path i).link with
    | some j => a.editPath j fun p => { p with link := none }
    | none => a
  a.setPath i Path.none

/-- Frees every listed entry that has no lane left. -/
def Arch.dropEmpty (a : Arch) (is : List Nat) : Arch :=
  is.foldl (fun a i => if (a.path i).valid && (a.path i).mask == 0 then a.freePath i else a) a

/-- The renaming of a vector field in an entry (13 R328). -/
def Path.rename (p : Path) (n : BitVec 6) : Nat :=
  if p.meld && 48 ≤ n.toNat then ((p.map[n.toNat - 48]?).getD 0).toNat else n.toNat

/-! ### The stream that issues -/

/-- What an instruction sees: its stream, its group, and the registers its sources are read from (03 R52). -/
structure Ctx where
  iss : Issue
  g : Group
  src : Arch
  ents : List Nat
  deriving DecidableEq, Repr

/-- Why an instruction does not take its effect now. -/
inductive Stop where
  | wait (w : Wait)
  | trap (f : FaultInfo)
  deriving DecidableEq, Repr

/-- The position the instruction takes (08 R211). -/
def Ctx.pos (c : Ctx) : Nat := c.g.seq

/-- %em of the stream. -/
def Ctx.em (c : Ctx) : Mask := c.src.emOf c.ents

def Ctx.meld (c : Ctx) : Bool := (c.src.path c.iss.ent).meld

/-- A source scalar register; it waits for LDU data (07 R180). -/
def Ctx.s (c : Ctx) (n : BitVec 6) : Except Stop DWord :=
  if n != 0 && c.src.sPend.any (fun q => q.1 == n.toNat) then .error (.wait (.sFull n.toNat)) else .ok (c.src.sreg n)

/-- The effective guard (03 R67). -/
def Quals.idx (q : Quals) : BitVec 6 :=
  match q.ext with
  | .mod m => if m.gx ≠ 0 then m.gx else q.g.setWidth 6
  | _ => q.g.setWidth 6

def Quals.neg (q : Quals) : Bool :=
  match q.ext with
  | .mod m => m.gn
  | _ => false

/-- The marks and permutations of an instruction; none without an EXT.MOD. -/
def Quals.modx (q : Quals) : ModX :=
  match q.ext with
  | .mod m => m
  | _ => ⟨false, false, 0, false, 0, 0, 0, 0⟩

/-- The immediate of an EXT.IMM. -/
def Quals.imm? (q : Quals) : Option (BitVec 25) :=
  match q.ext with
  | .imm v => some v
  | _ => none

/-- The EXT.MEM of an instruction; zero without one (03 R59). -/
def Quals.memx (q : Quals) : MemX :=
  match q.ext with
  | .mem m => m
  | _ => ⟨0, 0, 0, 0⟩

def Ctx.guard (c : Ctx) (q : Quals) : Mask :=
  let x := c.src.preg (Quals.idx q)
  if Quals.neg q then ~~~ x else x

/-- The active lanes: %em and the guard (03 R67). -/
def Ctx.active (c : Ctx) (q : Quals) : Mask := c.em &&& c.guard q

/-- Guard-only qualifiers of a head with a mandatory extension. -/
def quals (g : BitVec 3) : Quals := ⟨g, .none⟩

/-! ### Moving a stream on (03 R51, R55) -/

/-- One entry, still at the instruction, moves past `words` words; past slot 2 it goes to the next packet, counting it,
or to a new run where the packet ends the run. -/
def Path.past (p : Path) (words : Nat) (cut : Bool) : Path :=
  let p := { p with spil := .none, wait := .none }
  if p.slot + words < 3 then { p with slot := p.slot + words }
  else if cut then { p with pn := p.pn + 1, slot := 0, run := 0, skip := .none }
  else { p with pn := p.pn + 1, slot := 0, run := if p.run == 0 then 0 else p.run + 1, skip := .none }

/-- The entry is at the instruction that issues. -/
def Issue.atMe (i : Issue) (p : Path) : Bool := p.valid && p.pn == i.pn && p.slot == i.slot

/-- The entries of the stream that are at the instruction move past it. -/
def Ctx.advanceArch (c : Ctx) (a : Arch) : Arch :=
  a.editPaths c.ents fun p => if c.iss.atMe p then p.past c.iss.words c.iss.cut else p

/-- The stream leaves the issue slot: its run is over. -/
def State.stopRun (s : State) (core grp : Nat) (ents : List Nat) : State :=
  { s with running := s.running.filter fun r => !(r.1 == core && r.2.1 == grp && ents.contains r.2.2) }

/-- Streams of a group whose run has ended leave the issue slot: their entry is not valid, not READY, or between runs. -/
def State.sweepRuns (s : State) (core grp : Nat) : State :=
  match s.group core grp with
  | none => { s with running := s.running.filter fun r => !(r.1 == core && r.2.1 == grp) }
  | some g => { s with running := s.running.filter fun r =>
      !(r.1 == core && r.2.1 == grp) ||
      ((g.arch.path r.2.2).valid && (g.arch.path r.2.2).state == .ready && (g.arch.path r.2.2).run != 0) }

/-- The instruction has taken its effect: its position is used, its stream moves on. -/
def Ctx.finish (c : Ctx) (s : State) : State :=
  let s := match s.group c.iss.core c.iss.grp with
    | some g =>
      let a := c.advanceArch g.arch
      let rob := g.rob.map fun (e : Entry) => if e.pos == c.g.seq then { e with after := a } else e
      s.setGroup c.iss.core c.iss.grp { g with arch := a, rob := rob, seq := c.g.seq + 1 }
    | none => s
  { s.sweepRuns c.iss.core c.iss.grp with iss := none }

/-- The stream waits at the instruction (a blocking wait, 13 Table 13-1); one that waits again for the same thing keeps its
place in line. For the later instruction of a chain group the
issuing stream stays named, and the step then makes the whole group wait (`Fetch`). -/
def Ctx.block (c : Ctx) (s : State) (w : Wait) : State :=
  let late := c.iss.shadow.isSome
  let a := c.g.arch.editPaths c.ents fun p =>
    if late || c.iss.atMe p then
      { p with state := .blocked, wait := some w, lost := 0, since := if p.wait == some w then p.since else s.clk }
    else p
  { (s.setGroup c.iss.core c.iss.grp { c.g with arch := a }).stopRun c.iss.core c.iss.grp c.ents with
    iss := if late then s.iss else none }

/-! ### Taking an exception (15 R369 to R374) -/

/-- SEL of a record and of %wsel, without HOLD (15 Table 15-5). -/
def selWord (core grp ent : Nat) : DWord := BitVec.ofNat 64 (ent * 2 ^ 16 + core * 2 ^ 8 + grp)

def Place.code : Place → Nat
  | .l => 0
  | .k => 1
  | .h => 2
  | .m => 3

/-- The linear team number of a group (14 R344). -/
def State.teamNumber (s : State) (g : Group) : Nat := ((s.team g).map (·.t)).getD 0

/-- The 64-byte fault record (15 Table 15-2), byte 0 in the lowest bits. -/
def faultRecord (s : State) (core grp : Nat) (g : Group) (f : FaultInfo) (sided : Nat) (p : Path) (partly restored : Bool)
    (pos : Nat) (pn : DWord) (slot : Nat) : BitVec 512 :=
  let flags := bitNat p.meld 0 + bitNat p.side 1 + bitNat partly 2 + bitNat restored 3
  BitVec.ofNat 64 s.ns ++ BitVec.ofNat 32 (s.teamNumber g) ++ (f.mask.getD p.em) ++ f.operand ++ f.addr ++
    BitVec.ofNat 64 (if restored then 0 else pos) ++ pn ++ selWord core grp sided ++ (0 : BitVec 16) ++
    BitVec.ofNat 8 g.vi ++ BitVec.ofNat 8 (f.wslot.getD slot) ++ BitVec.ofNat 8 flags ++
    BitVec.ofNat 8 f.place.code ++ (0 : BitVec 8) ++ f.cause

/-- A record goes to the fault queue of the group's die (15 R374), or stops a privileged group (15 R368): `halts`
then holds it and the group that waits to be written to the halt registers (18 R454). -/
def State.putRecord (s : State) (core grp : Nat) (rec : BitVec 512) : State :=
  let d := dieOfCore core
  if isRanene core then
    let s := match s.group core grp with
      | some g => s.setGroup core grp { g with stopped := true }
      | none => s
    { s with
      running := s.running.filter fun r => !(r.1 == core && r.2.1 == grp)
      mgmt := { s.mgmt with haltWait := s.mgmt.haltWait ++ [(d, grp, rec)], merr := true } }
  else { s with mgmt := { s.mgmt with fqWait := s.mgmt.fqWait.put d (s.mgmt.fqWait.get d [] ++ [rec]) } }

/-- A trace record of an event on an entry waits to be written, where the interface traces its type (19 R465). -/
def State.trace (s : State) (core grp ent typ data : Nat) (pc : DWord) : State :=
  match s.group core grp with
  | none => s
  | some g =>
    let x := s.ctx g.vi
    if isRanene core || !x.dbgctl.getLsbD (7 + typ) || x.trcbase.toNat % 32 == 0 then s
    else
      let p := g.arch.path ent
      let mask := match p.link with
        | some j => p.mask ||| (g.arch.path j).mask
        | none => p.mask
      let flags := bitNat p.meld 0 + bitNat (p.meld && p.side) 1 + bitNat p.link.isSome 2
      let r : BitVec 256 := BitVec.ofNat 64 s.ns ++ pc ++ BitVec.ofNat 32 data ++ (selWord core grp ent).setWidth 32 ++
        mask ++ (0 : BitVec 16) ++ BitVec.ofNat 8 flags ++ BitVec.ofNat 8 typ
      s.setCtx g.vi { x with trace := x.trace ++ [(core, r)] }

/-- A whole stream goes to the siding (15 R370 "Path", 13 R336); half a consist leaves its partner (R335). -/
def Arch.sideAll (a : Arch) (ents : List Nat) (f : FaultInfo) : Arch :=
  let a := match ents with
    | [i] => match (a.path i).link with
      | some j => (a.editPath j fun p => { p with link := none }).editPath i fun p => { p with link := none }
      | none => a
    | _ => a
  a.editPaths ents fun p =>
    { p with state := .siding, run := 0, wait := none, cause := f.cause, spil := f.spil }

/-- Lanes of an entry leave as one new entry in the siding, at the given packet and slot (15 R370 "Lanes"), also lanes
that a branch of the same chain group has just moved to a new path. The new entry has the lowest free index; where there
is none, all lanes leave and the entry itself is sided. -/
def Arch.sideLanes (a : Arch) (i : Nat) (m em : Mask) (pn : DWord) (slot : Nat) (f : FaultInfo) : Arch × Nat :=
  let p := a.path i
  let q : Path := { p with state := .siding, run := 0, wait := none, cause := f.cause, spil := f.spil, link := none,
                           mask := m, em := em, pn := pn, slot := slot, skip := none }
  match a.freeEntry with
  | some j =>
    let vs := a.valid
    let a := a.editPaths vs fun p => { p with mask := p.mask &&& ~~~ m, em := p.em &&& ~~~ m }
    ((a.insertPath j q).dropEmpty vs, j)
  | none =>
    let a := match p.link with
      | some j => a.editPath j fun p => { p with link := none }
      | none => a
    (a.setPath i q, i)

/-- Every older instruction has retired, its release is applied, its stores have performed (08 R224). -/
def Group.idle (g : Group) : Bool := g.rob.isEmpty

/-- Every older instruction has retired; releases may be on their way (08 R213). -/
def Group.settled (g : Group) : Bool := g.rob.all fun e => e.stage == .released

/-- A trap of the instruction at `pos`, whose lanes have left to entry `sided` in `g.arch`: its record is written at
once where nothing older is unretired, and in order otherwise (08 R215, R216). -/
def State.raise (s : State) (core grp : Nat) (g : Group) (f : FaultInfo) (sided : Nat) (partly : Bool) (pos : Nat)
    (pn : DWord) (slot : Nat) : State :=
  let p := g.arch.path sided
  let s := (s.setGroup core grp g).trace core grp sided 4 f.cause.toNat pn
  if g.settled then (s.setGroup core grp g).putRecord core grp (faultRecord s core grp g f sided p partly false pos pn slot)
  else
    let e : Entry := { pos := pos, ent := sided, pn := pn, slot := slot, place := f.place, op := .trap sided partly pn slot,
                       stage := .reported, flags := 0, fault := [(sided, { f with mask := some (f.mask.getD p.em) })],
                       before := g.arch, after := g.arch, old := none }
    s.setGroup core grp { g with rob := g.rob ++ [e] }

/-- The whole stream traps at its instruction, where it resumes. -/
def Ctx.trapPath (c : Ctx) (s : State) (f : FaultInfo) : State :=
  let a := (c.g.arch.editPaths c.ents fun p => { p with pn := c.iss.pn, slot := c.iss.slot }).sideAll c.ents f
  let g := { c.g with arch := a, seq := c.g.seq + 1 }
  let first := c.ents.headD 0
  let s := s.raise c.iss.core c.iss.grp g f first false c.pos c.iss.pn c.iss.slot
  { s.sweepRuns c.iss.core c.iss.grp with iss := none }

/-- Lanes of an entry of the stream leave at the instruction, which goes on for the others (15 R370, 13 R335). The
context that comes back has the changed group. The record is PARTIAL where the stream keeps other lanes (15 R371). -/
def Ctx.trapLanes (c : Ctx) (s : State) (ent : Nat) (m em : Mask) (f : FaultInfo) : State × Ctx :=
  let (a, j) := c.g.arch.sideLanes ent m em c.iss.pn c.iss.slot f
  let others := c.g.arch.maskOf c.ents &&& ~~~ m != 0
  let s := s.raise c.iss.core c.iss.grp { c.g with arch := a } { f with mask := some (f.mask.getD m) } j others c.pos
    c.iss.pn c.iss.slot
  match s.group c.iss.core c.iss.grp with
  | some g => (s, { c with g := g })
  | none => (s, c)

/-- One half of a consist leaves at the instruction, which goes on for the other half (13 R335). -/
def Ctx.trapHalf (c : Ctx) (s : State) (ent : Nat) (f : FaultInfo) : State × Ctx :=
  let a := (c.g.arch.editPath ent fun p => { p with pn := c.iss.pn, slot := c.iss.slot }).sideAll [ent] f
  let s := s.raise c.iss.core c.iss.grp { c.g with arch := a } f ent true c.pos c.iss.pn c.iss.slot
  match s.group c.iss.core c.iss.grp with
  | some g => (s, { c with g := g, ents := c.ents.filter (· != ent) })
  | none => (s, c)

/-- cancel-from: every instruction at or after a position is undone; the group's registers and paths are `a`
(08 R215). -/
def Group.cancel (g : Group) (pos : Nat) (a : Arch) : Group :=
  { g with arch := a, rob := g.rob.filter fun e => e.pos < pos || e.stage == .released,
           lates := g.lates.filter fun l => l.pos ≤ pos, acq := g.acq.filter fun q => q < pos }

/-- Slots of cancelled LDOs are as before them (08 R215, 06 R166): an LDO keeps the slot's tag in its half's `a`. -/
def Part.undoLdo (p : Part) (es : List Entry) : Part :=
  es.foldl (fun p e => match e.op with
    | .mem m (h :: _) _ _ =>
      if m.kind == .ldo then
        { p with slots := p.slots.edit h.d Slot.zero fun o => { o with present := true, tag := BitVec.ofNat 2 h.a } }
      else p
    | _ => p) p

/-- What a partition holds of instructions of a group at or after a position is discarded unperformed: matrix passes,
and LDOs in progress among the entries `es` (08 R215, 11 R285). -/
def State.undoPart (s : State) (core grp pos : Nat) (es : List Entry) : State :=
  let k := partOf core grp
  let p := s.part core k
  let es := es.filter fun e => pos ≤ e.pos && e.stage == .posted && (match e.op with
    | .mem m .. => m.kind == .ldo
    | _ => false)
  if es.isEmpty && !(p.mtx.any fun x => x.grp == grp && pos ≤ x.pos) then s
  else s.setPart core k (({ p with mtx := p.mtx.filter fun x => !(x.grp == grp && pos ≤ x.pos) } : Part).undoLdo es)

/-! ### Running an instruction -/

/-- The trap of a privileged form outside privileged mode, of a form whose feature bit is clear (03 R75, R76,
Table 03-15): the offending word is the head. -/
def decodeTrap (s : State) (i : Issue) (g : Group) (feat : Option Nat) (priv : Bool) : Option FaultInfo :=
  let bad := match feat with
    | some b => !(s.features i.core g).getLsbD b
    | none => false
  if bad then some (FaultInfo.withOperand causeIllegalEncoding (i.word.setWidth 64))
  else if priv && !isRanene i.core then some (FaultInfo.withOperand causePrivilege (i.word.setWidth 64))
  else none

/-- The context of the issuing stream. -/
def State.issueCtx (s : State) : Option Ctx :=
  match s.iss with
  | none => none
  | some i =>
    match s.group i.core i.grp with
    | none => none
    | some g =>
      let src := i.shadow.getD g.arch
      some { iss := i, g := g, src := src, ents := src.stream i.ent }

/-- Runs an instruction on the stream that issues: the decode checks, then the body, whose state is the next state. -/
def runWith (feat : Option Nat) (priv : Bool) (s : State) (body : Ctx → State → Except Stop State) :
    Host.Outcome State Fault Refusal :=
  match s.issueCtx with
  | none => .fault .notIssuing
  | some c =>
    match decodeTrap s c.iss c.g feat priv with
    | some f => .next (c.trapPath s f)
    | none =>
      match body c s with
      | .ok t => .next t
      | .error (.wait w) => .next (c.block s w)
      | .error (.trap f) => .next (c.trapPath s f)

/-- An unprivileged instruction of every launch. -/
def run (s : State) (body : Ctx → State → Except Stop State) : Host.Outcome State Fault Refusal :=
  runWith none false s body

/-- The common case: the body changes the machine, and then the stream moves on. -/
def runThen (s : State) (body : Ctx → State → Except Stop State) : Host.Outcome State Fault Refusal :=
  run s fun c s => (body c s).map c.finish

/-- As `runThen`, with the decode checks of a privileged form. -/
def runPriv (s : State) (body : Ctx → State → Except Stop State) : Host.Outcome State Fault Refusal :=
  runWith none true s fun c s => (body c s).map c.finish

/-- An instruction that acts once for the group if any lane is active, and does nothing otherwise (09 R228). -/
def once (q : Quals) (body : Ctx → State → Except Stop State) (c : Ctx) (s : State) : Except Stop State :=
  if c.active q == 0 then .ok s else body c s

/-- The group of the issuing stream is replaced. -/
def Ctx.put (c : Ctx) (s : State) (g : Group) : State := s.setGroup c.iss.core c.iss.grp g

/-- The registers of the group are changed. -/
def Ctx.putArch (c : Ctx) (s : State) (a : Arch) : State := c.put s { c.g with arch := a }

/-- Writes a scalar register of the group. -/
def Ctx.writeS (c : Ctx) (s : State) (n : BitVec 6) (x : DWord) : State := c.putArch s (c.g.arch.setS n x)

/-- Waits until every older instruction of the group has retired (08 R214; log 23). -/
def Ctx.needIdle (c : Ctx) : Except Stop Unit := if c.g.idle then .ok () else .error (.wait .drained)

/-- Traps unless the condition holds. -/
def require (b : Bool) (f : FaultInfo) : Except Stop Unit := if b then .ok () else .error (.trap f)

def privMode (c : Ctx) : Bool := isRanene c.iss.core

end Sys2Proof.Machine
end

