-- ==== Sys2Proof/Machine/Flags.lean ====
section
/-!
DEFINITION. Rounding control, the exception flags and their traps (02 R39 to R47), and what each lane-wise operation
computes from a lane's words (09 Table 09-1, 09-4; 10 R257 to R271).
-/
namespace Sys2Proof.Machine

/-! ### Flags -/

/-- Flags as bits of %fsr and %fcr: NX, NV, DZ, UF, OF at 4 to 8 (R39). -/
def flagBits (f : Flags) : DWord := (f.setWidth 64) <<< (4 : Nat)

/-- Flags merge into %fsr (R45). -/
def Arch.addFlags (a : Arch) (f : Flags) : Arch := { a with fsr := a.fsr ||| flagBits f }

/-- The trap enables of %fcr (R40). -/
def enables (fcr : DWord) : Flags := fcr.extractLsb' 4 5

/-- The trap of the lanes that raise an enabled exception, if there is one (R46, 15 R371, R372). -/
def fpTrap (fcr : DWord) (place : Place) (raised : List (Nat × Flags)) : Option FaultInfo :=
  let bad := raised.filter fun x => x.2 &&& enables fcr != 0
  if bad.isEmpty then none
  else
    let all := bad.foldl (fun f x => f ||| (x.2 &&& enables fcr)) 0
    some { FaultInfo.withOperand causeFpException (flagBits all) with
           mask := some (Mask.ofList (bad.map (·.1))), place := place }

/-- The flags of all active lanes together. -/
def allFlags (raised : List (Nat × Flags)) : Flags := raised.foldl (fun f x => f ||| x.2) 0

/-! ### Integer operations -/

/-- Table 09-1 for a width w. -/
def aluOp {w : Nat} (o : AluOp) (a b : BitVec w) : BitVec w :=
  match o with
  | .add => a + b
  | .sub => a - b
  | .mul => a * b
  | .mulhi => BitVec.ofInt w (a.toInt * b.toInt / 2 ^ w)
  | .mulhu => BitVec.ofNat w (a.toNat * b.toNat / 2 ^ w)
  | .and => a &&& b
  | .or => a ||| b
  | .xor => a ^^^ b
  | .andn => a &&& ~~~ b
  | .shl => if w ≤ b.toNat then 0 else a <<< b.toNat
  | .shr => if w ≤ b.toNat then 0 else a >>> b.toNat
  | .sar => if w ≤ b.toNat then (if a.msb then BitVec.allOnes w else 0) else a.sshiftRight b.toNat
  | .min => if a.slt b then a else b
  | .max => if a.slt b then b else a
  | .minu => if a.ult b then a else b
  | .maxu => if a.ult b then b else a

/-- Leading zero bits; the width for zero (R235, R238). -/
def clz {w : Nat} (a : BitVec w) : Nat := if a = 0 then w else w - 1 - Nat.log2 a.toNat

def popc {w : Nat} (a : BitVec w) : Nat := ((List.range w).filter fun i => a.getLsbD i).length

def brev {w : Nat} (a : BitVec w) : BitVec w := a.reverse

/-- Byte k of a word. -/
def byteAt (a : Word) (k : Nat) : Byte := a.extractLsb' (8 * k) 8

def halfAt (a : Word) (k : Nat) : BitVec 16 := a.extractLsb' (16 * k) 16

/-- Signed or unsigned byte products summed onto d (Table 09-4). -/
def dot4 (isSigned : Bool) (a b d : Word) : Word :=
  let v := fun (x : Byte) => if isSigned then x.toInt else Int.ofNat x.toNat
  BitVec.ofInt 32 ((List.range 4).foldl (fun t k => t + v (byteAt a k) * v (byteAt b k)) (Int.ofNat d.toNat))

/-- BYSEL: bytes chosen from d and a by the selector bytes of b. -/
def bysel (a b d : Word) : Word :=
  let e : BitVec 64 := d ++ a
  let pick := fun (k : Nat) =>
    let s := byteAt b k
    if s.getLsbD 4 then (0 : Byte)
    else
      let x := e.extractLsb' (8 * (s.toNat % 8)) 8
      if s.getLsbD 3 then ~~~ x else x
  pick 3 ++ pick 2 ++ pick 1 ++ pick 0

/-- VALU2 of a lane (Table 09-4). -/
def v2Op (o : V2Op) (a b d : Word) : Word :=
  let p := b.toNat % 32
  let n := b.toNat / 256 % 32
  match o with
  | .imad => a * b + d
  | .clz => BitVec.ofNat 32 (clz a)
  | .popc => BitVec.ofNat 32 (popc a)
  | .brev => brev a
  | .bfe => (a >>> p) &&& BitVec.ofNat 32 (2 ^ n - 1)
  | .bfi =>
    let m := BitVec.ofNat 32 ((2 ^ n - 1) * 2 ^ p)
    (d &&& ~~~ m) ||| ((a <<< p) &&& m)
  | .bysel => bysel a b d
  | .i8dot4 => dot4 true a b d
  | .n8dot4 => dot4 false a b d

/-! ### Floating-point operations -/

/-- A 32-bit result with flags. -/
def word32 (x : Nat × Flags) : Word × Flags := (BitVec.ofNat 32 x.1, x.2)

def f32Op (o : F32Op) (r : Rnd) (a b : Word) : Word × Flags :=
  let f := Fmt.f32
  let x := a.toNat
  let y := b.toNat
  match o with
  | .add => word32 (f.addF r x y)
  | .sub => word32 (f.roundF r (Fp.add r (f.value x) (f.value y).neg))
  | .mul => word32 (f.mulF r x y)
  | .min => word32 (f.minmax false x y, 0)
  | .max => word32 (f.minmax true x y, 0)
  | .minn => word32 (f.minmaxN false x y, 0)
  | .maxn => word32 (f.minmaxN true x y, 0)
  | .abs => (a &&& 0x7FFFFFFF, 0)
  | .neg => (a ^^^ 0x80000000, 0)
  | .cps => ((a &&& 0x7FFFFFFF) ||| (b &&& 0x80000000), 0)
  | .flr => word32 (integralF .rd x, 0)
  | .cel => word32 (integralF .ru x, 0)
  | .trc => word32 (integralF .rz x, 0)
  | .rni => word32 (integralF .rne x, 0)

/-- Two 16-bit results as one word, flags together. -/
def word2 (lo hi : Nat × Flags) : Word × Flags :=
  (BitVec.ofNat 16 hi.1 ++ BitVec.ofNat 16 lo.1, lo.2 ||| hi.2)

/-- FPK (R260); `r k` is the rounding of slot k. -/
def pkOp (half : Bool) (o : PkOp) (r : Nat → Rnd) (a b : Word) : Word × Flags :=
  let f := if half then Fmt.f16 else Fmt.bf16
  let one := fun (k : Nat) =>
    let x := (halfAt a k).toNat
    let y := (halfAt b k).toNat
    match o with
    | .add => f.addF (r k) x y
    | .mul => f.mulF (r k) x y
    | .min => (f.minmax false x y, (0 : Flags))
    | .max => (f.minmax true x y, (0 : Flags))
  word2 (one 0) (one 1)

/-- The fused forms (Table 10-5). -/
def fmaOp (o : FmaOp) (r : Nat → Rnd) (a b c d : Word) : Word × Flags :=
  let v := fun (x : Word) => Fmt.f32.value x.toNat
  let two := fun (f : Fmt) =>
    let one := fun (k : Nat) => f.fmaF (r k) (f.value (halfAt a k).toNat) (f.value (halfAt b k).toNat) (f.value (halfAt d k).toNat)
    word2 (one 0) (one 1)
  match o with
  | .fma => word32 (Fmt.f32.fmaF (r 0) (v a) (v b) (v d))
  | .fms => word32 (Fmt.f32.fmaF (r 0) (v a) (v b) (v d).neg)
  | .fnma => word32 (Fmt.f32.fmaF (r 0) (v a).neg (v b) (v d))
  | .fma3 => word32 (Fmt.f32.fmaF (r 0) (v a) (v b) (v c))
  | .hfma2 => two .f16
  | .bfma2 => two .bf16

/-- A word with slot k of the given width replaced. -/
def slotPut (d : Word) (bits k x : Nat) : Word :=
  let m := BitVec.ofNat 32 ((2 ^ bits - 1) * 2 ^ (bits * k))
  (d &&& ~~~ m) ||| BitVec.ofNat 32 (x % 2 ^ bits * 2 ^ (bits * k))

/-- CVT and CBK (R268, R270). -/
def cvtOp (o : CvtOp) (r : Rnd) (sat : Bool) (k : Nat) (a d : Word) : Word × Flags :=
  let narrow := fun (f : Fmt) (bits : Nat) =>
    let x := f.round r sat (Fmt.f32.value a.toNat)
    (slotPut d bits k x.1, x.2)
  let widen := fun (f : Fmt) (bits : Nat) =>
    word32 (Fmt.f32.round .rne false (f.value (a.toNat / 2 ^ (bits * k) % 2 ^ bits)))
  match o with
  | .toF16 => narrow .f16 16
  | .toBf16 => narrow .bf16 16
  | .toF8e4 => narrow .f8e4 8
  | .toF8e5 => narrow .f8e5 8
  | .fromF16 => widen .f16 16
  | .fromBf16 => widen .bf16 16
  | .fromF8e4 => widen .f8e4 8
  | .fromF8e5 => widen .f8e5 8
  | .toI32 => word32 (toInt32 r true a.toNat)
  | .toN32 => word32 (toInt32 r false a.toNat)
  | .fromI32 => word32 (ofInt r a.toInt)
  | .fromN32 => word32 (ofInt r (Int.ofNat a.toNat))
  | .cbk => word32 (cbkF (a.toNat / 2 ^ (4 * k) % 16), 0)

/-- PACK (Table 10-14). -/
def packOp (o : PackOp) (a b d : Word) : Word :=
  match o with
  | .pk2h => halfAt b 0 ++ halfAt a 0
  | .pkhi => halfAt b 1 ++ halfAt a 1
  | .pkb01 => halfAt d 1 ++ byteAt b 0 ++ byteAt a 0
  | .pkb23 => byteAt b 0 ++ byteAt a 0 ++ halfAt d 0
  | .upklo => (halfAt a 0).setWidth 32
  | .upkhi => (halfAt a 1).setWidth 32

/-- The FCMP conditions (Table 10-7). -/
inductive FCond where
  | eq | ne | lt | le | gt | ge | uno | ord
  deriving DecidableEq, Repr

def fcmpOp (o : FCond) (a b : Word) : Bool × Flags :=
  let x := Fmt.f32.value a.toNat
  let y := Fmt.f32.value b.toNat
  let uno := x.isNan || y.isNan
  let c := Fp.cmp x y
  let nv : Flags := if uno then flagNV else 0
  match o with
  | .eq => (!uno && c == .eq, 0)
  | .ne => (uno || c != .eq, 0)
  | .lt => (!uno && c == .lt, nv)
  | .le => (!uno && c != .gt, nv)
  | .gt => (!uno && c == .gt, nv)
  | .ge => (!uno && c != .lt, nv)
  | .uno => (uno, 0)
  | .ord => (!uno, 0)

/-! ### One lane of a lane-wise operation -/

/-- The result word and the flags of lane l: the sources a, b, c, the old destination d, the selector bit of SEL, and
%fcr and %dph as the instruction carries them (R35, R47, R254). -/
def LaneOp.eval (o : LaneOp) (fcr : DWord) (dph : BitVec 16) (l : Nat) (a b c d : Word) (pick : Bool) : Word × Flags :=
  let rm : BitVec 3 := fcr.extractLsb' 0 3
  let r := fun (k : Nat) => Rnd.of rm (ditherPos l k) dph
  match o with
  | .alu o => (aluOp o a b, 0)
  | .v2 o => (v2Op o a b d, 0)
  | .f32 o => f32Op o (r 0) a b
  | .pk h o => pkOp h o r a b
  | .fma o => fmaOp o r a b c d
  | .spc o => word32 (spcF o (r 0) a.toNat b.toNat)
  | .cvt o m sat k => cvtOp o (Rnd.of (if m == 5 then rm else m) (ditherPos l k) dph) sat k a d
  | .pack o => (packOp o a b d, 0)
  | .mov => (a, 0)
  | .sel => (if pick then a else b, 0)
  | .splat => (b, 0)
  | .vins _ => (b, 0)
  | .laneid => (BitVec.ofNat 32 l, 0)

/-- Which of the sources a, b, c and the old destination an operation reads as vector registers (b where no immediate
stands for it). -/
def LaneOp.reads (o : LaneOp) : Bool × Bool × Bool × Bool :=
  match o with
  | .alu _ => (true, true, false, false)
  | .v2 .imad | .v2 .bfi | .v2 .bysel | .v2 .i8dot4 | .v2 .n8dot4 => (true, true, false, true)
  | .v2 .bfe => (true, true, false, false)
  | .v2 _ => (true, false, false, false)
  | .f32 .add | .f32 .sub | .f32 .mul | .f32 .min | .f32 .max | .f32 .minn | .f32 .maxn | .f32 .cps =>
    (true, true, false, false)
  | .f32 _ => (true, false, false, false)
  | .pk _ _ => (true, true, false, false)
  | .fma .fma3 => (true, true, true, false)
  | .fma _ => (true, true, false, true)
  | .spc .div => (true, true, false, false)
  | .spc _ => (true, false, false, false)
  | .cvt o _ _ _ =>
    match o with
    | .toF16 | .toBf16 | .toF8e4 | .toF8e5 => (true, false, false, true)
    | _ => (true, false, false, false)
  | .pack .pkb01 | .pack .pkb23 => (true, true, false, true)
  | .pack .pk2h | .pack .pkhi => (true, true, false, false)
  | .pack _ => (true, false, false, false)
  | .mov => (true, false, false, false)
  | .sel => (true, true, false, false)
  | .splat => (false, false, false, false)
  | .vins _ => (false, false, false, true)
  | .laneid => (false, false, false, false)

/-- The places that can perform an operation (01 Table 01-5, 08 R207, 09 Table 09-2, 10 Table 10-1). -/
def LaneOp.at (o : LaneOp) (p : Place) : Bool :=
  match p, o with
  | .l, _ => true
  | _, .alu _ | _, .v2 .imad | _, .mov | _, .sel | _, .splat | _, .vins _ => true
  | .m, _ => false
  | _, .f32 .add | _, .f32 .sub | _, .f32 .mul | _, .f32 .min | _, .f32 .max | _, .f32 .minn | _, .f32 .maxn => true
  | _, .fma .fma | _, .fma .fms | _, .fma .fnma => true
  | _, .cvt .toI32 .. | _, .cvt .toN32 .. | _, .cvt .fromI32 .. | _, .cvt .fromN32 .. | _, .cvt .cbk .. => true
  | _, _ => false

end Sys2Proof.Machine
end

