-- ==== Sys2Proof/Machine/Operands.lean ====
section
/-!
DEFINITION. Operand forms: immediates (03 R57, R64), permuted reads (03 R69), the halves of a consist and their renamed
registers (13 R328, R329), the execute-stage checks of Table 08-4 with the waits of 08 R218, and posting to a place
(08 R207 to R213).
-/
namespace Sys2Proof.Machine

/-! ### Immediates (03 R57, R64) -/

def imm6S (i : BitVec 6) : DWord := i.signExtend 64
def imm6V (i : BitVec 6) : Word := i.signExtend 32
def imm25S (v : BitVec 25) : DWord := v.signExtend 64
def imm25V (v : BitVec 25) : Word := v.signExtend 32

/-- The F32 of an EXT.IMM on a float head. -/
def imm25F (v : BitVec 25) : Word := v ++ (0 : BitVec 7)

/-- Source B of a scalar form: the register, or the EXT.IMM. -/
def Ctx.sB (c : Ctx) (q : Quals) (b : BitVec 6) : Except Stop DWord :=
  match Quals.imm? q with
  | some v => .ok (imm25S v)
  | none => c.s b

/-! ### Permuted reads (03 Table 03-4) -/

/-- The lane whose word lane i reads under a pattern; none reads zero. -/
def permLane (p : BitVec 3) (x : BitVec 5) (i : Nat) : Option Nat :=
  match p.toNat with
  | 1 => some ((i + x.toNat) % 32)
  | 2 => some x.toNat
  | 3 => some (i ^^^ x.toNat)
  | 4 => some (i ^^^ (2 ^ x.toNat - 1))
  | 5 => if i + x.toNat < 32 then some (i + x.toNat) else none
  | _ => some i

/-- The word lane i reads of a register through a pattern. -/
def VReg.through (r : VReg) (p : BitVec 3) (x : BitVec 5) (i : Nat) : Word :=
  match permLane p x i with
  | some j => r.lane j
  | none => 0

/-! ### Halves and their checks -/

/-- The entries of the stream that have an active lane, with those lanes (13 R329). -/
def Ctx.halves (c : Ctx) (act : Mask) : List (Nat × Mask) :=
  c.ents.filterMap fun i =>
    let m := act &&& (c.src.path i).em
    if m == 0 then none else some (i, m)

def Ctx.rename (c : Ctx) (ent : Nat) (n : BitVec 6) : Nat := (c.src.path ent).rename n

/-- A w-name inside a consist (13 R328). -/
def Ctx.isW (c : Ctx) (n : BitVec 6) : Bool := c.meld && 48 ≤ n.toNat

/-- The registers of a span, from a renamed first register on. -/
def span (n len : Nat) : List Nat := (List.range len).map (n + ·)

/-- What Table 08-4 asks of an instruction or of one half: a MELD violation, the named registers, whether the place of
execution can perform it, the marked sources, and the sources that wait while empty (R218). -/
structure Need where
  meld : Bool
  named : List Nat
  place : Place
  placeOk : Bool
  marked : List Nat
  waits : List Nat

/-- A place whose feature bit the launch lacks (08 Table 08-4). -/
def Ctx.placeOpen (c : Ctx) (s : State) (p : Place) : Bool :=
  p == .l || (s.features c.iss.core c.g).getLsbD p.code

/-- A register that is unusable: at or above LQ and at L (08 R205). -/
def Ctx.unusable (c : Ctx) (n : Nat) : Bool := c.g.lq ≤ n && (c.src.vreg n).place == .l

/-- The first failing check of Table 08-4. -/
def Ctx.check (c : Ctx) (s : State) (n : Need) : Option FaultInfo :=
  let at' := fun (f : FaultInfo) => some { f with place := n.place }
  if n.meld || n.named.any (fun r => 64 ≤ r) then at' (FaultInfo.ofCause causeMeld)
  else
    match n.named.find? fun r => c.unusable r with
    | some r => at' (FaultInfo.withOperand causeQuota (BitVec.ofNat 64 (r * 2 ^ 8)))
    | none =>
      if !n.placeOk || !c.placeOpen s n.place then at' (FaultInfo.ofCause causePlaceOp)
      else if n.marked.any fun r => !(c.src.vreg r).full then at' (FaultInfo.ofCause causeEmptySource)
      else none

/-- The wait for sources that are empty. -/
def Ctx.emptyWait (c : Ctx) (rs : List Nat) : Option Wait :=
  let es := rs.filter fun r => !(c.src.vreg r).full
  if es.isEmpty then none else some (.full es)

/-- The checks and waits of an instruction that acts once for its stream: a trap takes the whole stream. -/
def Ctx.checkOnce (c : Ctx) (s : State) (n : Need) : Except Stop Unit :=
  match c.check s n with
  | some f => .error (.trap f)
  | none =>
    match c.emptyWait n.waits with
    | some w => .error (.wait w)
    | none => .ok ()

/-- A vector source: marked, it traps while empty; unmarked, it waits. -/
def Need.source (n : Need) (mark : Bool) (r : Nat) : Need :=
  { n with named := n.named ++ [r], marked := if mark then n.marked ++ [r] else n.marked,
           waits := if mark then n.waits else n.waits ++ [r] }

/-- A register that is named and not read. -/
def Need.names (n : Need) (rs : List Nat) : Need := { n with named := n.named ++ rs }

/-- Registers that are read and always wait. -/
def Need.reads (n : Need) (rs : List Nat) : Need := { n with named := n.named ++ rs, waits := n.waits ++ rs }

def Need.atL : Need := ⟨false, [], .l, true, [], []⟩

/-- Halves that fault leave; where every entry of the stream faults, the whole stream traps with the first one's cause
(13 R335, R336). -/
def Ctx.leave (c : Ctx) (s : State) (bad : List (Nat × FaultInfo)) : Except Stop (State × Ctx) :=
  match bad with
  | [] => .ok (s, c)
  | (_, f) :: _ =>
    if c.ents.all fun i => bad.any fun b => b.1 == i then .error (.trap f)
    else .ok (bad.foldl (fun p b => p.2.trapHalf p.1 b.1 b.2) (s, c))

/-- As `leave`, where the other half is dispatched with the parts `es`: it may fault yet, so the half that has failed leaves
when the instruction retires (13 R336). -/
def Ctx.leaveWith (c : Ctx) (s : State) (bad : List (Nat × FaultInfo)) (es : List Entry) :
    Except Stop (State × Ctx × List Entry) :=
  match es with
  | [] => (c.leave s bad).map fun p => (p.1, p.2, [])
  | e :: others => .ok (s, c, { e with fault := bad } :: others)

/-- The halves of an instruction that have not failed yet. -/
def Entry.sound (e : Entry) (hs : List Half) : List Half := hs.filter fun h => !(e.fault.any fun f => f.1 == h.ent)

/-- Checks the halves: the faults of those that fault, and a wait of one that does not (Table 08-4, R218). -/
def Ctx.checkHalves (c : Ctx) (s : State) (ns : List (Nat × Need)) : Except Stop (List (Nat × FaultInfo)) :=
  let bad := ns.filterMap fun n => (c.check s n.2).map fun f => (n.1, f)
  let good := ns.filter fun n => !(bad.any fun b => b.1 == n.1)
  match c.emptyWait (good.flatMap fun n => n.2.waits) with
  | some w => .error (.wait w)
  | none => .ok bad

/-! ### Posting (08 R211 to R213) -/

/-- Posts of the group that are dispatched and not retired. -/
def Group.posts (g : Group) : Nat := (g.rob.filter fun e => e.place != .l && e.stage != .released).length

/-- Room in the retire window for n more posts. -/
def Ctx.room (c : Ctx) (n : Nat) : Except Stop Unit :=
  if n == 0 || c.g.posts + n ≤ 32 then .ok () else .error (.wait .window)

/-- An unretired instruction of the stream. -/
def Ctx.entry (c : Ctx) (place : Place) (op : Op) : Entry :=
  { pos := c.pos, ent := (c.ents.find? fun i => (c.g.arch.path i).valid).getD c.iss.ent, pn := c.iss.pn, slot := c.iss.slot, place := place, op := op, stage := .posted,
    flags := 0, fault := [], before := c.g.arch, after := c.g.arch, old := c.iss.shadow }

/-! ### Lane-wise instructions with a vector destination -/

/-- How a lane-wise instruction's words are read: marks and permutations of A and B. -/
def Half.word (h : Half) (src : Arch) (m : ModX) (l : Nat) : Word × Word × Word × Word :=
  ((src.vreg h.a).through m.pa m.pax l,
   match h.imm with
   | some w => w
   | none => (src.vreg h.b).through m.pb m.pbx l,
   (src.vreg h.c).lane l, (src.vreg h.d).lane l)

/-- The results of a half: each active lane's word and flags. -/
def Half.results (h : Half) (o : LaneOp) (src : Arch) (m : ModX) : List (Nat × Word × Flags) :=
  (Mask.list h.act).map fun l =>
    let (a, b, c, d) := h.word src m l
    (l, o.eval src.fcr src.dph l a b c d (h.sel.getLsbD l))

/-- The words of results by lane. -/
def wordsOf (rs : List (Nat × Word × Flags)) : Vector Word 32 :=
  Vector.ofFn fun i => ((rs.find? fun r => r.1 == i.val).map (·.2.1)).getD 0

/-- What Table 08-4 asks of one half of a lane-wise instruction. -/
def LaneOp.need (o : LaneOp) (c : Ctx) (m : ModX) (meld : Bool) (h : Half) : Need :=
  let (ra, rb, rc, rd) := o.reads
  let rb := rb && h.imm.isNone
  let perm := m.pa != 0 || m.pb != 0
  let n : Need := ⟨meld, [h.d], h.place, o.at h.place && !(perm && h.place != .l), [], []⟩
  -- a post reads what lives elsewhere when it executes (R211)
  let here := fun (r : Nat) => h.place == .l || (c.src.vreg r).place == .l
  let src := fun (n : Need) (use mark : Bool) (r : Nat) =>
    if !use then n else if mark || here r then n.source mark r else n.names [r]
  let n := src n ra m.ta h.a
  let n := src n rb m.tb h.b
  let n := src n rc false h.c
  if rd && here h.d then n.reads [h.d] else n

/-- A half of a lane-wise instruction, its fields renamed (13 R328). -/
def Ctx.half (c : Ctx) (ent : Nat) (act : Mask) (d a b x : BitVec 6) (imm : Option Word) (sel : Mask) : Half :=
  let r := c.rename ent
  { ent := ent, act := act, d := r d, a := r a, b := r b, c := r x, imm := imm, sel := sel,
    place := (c.src.vreg (r d)).place }

/-- The places other than L of some halves. -/
def remotePlaces (hs : List Half) : List Place := [Place.k, .h, .m].filter fun p => hs.any fun h => h.place == p

/-- Runs the halves of a lane-wise instruction: those at L are performed, the others posted. `meld` is a MELD violation
of the encoding inside a consist. -/
def Ctx.laneHalves (c : Ctx) (s : State) (o : LaneOp) (m : ModX) (meld : Bool) (hs : List Half) : Except Stop State := do
  let bad ← c.checkHalves s (hs.map fun h => (h.ent, o.need c m meld h))
  let good := hs.filter fun h => !(bad.any fun b => b.1 == h.ent)
  let posts := remotePlaces good
  c.room posts.length
  let mine := (good.filter fun h => h.place == .l).map fun h => (h, h.results o c.src m)
  let fp := mine.filterMap fun x => (fpTrap c.src.fcr .l (x.2.map fun r => (r.1, r.2.2))).map fun f => (x.1.ent, f)
  -- faults in the order of the stream's entries, side 0 first
  let bad := c.ents.filterMap fun i => (bad ++ fp).find? fun b => b.1 == i
  let (s, c, es) ← c.leaveWith s bad (posts.map fun p => c.entry p (.lane o (good.filter fun h => h.place == p)))
  let write := fun (a : Arch) (x : Half × List (Nat × Word × Flags)) =>
    if bad.any fun b => b.1 == x.1.ent then a
    else (a.writeV x.1.d x.1.act (wordsOf x.2)).addFlags (allFlags (x.2.map fun r => (r.1, r.2.2)))
  let a := mine.foldl write c.g.arch
  let a := (good.filter fun h => h.place != .l).foldl (fun a h => a.oweV h.d c.pos h.act) a
  let es := es.map fun e => { e with before := c.g.arch }
  let s := c.put s { c.g with arch := a, rob := c.g.rob ++ es }
  .ok (c.finish s)

/-- A lane-wise instruction with fields D, A, B and C, its active lanes and, for SEL, its selector. -/
def Ctx.laneWise (c : Ctx) (s : State) (o : LaneOp) (m : ModX) (act : Mask) (d a b x : BitVec 6) (imm : Option Word)
    (sel : Mask) : Except Stop State :=
  let hs := (c.halves act).map fun h => c.half h.1 h.2 d a b x imm sel
  -- a permuted source must not be renamed (13 R328)
  let meld := (m.pa != 0 && c.isW a) || (m.pb != 0 && imm.isNone && c.isW b)
  c.laneHalves s o m meld hs

end Sys2Proof.Machine
end

