-- ==== Sys2Proof/Machine/Registers.lean ====
section
/-!
DEFINITION. The management-window registers that the device holds (18 R432, Table 18-1): their offsets, reset values
and fields, capabilities, partitions, and posting management events (18 R451).
-/
namespace Sys2Proof.Machine

/-! ### Offsets -/

def rangeReg (k r : Nat) : Nat := 0x20 * k + 8 * r
def fmtReg (k r : Nat) : Nat := 0x1000 + 0x40 * k + 8 * r
def bankpartReg (s : Nat) : Nat := 0x2000 + 0x10 * s
def mirmetReg (s : Nat) : Nat := 0x2008 + 0x10 * s
def fqReg (d r : Nat) : Nat := 0x100000 + 0x100 * d + 8 * r
def evqReg (d r : Nat) : Nat := 0x150000 + 0x100 * d + 8 * r
def xltReg (v r : Nat) : Nat := 0x110000 + 0x10 * v + 8 * r
def hwReg (j r : Nat) : Nat := 0x120000 + 0x20 * j + 8 * r
def timeCfgReg : Nat := 0x120100
def timeOfsReg : Nat := 0x120108
def partCfgReg (d : Nat) : Nat := 0x140000 + 8 * d
def memilReg (p : Nat) : Nat := 0x140020 + 8 * p
def netbReg (d : Nat) : Nat := 0x140040 + 8 * d
def qtimeoutReg : Nat := 0x140060
def partCmdReg : Nat := 0x140068
def viMapReg (v : Nat) : Nat := 0x141000 + 0x10 * v
def viPolicyReg (v : Nat) : Nat := 0x141008 + 0x10 * v
def bar0 (v off : Nat) : Nat := 0x200000 + 0x10000 * v + off
def lnqReg (v q r : Nat) : Nat := bar0 v (0x100 * q + 8 * r)
def biasReqReg (v : Nat) : Nat := bar0 v 0x4000
def biasStatReg (v : Nat) : Nat := bar0 v 0x4008

/-- The value of a management-window register at reset, by its offset (Tables 04-4, 14-5, 15-4, 17-7, 18-4, 18-7). -/
def mregReset (off : Nat) : DWord :=
  if 0x2000 ≤ off && off < 0x2080 && off % 16 == 8 then 0x200208
  else if 0x100000 ≤ off && off < 0x100400 && off % 0x100 == 8 then 4
  else if 0x150000 ≤ off && off < 0x150400 && off % 0x100 == 8 then 4
  else if 0x140000 ≤ off && off < 0x140020 && off % 8 == 0 then 0xF
  else if off == 0x140020 then 0xFF
  else if 0x140040 ≤ off && off < 0x140060 && off % 8 == 0 then 1
  else if off == qtimeoutReg then 1000
  else if off == timeCfgReg then 1
  else if 0x200000 ≤ off && off < 0x600000 then
    let o := (off - 0x200000) % 0x10000
    if o < 0x1000 && o % 0x100 == 8 then 4 else if o == 0x1008 then 0x22 else 0
  else 0

/-- The register at an offset. -/
def State.mr (s : State) (off : Nat) : DWord := (s.mreg.find off).getD (mregReset off)

def State.setMr (s : State) (off : Nat) (x : DWord) : State := { s with mreg := s.mreg.put off x }

/-! ### Partitions and interfaces (18 R436, R444) -/

/-- The partition of a die: its index is its lowest die (18 R436). -/
def State.partOfDie (s : State) (d : Nat) : Nat :=
  ((List.range 4).find? fun e => (s.mgmt.part.getD d 0).getLsbD e).getD d

/-- The dies of a partition. -/
def State.diesOf (s : State) (p : Nat) : BitVec 4 := s.mgmt.part.getD p 0

def dieList (m : BitVec 4) : List Nat := (List.range 4).filter fun d => m.getLsbD d

/-- The partition of a core. -/
def State.partOfCore (s : State) (core : Nat) : Nat := s.partOfDie (dieOfCore core)

/-- An interface's applied map: enabled, dies (18 R444). -/
def State.viEnabled (s : State) (v : Nat) : Bool := (s.mgmt.viMap.get v 0).getLsbD 8
def State.viDies (s : State) (v : Nat) : BitVec 4 := (s.mgmt.viMap.get v 0).extractLsb' 0 4

/-- The partition an interface is bound to. -/
def State.viPart (s : State) (v : Nat) : Nat := s.partOfDie ((dieList (s.viDies v)).headD 0)

/-- The capability of an interface (18 R445). -/
def State.caps (s : State) (v : Nat) : BitVec 128 := (s.mr (viPolicyReg v)).setWidth 128 &&& Config.features

/-! ### Management events (18 R451, Table 18-9) -/

/-- An event record, byte 0 in the lowest bits. -/
def eventRecord (src : Nat) (die : Nat) (detail : Nat) (addr data : DWord) (ns : Nat) : BitVec 256 :=
  BitVec.ofNat 64 ns ++ data ++ addr ++ BitVec.ofNat 32 detail ++ (0 : BitVec 16) ++ BitVec.ofNat 8 die ++ BitVec.ofNat 8 src

/-- Posts an event at a die: it waits to be written to the die's event queue. -/
def State.event (s : State) (die src detail : Nat) (addr data : DWord) : State :=
  let r := eventRecord src die detail addr data s.ns
  { s with mgmt := { s.mgmt with evWait := s.mgmt.evWait.put die (s.mgmt.evWait.get die [] ++ [r]) } }

/-- A refused or ignored register write (source 0x05). -/
def State.refuseWrite (s : State) (off : Nat) (x : DWord) : State := s.event 0 0x05 off (BitVec.ofNat 64 off) x

/-! ### Rings of records (15 R373, R374, 18 R451) -/

/-- Whether a ring can take one more record: EN, and room by LOG2N. -/
def State.ringRoom (s : State) (base : Nat) : Bool :=
  let n := bitsOf (s.mr (base + 8)) 3 0
  (s.mr base).getLsbD 0 &&
    ((s.mr (base + 0x18)).toNat + 0x10000 - (s.mr (base + 0x10)).toNat % 0x10000) % 0x10000 < 2 ^ n

/-! ### Memory keys: one address space of cells for all memories -/

/-- The cell of management memory or of any management-window offset. -/
def mgmtCell (off : Nat) : Nat := 2 ^ 40 + off
/-- Host memory of the address space a PASID names. -/
def hostCell (pasid a : Nat) : Nat := 2 ^ 54 * (1 + pasid) + a
def scratchCell (clus bank off : Nat) : Nat := 2 ^ 52 + clus * 2 ^ 22 + bank * 2 ^ 17 + off
def peerCell (link off : Nat) : Nat := 2 ^ 53 + link * 2 ^ 44 + off
def dramCell (stack pch bank row byte : Nat) : Nat := stack * 2 ^ 36 + pch * 2 ^ 31 + bank * 2 ^ 27 + row * 2 ^ 10 + byte

def State.readBytes (s : State) (cell n : Nat) : List Byte := Memory.bytes s.mem cell n

def State.writeBytes (s : State) (cell : Nat) (bs : List Byte) : State := { s with mem := Memory.setBytes s.mem cell bs }

/-! ### Host requests (17 R413, R414, R417) -/

/-- XLT_PASID of an interface. -/
def State.pasid (s : State) (v : Nat) : Nat := (s.mr (xltReg v 1)).toNat % 2 ^ 20

/-- A request for host memory from a die for an interface: dies 0 and 1 use port 0, as the interface's function; dies 2 and 3
port 1, as its one function. -/
def State.hostReq (s : State) (die v : Nat) (write : Bool) (addr : Nat) (data : Line) (mask : BitVec 128) : HostReq :=
  { ref := none, chan := none, eng := none, write := write, addr := addr, data := data, mask := mask, port := die / 2,
    fn := if die < 2 then v else 0, pasid := s.pasid v }

/-- A port has fewer than 1,024 requests out (Table 17-1). -/
def State.portRoom (s : State) (die : Nat) : Bool := (s.out.reqs.filter fun r => r.port == die / 2).length < 1024

def State.sendHost (s : State) (r : HostReq) : State := { s with out := { s.out with reqs := s.out.reqs ++ [r] } }

/-- Writes the next waiting record to a ring and advances TAIL; BASE is a management-window address. -/
def State.ringPut (s : State) (base size : Nat) (bs : List Byte) : State :=
  let n := bitsOf (s.mr (base + 8)) 3 0
  let tail := (s.mr (base + 0x18)).toNat
  let b := (s.mr base).toNat / size * size
  let s := s.writeBytes (mgmtCell ((b + size * (tail % 2 ^ n)) % 2 ^ 32)) bs
  s.setMr (base + 0x18) (BitVec.ofNat 64 ((tail + 1) % 0x10000))

end Sys2Proof.Machine
end

