-- ==== Sys2Proof/Machine/Translate.lean ====
section
/-!
DEFINITION. Addresses: the normal-window, compute-window and view ranges of device physical addresses (04 R87 to R95),
homes and range-table entries (05 R110, R114), what a line holds as the device's agents see it, and the translation of
canonical user addresses (15 R381 to R384, 03 R49, 15 R474).
-/
namespace Sys2Proof.Machine

/-! ### Where a DPA lies -/

/-- What a DPA names: a cell of DRAM, a view line of a format range, host memory, or nothing. -/
inductive DpaKind where
  | dram (cell : Nat)
  | view (k : Nat)
  | host (addr : Nat)
  | unbacked
  deriving DecidableEq, Repr

def State.bankSplit (s : State) (stack : Nat) : Bool := (s.mr (bankpartReg stack)).getLsbD 0

/-- The stacks of an interleave set, ascending (04 R88). -/
def stackList (m : BitVec 8) : List Nat := (List.range 8).filter fun i => m.getLsbD i

/-- Bits of a number: n bits from bit lo. -/
def nbits (x lo n : Nat) : Nat := x / 2 ^ lo % 2 ^ n

/-- The cell of a normal-window byte (04 Table 04-2), none past the window. While BANKPART.EN differs among the stacks of the
set, that of its lowest stack governs (DESIGN CHOICE, log 58). -/
def State.normalCell (s : State) (part a : Nat) : Option Nat :=
  let sts := stackList (s.mgmt.memil.getD part 0)
  let n := sts.length
  let k := Nat.log2 n
  let on := s.bankSplit (sts.headD 0)
  let cap := if on then 2 ^ 35 else 2 ^ 36
  if n = 0 || n * cap ≤ a then none
  else
    let x := a / 128
    let bw := if on then 3 else 4
    let y := x / 2 ^ k
    let stack := sts.getD (nbits x 0 k ^^^ nbits x 20 k) 0
    let pch := nbits y 0 5 ^^^ nbits y 15 5
    let bank := nbits y 5 bw
    let col := nbits y (bw + 5) 3
    let row := nbits y (bw + 8) 17
    some (dramCell stack pch bank row (col * 128 + a % 128))

/-- The Mirmet unit of a pseudo-channel. -/
def unitKey (stack pch : Nat) : Nat := stack * 32 + pch

def State.munit (s : State) (stack pch : Nat) : MUnit := s.units.get (unitKey stack pch) MUnit.zero

def State.setMunit (s : State) (stack pch : Nat) (u : MUnit) : State :=
  { s with units := s.units.put (unitKey stack pch) u }

/-- ACTMAX of a stack: the most compute banks of a pseudo-channel open at once (04 R92). -/
def State.actMax (s : State) (stack : Nat) : Nat := bitsOf (s.mr (mirmetReg stack)) 3 0

/-- The unit opens a row in banks, or leaves them precharged where it does not keep rows open; no more than ACTMAX banks stay
open at once (R92, R100). -/
def MUnit.openRows (u : MUnit) (bs : List Nat) (row : Nat) (keep : Bool) (most : Nat) : MUnit :=
  let others := u.rows.filter fun x => !bs.contains x.1
  if keep then
    { u with rows := bs.foldl (fun t b => Table.put t b row) (others.drop (others.length - (most - bs.length))) }
  else { u with rows := others }

/-- A DPA in the compute-window range (04 R87). -/
def isCompute (a : Nat) : Bool := 0x8000000000 ≤ a && a < 0xC000000000

def isView (a : Nat) : Bool := 0x10000000000 ≤ a && a < 0x20000000000

def isHostDpa (a : Nat) : Bool := nbits a 51 1 == 1

/-- The stack, pseudo-channel, row and compute bank of a compute-window DPA (04 Table 04-3). -/
def computeStack (a : Nat) : Nat := nbits a 35 3
def computePch (a : Nat) : Nat := nbits a 30 5
def computeRow (a : Nat) : Nat := nbits a 13 17
def computeBank (a : Nat) : Nat := nbits a 10 3

/-- An ordinary access to a compute bank uses its open row, or opens the one it needs (04 R103). -/
def State.openFor (s : State) (a : Nat) : State :=
  if !isCompute a then s
  else
    let u := s.munit (computeStack a) (computePch a)
    if u.rows.find (computeBank a) == some (computeRow a) then s
    else s.setMunit (computeStack a) (computePch a) (u.openRows [computeBank a] (computeRow a) true (s.actMax (computeStack a)))

/-- The dies whose stacks serve a partition. -/
def State.stackInPart (s : State) (part stack : Nat) : Bool := (s.diesOf part).getLsbD (stack / 2)

/-- The active format range that covers a view address, the lowest winning (04 R94). -/
def State.viewRange (s : State) (a : Nat) : Option Nat :=
  (List.range 16).find? fun k =>
    let mode := (s.mr (fmtReg k 2)).toNat % 4
    let base := (s.mr (fmtReg k 0)).toNat
    let limit := (s.mr (fmtReg k 1)).toNat
    (mode == 1 || mode == 2) && base ≤ a && a < limit

def State.dpaKind (s : State) (part a : Nat) : DpaKind :=
  if isHostDpa a then .host (a % 2 ^ 51)
  else if isCompute a then
    let st := computeStack a
    if s.bankSplit st && s.stackInPart part st then
      .dram (dramCell st (computePch a) (8 + computeBank a) (computeRow a) (a % 1024))
    else .unbacked
  else if isView a then
    match s.viewRange a with
    | some k => .view k
    | none => .unbacked
  else
    match s.normalCell part a with
    | some c => .dram c
    | none => .unbacked

/-! ### Homes and ranges (05 R110, R114) -/

/-- h of R110. -/
def homeHash (a : Nat) : Nat :=
  let x := nbits a 7 34
  nbits x 0 17 ^^^ nbits x 17 17

/-- The home slice of a line, as a slice id. -/
def State.homeSlice (s : State) (part a : Nat) : Nat :=
  let dies := dieList (s.diesOf part)
  let i := homeHash a * (48 * dies.length) / 131072
  48 * dies.getD (i / 48) 0 + i % 48

/-- The replica slice of a line in a sector (05 R112), sector being die x 3 + sector. -/
def replicaSlice (sector a : Nat) : Nat := 16 * sector + homeHash a * 16 / 131072

/-- The range-table entry of a DPA, the lowest winning. -/
def State.rangeOf (s : State) (a : Nat) : Option Nat :=
  (List.range 64).find? fun k =>
    let b := s.mr (rangeReg k 0)
    b.getLsbD 0 && bitsOf b 40 12 ≤ nbits a 12 29 && nbits a 12 29 < bitsOf (s.mr (rangeReg k 1)) 40 12 &&
      a < 2 ^ 41

/-- The image slot of a line (05 R114). -/
def State.imageSlot (s : State) (a : Nat) : Nat :=
  match s.rangeOf a with
  | some k => (s.mr (rangeReg k 2)).toNat % 8
  | none => if isCompute a then 5 else if isView a then 3 else 0

def State.rangeAttr (s : State) (a : Nat) : DWord :=
  match s.rangeOf a with
  | some k => s.mr (rangeReg k 3)
  | none => 0

def State.lineRepl (s : State) (a : Nat) : Bool := (s.rangeAttr a).getLsbD 16
def State.lineHcoh (s : State) (a : Nat) : Bool := (s.rangeAttr a).getLsbD 17

/-- The lease length in ns. -/
def State.lineLease (s : State) (a : Nat) : Nat :=
  let n := (s.rangeAttr a).toNat % 0x10000
  if n = 0 then 2000 else n

def emptyImage : Image := ⟨[], 0, 0, 0, 0, [], [], []⟩

/-- The image that governs a line; an empty slot defines no event. -/
def State.imageOf (s : State) (a : Nat) : Image := ((s.images.getD (s.imageSlot a) none)).getD emptyImage

/-- FLAGS of an image (05 Table 05-3). -/
def Image.upd (i : Image) : Bool := i.flags.getLsbD 0
def Image.repl (i : Image) : Bool := i.flags.getLsbD 1
def Image.lease (i : Image) : Bool := i.flags.getLsbD 2
def Image.unc (i : Image) : Bool := i.flags.getLsbD 3

/-! ### What lines hold -/

def homeKey (part line : Nat) : Nat := part * 2 ^ 52 + line

def State.home (s : State) (part line : Nat) : HomeLine := s.homes.get (homeKey part line) HomeLine.zero

def State.setHome (s : State) (part line : Nat) (h : HomeLine) : State :=
  { s with homes := s.homes.put (homeKey part line) h }

def State.cluster (s : State) (c : Nat) : Cluster := s.clusters.get c Cluster.zero

def State.setCluster (s : State) (c : Nat) (x : Cluster) : State := { s with clusters := s.clusters.put c x }

/-- The partition of a cluster. -/
def State.partOfCluster (s : State) (c : Nat) : Nat := s.partOfDie (c / 18)

/-- The clusters of a partition. -/
def State.clustersOf (s : State) (part : Nat) : List Nat :=
  (List.range 72).filter fun c => (s.diesOf part).getLsbD (c / 18)

/-- A DRAM line and its poison: marked poisoned, or with an uncorrectable column (04 R86). -/
def State.cellLine (s : State) (cell : Nat) : Line × Bool :=
  (Line.ofBytes (s.readBytes cell 128),
   s.poison.contains cell || s.ue.any fun c => cell ≤ c && c < cell + 128)

/-- The latest value of a normal- or compute-window line for an agent that reads it at its home: in flight from the last
owner, with an owner, in the slice, in DRAM (15 R382: the walker sees the latest value and takes no copy). -/
def State.latestDram (s : State) (part line : Nat) : Line × Bool :=
  let flight := s.net.find? fun m => m.part == part && m.line == line && m.full &&
    (m.kind == .home .putm || m.kind == .home .data)
  match flight with
  | some m => (m.data, m.poison)
  | none =>
    let own := (s.clustersOf part).filterMap fun c => ((s.cluster c).lines.find line).bind fun l =>
      if l.st == .m || l.st == .e then some (l.data, l.poison) else none
    match own with
    | x :: _ => x
    | [] =>
      let h := s.home part line
      if h.here then (h.data, h.poison)
      else
        match s.dpaKind part line with
        | .dram c => s.cellLine c
        | _ => (0, true)

/-- n bytes of the normal window, byte by byte as its lines stand; true where a line is poisoned. -/
def State.latestBytes (s : State) (part a n : Nat) : List Byte × Bool :=
  let lines := (List.range ((a % 128 + n + 127) / 128)).map fun i => s.latestDram part (a / 128 * 128 + 128 * i)
  let all := lines.flatMap fun l => Line.toBytes l.1
  ((all.drop (a % 128)).take n, lines.any (·.2))

/-- A view line decoded from its Q4N tensor (04 R95); poison of a code or scale line poisons it. -/
def State.viewLine (s : State) (part k a : Nat) : Line × Bool :=
  let bf := (s.mr (fmtReg k 2)).toNat % 4 == 2
  let base := (s.mr (fmtReg k 0)).toNat
  let code := (s.mr (fmtReg k 3)).toNat
  let scale := (s.mr (fmtReg k 4)).toNat
  let i0 := if bf then (a - base) / 2 else a - base
  let n := if bf then 64 else 128
  let sup := i0 / 16384
  let codes := s.latestBytes part (code + i0 / 2) (n / 2)
  -- one scale byte for each block of 64 elements (R29)
  let qs := s.latestBytes part (scale + 272 * sup + i0 / 64 % 256) (n / 64)
  let big := s.latestBytes part (scale + 272 * sup + 256) 4
  let f := if bf then Fmt.bf16 else Fmt.f8e4
  let elem := fun j =>
    let c := (codes.1.getD (j / 2) 0).toNat / (if j % 2 == 0 then 1 else 16) % 16
    q4nDecode f (natOfBytes big.1) (qs.1.getD (j / 64) 0).toNat c
  let bytes := if bf then (List.range 64).flatMap fun j => bytesOfNat 2 (elem j)
    else (List.range 128).map fun j => BitVec.ofNat 8 (elem j)
  (Line.ofBytes bytes, codes.2 || qs.2 || big.2)

/-- What a line's memory holds below the slices: DRAM, or the format decoder; an unbacked line is poisoned (04 R87). -/
def State.memLine (s : State) (part line : Nat) : Line × Bool :=
  match s.dpaKind part line with
  | .dram c => s.cellLine c
  | .view k => s.viewLine part k line
  | .host a => (Line.ofBytes (s.readBytes (hostCell 0 a) 128), false)
  | .unbacked => (0, true)

/-- The latest value of any line that an agent reads without taking a copy. -/
def State.latest (s : State) (part line : Nat) : Line × Bool :=
  match s.dpaKind part line with
  | .dram _ => s.latestDram part line
  | _ =>
    let h := s.home part line
    if h.here then (h.data, h.poison) else s.memLine part line

/-! ### Translation (15 R381 to R384) -/

/-- Bits 63:52 of an address (07 Table 07-1). -/
def addrClass (a : DWord) : Nat := a.toNat / 2 ^ 52

def isUser (a : DWord) : Bool := addrClass a ≤ 0x00F

/-- One 8-B table entry; none where its line is poisoned. -/
def State.tableEntry (s : State) (part a : Nat) : Option DWord :=
  let (l, p) := s.latest part (a / 128 * 128)
  if p then none else some (BitVec.ofNat 64 (Line.field l (a % 128) 8))

/-- An entry of level `lvl` + 1 that a walk may go through (15 R383, Table 15-9). -/
def entryOk (e : DWord) (lvl : Nat) : Bool :=
  let leaf := e.getLsbD 5
  e.getLsbD 0 && bitsOf e 63 52 == 0 && bitsOf e 11 7 == 0 && !e.getLsbD 4 && (!e.getLsbD 2 || e.getLsbD 1) &&
    !(leaf && 3 ≤ lvl) && !(!leaf && lvl == 0) && !(e.getLsbD 6 && lvl != 0) &&
    !(leaf && bitsOf e 51 12 * 4096 % 2 ^ (12 + 9 * lvl) != 0)

/-- The walk of levels 5 to 1 from a table (15 R382, R383): none is a TRANSLATION fault. -/
def State.walkFrom (s : State) (part va : Nat) : Nat → Nat → Option PageMap
  | 0, _ => none
  | lvl + 1, table =>
    let idx := va / 2 ^ (12 + 9 * lvl) % 512
    match s.tableEntry part (table + 8 * idx) with
    | none => none
    | some e =>
      let pfn := bitsOf e 51 12 * 4096
      let size := 2 ^ (12 + 9 * lvl)
      if !entryOk e lvl then none
      else if e.getLsbD 5 then some ⟨va / size * size, size, pfn, e.getLsbD 1, e.getLsbD 2, e.getLsbD 3⟩
      else s.walkFrom part va lvl pfn

/-- The page of an L1 entry with C64. Sixteen entries that are alike are one 64-KiB page, which the device may cache so and
does here (log 59). Where they differ in more than PFN[15:12] the access translates through one of them, under the checks of
any entry: which one is not stated, so a free value picks it (15 R383; log 11). -/
def State.c64Page (s : State) (part table va : Nat) (pg : PageMap) : Option PageMap :=
  let group := table + 8 * (va / 65536 * 16 % 512)
  let es := (List.range 16).map fun i => s.tableEntry part (group + 8 * i)
  let e0 := (es.getD 0 none).getD 0
  let all := es.all fun e => (e.map fun x => x.getLsbD 6 && x.getLsbD 0).getD false
  let same := bitsOf e0 15 12 == 0 && (List.range 16).all fun i =>
    (es.getD i none).map (fun x => x.toNat) == some (e0.toNat + i * 4096)
  if !all then some pg
  else if same then some { pg with va := va / 65536 * 65536, size := 65536, pa := bitsOf e0 51 12 * 4096 }
  else
    let i := (Config.c64Pick va).toNat
    (es.getD i none).bind fun e =>
      if entryOk e 0 then some ⟨va / 4096 * 4096, 4096, bitsOf e 51 12 * 4096, e.getLsbD 1, e.getLsbD 2, e.getLsbD 3⟩ else none

/-- The L1 table that a walk of `va` reaches, where it reaches one. -/
def State.tableFor (s : State) (part va : Nat) : Nat → Nat → Option Nat
  | 0, t => some t
  | lvl + 1, t =>
    match s.tableEntry part (t + 8 * (va / 2 ^ (21 + 9 * lvl) % 512)) with
    | some e => if e.getLsbD 5 then none else s.tableFor part va lvl (bitsOf e 51 12 * 4096)
    | none => none

/-- The walk of a canonical address under an interface. -/
def State.walk (s : State) (part vi : Nat) (va : DWord) : Option PageMap :=
  let root := s.mr (xltReg vi 0)
  if !root.getLsbD 0 then none
  else
    let t := bitsOf root 51 12 * 4096
    match s.walkFrom part va.toNat 5 t with
    | none => none
    | some pg =>
      match s.tableFor part va.toNat 4 t with
      | some l1 =>
        match s.tableEntry part (l1 + 8 * (va.toNat / 4096 % 512)) with
        | some e => if e.getLsbD 6 then s.c64Page part l1 va.toNat pg else some pg
        | none => some pg
      | none => some pg

/-- A cached translation that serves an access of a place: a core's TLB, then its die's cache (15 R384). -/
def State.tlbHit (s : State) (core vi : Nat) (va : DWord) : Option PageMap :=
  let hit := fun place => s.tlb.find? fun t => t.place == place && t.vi == vi && t.va ≤ va.toNat && va.toNat < t.va + t.size
  ((hit core).orElse fun _ => hit (256 + dieOfCore core)).map fun t => ⟨t.va, t.size, t.pa, t.r, t.w, t.x⟩

/-- The page of a canonical address for an access from a core (log 10). A view page is never writable (04 R96). -/
def State.page (s : State) (core vi : Nat) (va : DWord) : Option PageMap :=
  let part := s.partOfCore core
  let pg := match s.tlbHit core vi va with
    | some p => some p
    | none => s.walk part vi va
  pg.map fun p =>
    let a := p.pa + (va.toNat - p.va)
    if isView a && (s.viewRange a).isSome then { p with w := false } else p

/-- The DPA of an address within its page. -/
def PageMap.dpa (p : PageMap) (va : DWord) : Nat := p.pa + (va.toNat - p.va)

/-- The kinds of permission an access needs. -/
inductive Perm where
  | read | write | exec | rw
  deriving DecidableEq, Repr

def PageMap.allows (p : PageMap) : Perm → Bool
  | .read => p.r
  | .write => p.w
  | .exec => p.x
  | .rw => p.r && p.w

/-- The interface a group translates under: its own; for a privileged group that of the group its %wsel selects (15
R474). -/
def State.xltVi (s : State) (core : Nat) (g : Group) : Option Nat :=
  if isRanene core then
    let c := bitsOf g.wsel 15 8
    if 144 ≤ c || !(s.diesOf (s.partOfCore core)).getLsbD (dieOfCore c) then none
    else
      match s.group c (bitsOf g.wsel 7 0) with
      | some h => if h.ended then none else some h.vi
      | none => none
  else some g.vi

/-! ### Code (03 R48, R49, 15 R474) -/

/-- The byte address of a packet. -/
def packetAddr (pn : DWord) : Nat := pn.toNat / 10 * 128 + pn.toNat % 10 * 12

/-- The byte address of a packet as its group sees it (03 R49, 15 R474). -/
def packetVa (core : Nat) (pn : DWord) : DWord :=
  BitVec.ofNat 64 (packetAddr pn + if isRanene core then 0xFF30000001000000 else 0)

/-- The addresses of the table entries that a walk reads (15 R382), the sixteen of a 64-KiB group among them. -/
def State.walkReads (s : State) (part va : Nat) : Nat → Nat → List Nat
  | 0, _ => []
  | lvl + 1, table =>
    let a := table + 8 * (va / 2 ^ (12 + 9 * lvl) % 512)
    a :: match s.tableEntry part a with
      | some e =>
        if e.getLsbD 6 && lvl == 0 then (List.range 16).map fun i => table + 8 * (va / 65536 * 16 % 512) + 8 * i
        else if entryOk e lvl && !e.getLsbD 5 then s.walkReads part va lvl (bitsOf e 51 12 * 4096) else []
      | none => []

/-- The line that holds a packet, with its poison; the cause where it is not mapped or not executable. -/
def State.codeRaw (s : State) (core : Nat) (g : Group) (pn : DWord) : Except (BitVec 8) (Line × Bool) :=
  let a := packetAddr pn
  if isRanene core then
    if 0x8000000 ≤ a then .error causeTranslation
    else .ok (Line.ofBytes (s.readBytes (mgmtCell (0x1000000 + a / 128 * 128)) 128), false)
  else if 2 ^ 56 ≤ a then .error causeTranslation
  else
    let addr := BitVec.ofNat 64 a
    match s.page core g.vi addr with
    | none => .error causeTranslation
    | some p =>
      let line := p.dpa addr / 128 * 128
      if !p.x then .error causeProtection
      else if isHostDpa line then .ok (Line.ofBytes (s.readBytes (hostCell (s.pasid g.vi) (line % 2 ^ 51)) 128), false)
      else .ok (s.latest (s.partOfCore core) line)

/-- The line of code that holds a packet, or the fetch fault of rows 1 and 2 of Table 03-15. A poisoned line, for which the
table has no row, traps POISON after translation and permission and before every other check (DESIGN CHOICE, log 58). -/
def State.codeLine (s : State) (core : Nat) (g : Group) (pn : DWord) : Except FaultInfo Line :=
  let bad := fun (c : BitVec 8) => Except.error (FaultInfo.withAddr c (packetVa core pn))
  match s.codeRaw core g pn with
  | .error c => bad c
  | .ok (l, poison) =>
    if poison then bad causePoison
    else if Line.field l 120 8 != 0 then bad causeIllegalEncoding
    else .ok l

/-- The words of a packet in its line. -/
def packetOfLine (l : Line) (pn : DWord) : Vector Word 3 :=
  let o := pn.toNat % 10 * 12
  #v[BitVec.ofNat 32 (Line.field l o 4), BitVec.ofNat 32 (Line.field l (o + 4) 4), BitVec.ofNat 32 (Line.field l (o + 8) 4)]

end Sys2Proof.Machine
end

