-- ==== Sys2Proof/Machine/Coherence.lean ====
section
/-!
DEFINITION. Homes, cluster caches and the messages between them (05, 06 R142): directory entries and their check bits,
looking an event up in the image of its line and performing the entry's actions, invalidations, updates and forwards at
a cluster, and installing and dropping lines. Replies reach instructions in `Mem`.
-/
namespace Sys2Proof.Machine

/-! ### Directory entries (05 R132 to R135) -/

/-- The fields of a directory entry (05 Table 05-10a). -/
structure Dir where
  state : Nat
  coarse : Bool
  h : Bool
  o : Bool
  ptrs : List Nat
  vec : BitVec 24
  acks : Nat
  deriving DecidableEq, Repr

/-- Bits set in a number below 2^7. -/
def pop7 (n : Nat) : Nat := ((List.range 7).filter fun i => n.testBit i).length

/-- The column of each data bit: the 7-bit numbers with 3 or 5 bits set, ascending (05 R133). -/
def checkCols : List Nat := (List.range 128).filter fun n => pop7 n == 3 || pop7 n == 5

/-- CHK over bits 55:0 (05 R133). -/
def dirCheck (d : Nat) : Nat :=
  let low := (checkCols.zipIdx).foldl (fun a c => if d.testBit c.2 then a ^^^ c.1 else a) 0
  let par := ((List.range 56).filter fun i => d.testBit i).length + pop7 low
  low + 128 * (par % 2)

/-- A directory word with its check bits. -/
def Dir.pack (d : Dir) : DWord :=
  let body := if d.coarse then d.vec.toNat * 2 ^ 10
    else (d.ptrs.zipIdx).foldl (fun a p => a + p.1 % 128 * 2 ^ (10 + 7 * p.2)) 0
  let x := body + d.acks % 256 * 2 ^ 38 + (if d.coarse then 0 else d.ptrs.length) * 2 ^ 46 + bitNat d.o 49 + bitNat d.h 50 +
    bitNat d.coarse 51 + d.state % 16 * 2 ^ 52
  BitVec.ofNat 64 (x + dirCheck x * 2 ^ 56)

/-- The fields of bits 55:0. -/
def Dir.ofBits (w : DWord) : Dir :=
  { state := bitsOf w 55 52, coarse := w.getLsbD 51, h := w.getLsbD 50, o := w.getLsbD 49,
    ptrs := if w.getLsbD 51 then [] else (List.range (bitsOf w 48 46)).map fun i => bitsOf w (16 + 7 * i) (10 + 7 * i),
    vec := if w.getLsbD 51 then w.extractLsb' 10 24 else 0, acks := bitsOf w 45 38 }

/-- What the check bits say of a directory word (05 R133). -/
inductive DirRead where
  | clean (w : DWord)
  | corrected (w : DWord)
  | bad (w : DWord)
  deriving DecidableEq, Repr

/-- The word after checking: single-bit errors are corrected. -/
def dirRead (w : DWord) : DirRead :=
  if w == 0 then .clean 0
  else
    let d := w.toNat % 2 ^ 56
    let c := w.toNat / 2 ^ 56
    let x := dirCheck d
    let syn := (x % 128) ^^^ (c % 128)
    let par := (((List.range 56).filter fun i => d.testBit i).length + pop7 (c % 128) + c / 128) % 2
    if syn == 0 && par == 0 then .clean w
    else if par == 0 then .bad w
    else if pop7 syn ≤ 1 then .corrected (BitVec.ofNat 64 (d + x * 2 ^ 56))
    else
      match checkCols.findIdx? (· == syn) with
      | some i => let e := d ^^^ 2 ^ i; .corrected (BitVec.ofNat 64 (e + dirCheck e * 2 ^ 56))
      | none => .bad w

/-- The agents an entry records (05 R134, R135): in coarse mode every cluster of every set group. -/
def Dir.agents (d : Dir) : List Nat :=
  if d.coarse then (List.range 72).filter fun c => d.vec.getLsbD (c / 3) else d.ptrs

def Dir.records (d : Dir) (a : Nat) : Bool := !d.coarse && d.ptrs.contains a

/-- ADD_REQ (05 Table 05-6, R134): the pointers of a requester that is recorded already do not change, and O is cleared as
the table says, also where that requester is the owner (DEDUCED, log 58). -/
def Dir.addReq (d : Dir) (a : Nat) : Dir :=
  if 72 ≤ a then d
  else if d.coarse then { d with vec := d.vec ||| ((1 : BitVec 24) <<< (a / 3)), o := false }
  else if d.ptrs.contains a then { d with o := false }
  else if d.ptrs.length < 4 then { d with ptrs := d.ptrs ++ [a], o := false }
  else { d with coarse := true, o := false, ptrs := [],
                vec := (a :: d.ptrs).foldl (fun v p => v ||| ((1 : BitVec 24) <<< (p / 3))) 0 }

def Dir.setOwner (d : Dir) (a : Nat) : Dir :=
  if 72 ≤ a then d else { d with coarse := false, o := true, ptrs := [a], vec := 0 }

def Dir.clear (d : Dir) : Dir := { d with coarse := false, o := false, ptrs := [], vec := 0 }

/-! ### Events and images -/

/-- The codes of Table 05-5. -/
def Event.code : Event → Nat
  | .gets => 0 | .getm => 1 | .getu => 2 | .puts => 3 | .putm => 4 | .ack => 5 | .data => 6 | .atom => 7 | .recall => 8
  | .leasex => 9 | .hsnp => 10 | .ue => 11 | .hget => 12 | .hput => 13 | .ncr => 14 | .ncw => 15

/-- An answer to a message of the home. -/
def Event.isAnswer (e : Event) : Bool := e == .ack || e == .data || e == .hsnp

/-- A request that a transaction may serve (05 R124). -/
def Event.isRequest (e : Event) : Bool :=
  e == .gets || e == .getm || e == .getu || e == .atom || e == .recall || e == .hget || e == .ncr || e == .ncw || e == .ue

def Image.entry (i : Image) (st : Nat) (e : Event) : Word := i.entries.getD (16 * st + e.code) 0
def Image.defined (i : Image) (st : Nat) (e : Event) : Bool := (i.defs.getD st 0).getLsbD e.code
def Image.inNocopy (i : Image) (st : Nat) : Bool := i.nocopy.getLsbD st
def Image.inShare (i : Image) (st : Nat) : Bool := i.share.getLsbD st
def Image.inTransient (i : Image) (st : Nat) : Bool := i.transient.getLsbD st

/-- Action `a` of an entry (05 Table 05-6). -/
def act (e : Word) (a : Nat) : Bool := e.getLsbD (4 + a)

/-- The cache-side state of a grant code (05 Table 05-4). -/
def CState.ofCode (n : Nat) : Option CState :=
  match n with
  | 1 => some .s | 2 => some .e | 3 => some .m | 4 => some .l | 5 => some .u | 6 => some .p | _ => none

/-! ### Messages -/

def Msg.blank (kind : MsgKind) (part line peer : Nat) : Msg :=
  { kind := kind, part := part, line := line, peer := peer, tag := 0, ref := none, data := 0, mask := 0, poison := false,
    full := false, cls := 0, excl := false, expiry := 0, vt := none, rvt := 0, mop := none, accs := [], vi := 0, granted := 0,
    eng := false }

def State.send (s : State) (m : Msg) : State := { s with net := s.net ++ [m] }

/-- An event for the home of a line. -/
def State.sendHome (s : State) (e : Event) (part line peer : Nat) (f : Msg → Msg) : State :=
  s.send (f (Msg.blank (.home e) part line peer))

/-! ### Lines in DRAM -/

/-- Adds to a running accounting count of an interface (18 R453). -/
def State.count (s : State) (vi i n : Nat) : State :=
  if s.viEnabled vi then
    { s with acct := s.acct.edit vi Acct.zero fun a => { a with run := a.run.set i (a.run.getD i 0 + n) } }
  else s

/-- Corrected errors of a DRAM line are counted (04 R86). -/
def State.countCe (s : State) (cell : Nat) : State :=
  let n := (s.ce.filter fun c => cell ≤ c && c < cell + 128).length
  { s with corrected := s.corrected + n }

/-- An access to an unbacked line tells the Ranene core of its home's die (04 R87). -/
def State.unbackedEvent (s : State) (part line : Nat) : State :=
  s.event (s.homeSlice part line / 48) 0x04 0 (BitVec.ofNat 64 line) 0

/-- A whole line is written to DRAM; its poison mark and its column errors are replaced. A write to an unbacked line is
discarded with an event (04 R87). -/
def State.writeMemLine (s : State) (part line : Nat) (l : Line) (poison : Bool) : State :=
  match s.dpaKind part line with
  | .dram c =>
    let out := fun (x : Nat) => !(c ≤ x && x < c + 128)
    let s := s.writeBytes c (Line.toBytes l)
    { s.openFor line with
      poison := (if poison then [c] else []) ++ s.poison.filter (· != c), ue := s.ue.filter out, ce := s.ce.filter out }
  | .host a => s.writeBytes (hostCell 0 a) (Line.toBytes l)
  | .view _ => s
  | .unbacked => s.unbackedEvent part line

/-! ### Reads that take no copy: the walker, the view decoder, code (04 R86, R87, R95; 15 R382) -/

/-- An agent's cache or the slice holds the line, or it is on its way to its home: DRAM is not read. -/
def State.heldSomewhere (s : State) (part line : Nat) : Bool :=
  (s.net.any fun m => m.part == part && m.line == line && m.full && (m.kind == .home .putm || m.kind == .home .data)) ||
  ((s.clustersOf part).any fun c => match (s.cluster c).lines.find line with
    | some l => l.st == .m || l.st == .e
    | none => false) || (s.home part line).here

/-- What a read of a normal- or compute-window line does beside giving its latest value: a corrected error is counted, an
unbacked line raises an event. -/
def State.noteDram (s : State) (part line : Nat) : State :=
  if s.heldSomewhere part line then s
  else match s.dpaKind part line with
    | .dram c => s.countCe c
    | .unbacked => s.unbackedEvent part line
    | _ => s

/-- The lines of the codes, the scales and the super-scale that a view line is decoded from. -/
def State.viewSources (s : State) (k a : Nat) : List Nat :=
  let bf := (s.mr (fmtReg k 2)).toNat % 4 == 2
  let off := a - (s.mr (fmtReg k 0)).toNat
  let i0 := if bf then off / 2 else off
  let r := (s.mr (fmtReg k 4)).toNat + 272 * (i0 / 16384)
  ([(s.mr (fmtReg k 3)).toNat + i0 / 2, r + i0 / 64 % 256, r + 256].map fun x => x / 128 * 128).eraseDups

/-- As `noteDram`, for any line. -/
def State.noteRead (s : State) (part line : Nat) : State :=
  match s.dpaKind part line with
  | .view k => if (s.home part line).here then s else (s.viewSources k line).foldl (fun s l => s.noteDram part l) s
  | _ => s.noteDram part line

/-! ### The translation caches (15 R384) -/

/-- Entries a core's TLB and a die's cache hold. -/
def tlbRoom (place : Nat) : Nat := if place < 256 then 4096 else 65536

/-- A translation is cached; the oldest of a full cache goes. -/
def State.cacheTlb (s : State) (t : Tlb) : State :=
  let same := fun (x : Tlb) => x.place == t.place && x.vi == t.vi && x.va == t.va && x.size == t.size
  let others := s.tlb.filter fun x => !same x
  let full : Bool := tlbRoom t.place ≤ (others.filter fun x => x.place == t.place).length
  let others := if full then
      match others.findIdx? fun x => x.place == t.place with
      | some i => others.eraseIdx i
      | none => others
    else others
  { s with tlb := others ++ [t] }

/-- A walk of an address for a core (15 R382): its reads, and a page found is cached at the core and at its die. -/
def State.walkFor (s : State) (core vi : Nat) (va : DWord) : State :=
  let part := s.partOfCore core
  let root := s.mr (xltReg vi 0)
  if !root.getLsbD 0 then s
  else
    let pg := s.walk part vi va
    let as := (s.walkReads part va.toNat 5 (bitsOf root 51 12 * 4096)).map fun a => a / 128 * 128
    let s := as.eraseDups.foldl (fun s l => s.noteRead part l) s
    match pg with
    | none => s
    | some p =>
      let t := fun (place : Nat) => Tlb.mk place vi p.va p.size p.pa p.r p.w p.x
      (s.cacheTlb (t core)).cacheTlb (t (256 + dieOfCore core))

/-- An access of a core to a canonical address: what its TLB misses comes from the die's cache, or from a walk (15 R384). -/
def State.touch (s : State) (core vi : Nat) (va : DWord) : State :=
  let at' := fun place => s.tlb.find? fun t => t.place == place && t.vi == vi && t.va ≤ va.toNat && va.toNat < t.va + t.size
  if !isUser va || (at' core).isSome then s
  else match at' (256 + dieOfCore core) with
    | some t => s.cacheTlb { t with place := core }
    | none => s.walkFor core vi va

/-- As `touch`, for the addresses that a group accesses, under the interface it translates for (15 R474). -/
def State.touchAll (s : State) (core : Nat) (g : Group) (vas : List DWord) : State :=
  match s.xltVi core g with
  | some vi => vas.foldl (fun s a => s.touch core vi a) s
  | none => s

/-- What a read of a line below its home does beside giving its bytes: corrected errors are counted, the bytes charged, a row
opened, an unbacked line tells Ranene (04 R86, R87, R103; 18 R453). -/
def State.readMem (s : State) (part line vi : Nat) : State :=
  match s.dpaKind part line with
  | .dram c => ((s.countCe c).count vi 4 128).openFor line
  | .unbacked => s.unbackedEvent part line
  | .view _ => s.noteRead part line
  | .host _ => s

/-- READ_MEM: the home copy, filled on a slice miss (05 Table 05-6); the fill is charged (18 R453). -/
def State.fillHome (s : State) (part line vi : Nat) (h : HomeLine) : State × HomeLine :=
  if h.here then (s, { h with used := s.clk })
  else
    let (l, p) := s.memLine part line
    (s.readMem part line vi, { h with here := true, data := l, dirty := false, poison := p, used := s.clk })

/-- The home copy is written back if dirty and dropped. -/
def State.dropHomeCopy (s : State) (part line : Nat) (h : HomeLine) : State × HomeLine :=
  let s := if h.here && h.dirty then (s.writeMemLine part line h.data h.poison).count h.lastVi 5 128 else s
  (s, { h with here := false, dirty := false })

/-! ### Atomics at a line (07 Table 07-7, R187, R188) -/

/-- Two's complement of the low n bits. -/
def signedOf (n x : Nat) : Int := if 2 ^ (n - 1) ≤ x % 2 ^ n then Int.ofNat (x % 2 ^ n) - Int.ofNat (2 ^ n) else Int.ofNat (x % 2 ^ n)

def addHalves (f : Fmt) (m x : Nat) : Nat :=
  (f.addF .rne (m % 65536) (x % 65536)).1 + 65536 * (f.addF .rne (m / 65536) (x / 65536)).1

/-- The new memory value of atomic F. -/
def atomNew (f m x : Nat) : Nat :=
  match f with
  | 0 => (m + x) % 2 ^ 32
  | 1 => (Fmt.f32.addF .rne m x).1
  | 2 => if signedOf 32 m ≤ signedOf 32 x then m else x
  | 3 => if signedOf 32 x ≤ signedOf 32 m then m else x
  | 4 => min m x
  | 5 => max m x
  | 6 => m &&& x
  | 7 => m ||| x
  | 8 => m ^^^ x
  | 9 => x
  | 10 => if x ≤ m then 0 else m + 1
  | 11 => if m == 0 || x < m then x else m - 1
  | 12 => (m + x) % 2 ^ 64
  | 13 => x
  | 14 => addHalves .f16 m x
  | _ => addHalves .bf16 m x

/-- The lanes of one combined request performed in ascending lane order on a line: each access comes back with the value
just before it (07 R187). Stores, reductions and compare-and-swap alike. -/
def performAccs (op : MemOp) (l : Line) : List Acc → Line × List Acc
  | [] => (l, [])
  | a :: r =>
    let old := Line.field l a.off op.size
    let new := match op.kind with
      | .store | .storeS | .spill | .czero => a.val.toNat
      | .cas => if old == a.cmp.toNat % 2 ^ (8 * op.size) then a.val.toNat else old
      | .atom | .red => atomNew op.f old (a.val.toNat % 2 ^ (8 * op.size))
      | _ => old
    let l' := match op.kind with
      | .load | .loadS | .ldo | .fill => l
      | _ => Line.setField l a.off op.size new
    let (l'', rs) := performAccs op l' r
    (l'', { a with got := BitVec.ofNat 128 old } :: rs)

/-- The bytes that accesses touch. -/
def accsMask (size : Nat) (as : List Acc) : BitVec 128 := as.foldl (fun m a => m ||| byteMask a.off size) 0

/-- The accesses of a store as bytes of a line. -/
def accsLine (op : MemOp) (as : List Acc) : Line := (performAccs op 0 as).1

/-! ### Performing an image entry (05 R121 to R123) -/

/-- The sector, die x 3 + sector, of a cluster and of a slice. -/
def sectorOfCluster (c : Nat) : Nat := c / 6
def sectorOfSlice (x : Nat) : Nat := x / 16

/-- The host port that serves a partition's die (17 R414): one BISnp per port (17 R421). -/
def portsOf (dies : BitVec 4) : List Nat :=
  (if dies.getLsbD 0 || dies.getLsbD 1 then [0] else []) ++ (if dies.getLsbD 2 || dies.getLsbD 3 then [1] else [])

/-- The last answer to the host: half `hi` of a line. -/
def State.answerHost (s : State) (kind about : Nat) (poison : Bool) (bs : List Byte) : State :=
  { s with out := { s.out with answer := some ⟨kind, about, poison, bs⟩ } }

/-- The reply of the home to the request of a transaction (05 R123, R139, R300). -/
def homeReply (s : State) (h : HomeLine) (d0 : Dir) (e : Word) (req : Msg) (ev : Event)
    (accs : List Acc) (refused : Bool) : State :=
  let unc := ev == .ncr || ev == .ncw
  let lease := act e 14 && !unc
  let grantT := max (s.ns + s.lineLease req.line) 0
  let repl := act e 21 && !unc && s.lineRepl req.line && (s.rangeOf req.line).isSome
  let cls := if unc then 4 else if act e 1 then 1 else if act e 22 then 4 else if repl then 3
    else if act e 0 && lease then 2 else 0
  let leaseT := h.lease.getD 0
  let vtDev := max s.ns leaseT
  let m : Msg := { req with
    granted := s.ns, vi := h.lastVi
    kind := .reply ev, data := h.data, poison := h.poison || act e 20 || refused, full := !(ev == .getu && d0.records req.peer),
    cls := cls, excl := act e 1, expiry := if lease then grantT else 0,
    vt := if act e 15 then some (s.ns, vtDev, vtDev) else none, rvt := if s.ns < leaseT then leaseT else 0,
    accs := accs, mask := if ev == .getu then req.mask else 0 }
  let wants := act e 0 || act e 1 || act e 21 || act e 22
  if ev == .recall || ev == .ue then s
  else if ev == .hget then
    if act e 0 then
      let hi := req.mask.getLsbD 64
      s.answerHost 1 (req.line + (if hi then 64 else 0)) m.poison (((Line.toBytes h.data).drop (if hi then 64 else 0)).take 64)
    else s
  else if repl && sectorOfCluster req.peer != sectorOfSlice (s.homeSlice req.part req.line) then
    s.send { m with kind := .fill ev, cls := 3 }
  else if wants then
    -- the data of a forwarded GETU's sender goes back as its written bytes
    s.send (if ev == .getu && d0.records req.peer then { m with data := req.data } else m)
  else s

/-- Messages to the agents an entry records, and how many. -/
def toAgents (s : State) (part line tag : Nat) (agents : List Nat) (kind : MsgKind) (f : Msg → Msg) : State × Nat :=
  (agents.foldl (fun s a => s.send (f { Msg.blank kind part line a with tag := tag })) s, agents.length)

/-- Step 1: WRITE_MEM of the data an event carries. -/
def State.entryWrite (s : State) (e : Word) (m : Msg) (h : HomeLine) : State × HomeLine :=
  if !act e 10 then (s, h)
  else if m.full then (s, { h with here := true, dirty := true, data := m.data, poison := m.poison, lastVi := m.vi })
  else
    let (s, h) := s.fillHome m.part m.line m.vi h
    (s, { h with dirty := true, data := Line.merge h.data m.data m.mask, poison := h.poison && !(m.mask == BitVec.allOnes 128),
                 lastVi := m.vi })

/-- Step 3: the messages to the agents that an entry records, and how many there are. -/
def State.entrySends (s : State) (ev reqEv : Event) (e : Word) (d : Dir) (m req : Msg) (tag : Nat) : State × Nat :=
  let others := d.agents.filter (· != req.peer)
  let (s, n1) := if act e 2 then toAgents s m.part m.line tag (if ev == .ue then d.agents else others) .inv id else (s, 0)
  let (s, n2) := if act e 3 then toAgents s m.part m.line tag others .upd (fun x => { x with data := m.data, mask := m.mask })
    else (s, 0)
  let (s, n3) := if act e 4 && d.o then toAgents s m.part m.line tag (d.ptrs.take 1) (.fwd reqEv) id else (s, 0)
  let (s, n4) := if act e 17 && d.h then
      toAgents s m.part m.line tag ((portsOf (s.diesOf m.part)).map (76 + ·)) .bisnp id else (s, 0)
  (s, n1 + n2 + n3 + n4)

/-- Step 4: PERFORM_ATOM on the home copy: the copy, the accesses with their old values, and whether poison refuses it. -/
def entryPerform (e : Word) (reqEv : Event) (req : Msg) (h : HomeLine) : HomeLine × List Acc × Bool :=
  let whole := reqEv == .ncw && req.mask == BitVec.allOnes 128
  let refused := act e 16 && h.poison && !whole
  if !act e 16 || refused then (h, req.accs, refused)
  else if reqEv == .ncw then
    ({ h with dirty := true, data := Line.merge h.data req.data req.mask, poison := h.poison && !whole, lastVi := req.vi },
      req.accs, false)
  else
    match req.mop with
    | some op =>
      let (l, as) := performAccs op h.data req.accs
      ({ h with dirty := true, data := l, lastVi := req.vi }, as, false)
    | none => (h, req.accs, false)

/-- Steps 6 and 7: the records of an entry; those of an uncached transaction record nobody (R123). -/
def entryRecords (e : Word) (reqEv : Event) (peer : Nat) (d : Dir) : Dir :=
  let unc := reqEv == .ncr || reqEv == .ncw
  let d := if act e 9 then d.clear else d
  let d := if act e 19 then { d with h := false } else d
  let d := if act e 7 && !unc then d.addReq peer else d
  let d := if act e 8 && !unc then d.setOwner peer else d
  if act e 18 then { d with h := true } else d

/-- The next state of an entry; a state in SHARE that would record nobody is state 0 (R125). -/
def Image.nextState (i : Image) (e : Word) (d : Dir) : Nat :=
  let nxt := e.toNat % 16
  if i.inShare nxt && !i.inTransient nxt && !d.coarse && d.ptrs.isEmpty then 0 else nxt

/-- The DPA of a line goes to Ranene with slice, image, state and event (R121, R125). -/
def State.lineEvent (s : State) (src : Nat) (ev : Event) (part line state : Nat) : State :=
  s.event (s.homeSlice part line / 48) src (s.homeSlice part line + s.imageSlot line * 256 + state * 2048)
    (BitVec.ofNat 64 line) (BitVec.ofNat 64 ev.code)

/-- A request of a cluster or an instruction, which a reply answers. -/
def Event.replied (ev : Event) : Bool := ev.isRequest && ev != .hget && ev != .recall && ev != .ue

/-- An event that the image does not define in the line's state: the line is poisoned, a requester gets poison, Ranene an
event (R125). -/
def undefinedEntry (s : State) (ev : Event) (m : Msg) (state : Nat) : State :=
  let (s, h) := s.fillHome m.part m.line m.vi (s.home m.part m.line)
  let h := { h with poison := true }
  let s := s.setHome m.part m.line h
  let s := if ev.replied then
      s.send { m with kind := .reply ev, data := h.data, poison := true, full := true, cls := 4, excl := false }
    else if ev == .hget then s.answerHost 1 m.line true (List.replicate 64 0) else s
  s.lineEvent 0x02 ev m.part m.line state

/-- NACK, which is the reply of its entry: the requester retries, or is refused (R125). -/
def nackReply (s : State) (e : Word) (ev : Event) (req : Msg) : State :=
  let refusal := act e 23 && (ev == .getm || ev == .getu || ev == .atom || ev == .ncw)
  if ev.replied then
    s.send { req with kind := .reply ev, cls := if refusal then 6 else 5, full := false, excl := false, granted := s.ns }
  else s

/-- A PUTM stands for the owner's answer to a forward, which is then not counted (R124, R136). -/
def putmMark (ev : Event) (m : Msg) (txn : Option (Msg × Nat)) : Option (Msg × Nat) :=
  if ev == .putm then txn.map fun t => ({ t.1 with rvt := m.peer + 1 }, t.2) else txn

/-- Steps 3 to 8, with the home copy and the directory entry that steps 1 and 2 leave: the machine, and the messages that
SET_ACKS counts. The lease is recorded as the reply grants it. A new transaction takes a new tag (R124). Queued events are
looked up again when the state changes, and what waits for a UE recall once it has ended (R137, R138). Every UE entry raises
its event, with the state as read, which the event's message holds in `cls`. -/
def performEntry (s : State) (img : Image) (e : Word) (ev reqEv : Event) (m req : Msg) (tag : Nat) (h : HomeLine) (d : Dir) :
    State × Nat :=
  let (s, n) := s.entrySends ev reqEv e d m req tag
  let s := if act e 5 || (ev.isRequest && img.inTransient (e.toNat % 16)) then { s with tag := s.tag + 1 } else s
  let (s, h) := if act e 11 || act e 16 then s.fillHome m.part m.line req.vi h else (s, h)
  let (h, accs, refused) := entryPerform e reqEv req h
  let lease := if act e 14 && reqEv != .ncr && reqEv != .ncw then some (max (h.lease.getD 0) (s.ns + s.lineLease m.line))
    else h.lease
  let s := if act e 13 then nackReply s e reqEv req else homeReply s h d e req reqEv accs refused
  let d := entryRecords e reqEv req.peer (if act e 5 then { d with acks := n } else d)
  let s := if ev == .ue then s.lineEvent 0x01 ev m.part m.line m.cls
    else if act e 23 then s.lineEvent 0x03 ev m.part m.line d.state else s
  let nxt := img.nextState e d
  let txn := if !img.inTransient nxt then none else if ev.isRequest then some (req, tag) else h.txn
  let txn := putmMark ev m txn
  let (again, queue) := if nxt != d.state then (h.queue, []) else ([], h.queue)
  let ended := !img.inTransient nxt
  let again := (if ended then h.ueWait else []) ++ again
  let h := { h with lease := lease, poison := h.poison || act e 20, dir := Dir.pack { d with state := nxt }, txn := txn,
                    queue := queue, used := s.clk, ueData := if ended then none else h.ueData,
                    ueWait := if ended then [] else h.ueWait }
  ({ s.setHome m.part m.line h with net := again ++ s.net }, n)

/-- Looks an event up and performs its entry in the order of R122; `fuel` bounds the ACK entries that follow a
SET_ACKS of 0. -/
def applyEntry : Nat → State → Event → Msg → State
  | 0, s, _, _ => s
  | fuel + 1, s, ev, m =>
    let img := s.imageOf m.line
    let h := s.home m.part m.line
    let d := Dir.ofBits h.dir
    let e := img.entry d.state ev
    let (req, tag) := if ev.isRequest then (m, s.tag) else h.txn.getD (m, s.tag)
    let reqEv := match req.kind with
      | .home x => x
      | _ => ev
    if !img.defined d.state ev then undefinedEntry s ev m d.state
    else if act e 12 then s.setHome m.part m.line { h with queue := h.queue ++ [m] }
    else
      let (s, h) := s.entryWrite e m h
      let d := if ev == .hsnp && act e 19 then { d with h := false } else d
      let d := if act e 6 then { d with acks := d.acks - 1 } else d
      if act e 6 && d.acks != 0 then s.setHome m.part m.line { h with dir := d.pack, txn := putmMark ev m h.txn }
      else
        let (s, n) := performEntry s img e ev reqEv m req tag h d
        if act e 5 && n == 0 then
          applyEntry fuel s .ack { Msg.blank (.home .ack) m.part m.line req.peer with tag := tag, vi := m.vi }
        else s

/-- An answer that is not of the line's transaction, or that a PUTM has replaced (R124). -/
def HomeLine.stale (h : HomeLine) (ev : Event) (m : Msg) : Bool :=
  ev.isAnswer && match h.txn with
    | some t => t.2 != m.tag || t.1.rvt == m.peer + 1
    | none => true

/-- R138: the DATA of a UE recall are counted, and a second one poisons the line. -/
def State.countData (s : State) (ev : Event) (m : Msg) : State × Msg :=
  let h := s.home m.part m.line
  match h.ueData with
  | none => (s, m)
  | some n =>
    if ev != .data then (s, m)
    else
      let s := s.setHome m.part m.line { h with ueData := some (n + 1) }
      if n == 0 then (s, m)
      else (s.event (s.homeSlice m.part m.line / 48) 0x07 0 (BitVec.ofNat 64 m.line) 0, { m with poison := true })

/-- An event on a line whose directory word is sound: what R125 does before the lookup. -/
def soundLookup (s : State) (ev : Event) (m : Msg) : State :=
  let h := s.home m.part m.line
  let d := Dir.ofBits h.dir
  if ev == .puts && !d.coarse then
    if !d.ptrs.contains m.peer then s
    else
      let d := { d with ptrs := d.ptrs.filter (· != m.peer), o := false }
      applyEntry 4 (s.setHome m.part m.line { h with dir := d.pack }) .puts m
  else applyEntry 4 s (if ev == .getu && !d.records m.peer then .getm else ev) m

/-- The agent that events a home raises itself stand for: the Ranene core of its die (01 R10). -/
def State.homeAgent (s : State) (part line : Nat) : Nat := 72 + s.homeSlice part line / 48

/-- RECALL, which a home raises. -/
def State.recallMsg (s : State) (part line : Nat) : Msg := Msg.blank (.home .recall) part line (s.homeAgent part line)

/-- An uncorrectable entry is rebuilt, its UE entry applied, and the event waits (R137); a read-only mark may be lost
(R472). -/
def rebuildEntry (s : State) (w : DWord) (m : Msg) : State :=
  let h := s.home m.part m.line
  let img := s.imageOf m.line
  let st := bitsOf w 55 52
  let d : Dir := { state := if img.defs.getD st 0 == 0 then 0 else st, coarse := true, h := s.lineHcoh m.line, o := false,
                   ptrs := [], vec := BitVec.allOnes 24, acks := 0 }
  let s := s.setHome m.part m.line { h with dir := d.pack, ueData := some 0, ueWait := h.ueWait ++ [m] }
  let s := if s.imageSlot m.line == 3 && st == 8 then
      s.event (s.homeSlice m.part m.line / 48) 0x0A 0 (BitVec.ofNat 64 m.line) 0 else s
  applyEntry 4 s .ue { Msg.blank (.home .ue) m.part m.line (s.homeAgent m.part m.line) with vi := m.vi, cls := st }

/-- An event is looked up at its home (R124, R125, R133, R137). -/
def homeLookup (s : State) (ev : Event) (m : Msg) : State :=
  let h := s.home m.part m.line
  if h.stale ev m then s
  else
    match dirRead h.dir with
    | .bad w => rebuildEntry s w m
    | .clean _ =>
      let (s, m) := s.countData ev m
      soundLookup s ev m
    | .corrected w =>
      let (s, m) := { s.setHome m.part m.line { h with dir := w } with corrected := s.corrected + 1 }.countData ev m
      soundLookup s ev m

/-! ### Bias (17 R422 to R424) -/

/-- The enabled host window of a partition that holds a page. -/
def State.windowOf (s : State) (part page : Nat) : Option Nat :=
  (List.range 4).find? fun j =>
    let c := s.mr (hwReg j 0)
    let base := (s.mr (hwReg j 1)).toNat
    c.getLsbD 0 && bitsOf c 4 1 == (s.diesOf part).toNat && base ≤ page * 4096 &&
      page * 4096 < base + (s.mr (hwReg j 2)).toNat

/-- The byte of a window's bias table that holds a page's entry, and the entry's lowest bit in it. -/
def State.biasAt (s : State) (j page : Nat) : Nat × Nat :=
  let n := page - (s.mr (hwReg j 1)).toNat / 4096
  ((s.mr (hwReg j 3)).toNat + n / 4, n % 4 * 2)

/-- The bias of a page: 0 D, 1 H, 2 D to H, 3 H to D; D where it lies in no window. -/
def State.bias (s : State) (part page : Nat) : Nat :=
  match s.windowOf part page with
  | none => 0
  | some j =>
    let (a, b) := s.biasAt j page
    Line.field (s.latest part (a / 128 * 128)).1 (a % 128) 1 / 2 ^ b % 4

/-- The device writes a page's entry. -/
def State.setBias (s : State) (part page code : Nat) : State :=
  match s.windowOf part page with
  | none => s
  | some j =>
    let (a, b) := s.biasAt j page
    let line := a / 128 * 128
    let (s, h) := s.fillHome part line 0 (s.home part line)
    let old := Line.field h.data (a % 128) 1
    let new := old - old / 2 ^ b % 4 * 2 ^ b + code * 2 ^ b
    s.setHome part line { h with data := Line.setField h.data (a % 128) 1 new, dirty := true }

/-- The lines of a page. -/
def pageLines (page : Nat) : List Nat := (List.range 32).map fun i => page * 4096 + 128 * i

/-- The flip of a page that is in progress. -/
def State.flipOf (s : State) (part page : Nat) : Option Flip :=
  s.mgmt.flips.find? fun f => f.part == part && f.page == page

/-- The events that bias holds at the home of a line go on to it. -/
def State.unhold (s : State) (part line : Nat) (p : Msg → Bool) : State :=
  let h := s.home part line
  if h.held.any p then
    { s.setHome part line { h with held := h.held.filter fun m => !p m } with net := h.held.filter p ++ s.net }
  else s

/-- A line of a flipping page whose entry has reached a no-copy state with H clear is recalled; the requests held for it
are looked up, a host read only when the flip is to host bias (Table 17-4). -/
def State.noteRecall (s : State) (part line : Nat) : State :=
  match s.flipOf part (line / 4096) with
  | none => s
  | some f =>
    let d := Dir.ofBits (s.home part line).dir
    if f.recalled.contains line || d.h || !(s.imageOf line).inNocopy d.state then s
    else
      let g := { f with recalled := line :: f.recalled }
      let s := { s with mgmt := { s.mgmt with flips := s.mgmt.flips.map fun x => if x == f then g else x } }
      s.unhold part line fun m => f.toH || m.kind != .home .hget

/-- A flip begins: its entry, and RECALL on every line that needs one, in ascending order (R424). -/
def State.startFlip (s : State) (part page : Nat) (toH : Bool) : State :=
  let s := s.setBias part page (if toH then 2 else 3)
  let need := fun (l : Nat) =>
    let d := Dir.ofBits (s.home part l).dir
    if toH then !(s.imageOf l).inNocopy d.state else d.h
  let todo := (pageLines page).filter need
  let f : Flip := ⟨part, page, toH, (pageLines page).filter fun l => !need l⟩
  let s := { s with mgmt := { s.mgmt with flips := s.mgmt.flips ++ [f] } }
  todo.foldl (fun s l => (homeLookup s .recall (s.recallMsg part l)).noteRecall part l) s

/-- Every line of a flipping page is recalled: the entry is written, and held host reads go on. -/
def State.endFlip (s : State) (part page : Nat) : State :=
  match s.flipOf part page with
  | none => s
  | some f =>
    if f.recalled.length < 32 then s
    else
      let s := s.setBias part page (bitNat f.toH 0)
      let s := { s with mgmt := { s.mgmt with flips := s.mgmt.flips.filter (· != f) } }
      (pageLines page).foldl (fun s l => s.unhold part l fun _ => true) s

/-- A request that the bias of its page concerns: an HPUT, RECALL or UE is never held. -/
def Event.biased (e : Event) : Bool := e.isRequest && e != .recall && e != .ue

/-- An event arrives at its home (R423). A host read of a page in device bias starts a flip; an entry in a transitional
state without a flip is taken up as one (R422). -/
def homeEvent (s : State) (ev : Event) (m : Msg) : State :=
  let page := m.line / 4096
  let s := if ev.biased && (s.flipOf m.part page).isNone then
      match s.bias m.part page with
      | 2 => s.startFlip m.part page true
      | 3 => s.startFlip m.part page false
      | 0 => if ev == .hget then s.startFlip m.part page true else s
      | _ => s
    else s
  let keep : Bool := match s.flipOf m.part page with
    | some f => ev.biased && (!f.recalled.contains m.line || (ev == .hget && !f.toH))
    | none => false
  if keep then
    let h := s.home m.part m.line
    s.setHome m.part m.line { h with held := h.held ++ [m] }
  else (homeLookup s ev m).noteRecall m.part m.line

/-- An uncached line (an image with UNC) is never held in a slice: what the home holds goes back at once (04 R90). -/
def State.flushUncached (s : State) (part line : Nat) : State :=
  if (s.imageOf line).unc then
    let (s, h) := s.dropHomeCopy part line (s.home part line)
    s.setHome part line h
  else s

/-! ### The cluster cache (06 R142) -/

/-- The banks that take lines: CACHE banks that are not being drained (06 R143, R146). -/
def Cluster.ways (x : Cluster) : List Nat :=
  (List.range 32).filter fun b => (x.banks.getD b Bank.zero).mode == .cache && !(x.banks.getD b Bank.zero).drain

def cacheSet (a : Nat) : Nat := nbits a 7 34 % 768

/-- A line of the cache that an access may use now: a lease has not expired (05 R119). -/
def State.cached (s : State) (c line : Nat) : Option CLine :=
  ((s.cluster c).lines.find line).bind fun l => if l.st == .l && l.expiry < s.ns then none else some l

/-- A line leaves a cluster: a dirty one is written back, a tracked clean one is announced (05 Table 05-5). -/
def State.dropLine (s : State) (c line : Nat) : State :=
  let x := s.cluster c
  match x.lines.find line with
  | none => s
  | some l =>
    let s := s.setCluster c { x with lines := x.lines.drop line }
    let part := s.partOfCluster c
    match l.st with
    | .m => s.sendHome .putm part line c fun m => { m with data := l.data, poison := l.poison, full := true, vi := l.vi }
    | .s | .e | .u => s.sendHome .puts part line c id
    | .l | .p => s

/-- The cluster waits for a reply about the line. -/
def Cluster.pending (x : Cluster) (line : Nat) : Bool := x.mshr.any fun r => r.line == line

/-- Makes room in a set: the least recently used line goes, one with the keep mark only where all have it, one with a
GETU outstanding never (06 R142, 07 R182). The bank that becomes free comes back; none where nothing can go. -/
def State.makeRoom (s : State) (c line : Nat) : State × Option Nat :=
  let x := s.cluster c
  let inSet := x.lines.filter fun p => cacheSet p.1 == cacheSet line && p.1 != line
  let used := inSet.map fun p => p.2.bank
  match x.ways.find? fun b => !used.contains b with
  | some b => (s, some b)
  | none =>
    let can := inSet.filter fun p => !(x.mshr.any fun r => r.line == p.1 && r.ev == .getu)
    let pool := if can.any fun p => !p.2.keep then can.filter fun p => !p.2.keep else can
    let best := pool.foldl (fun (b : Option (Nat × CLine)) p => match b with
      | some q => if p.2.used < q.2.used then some p else b
      | none => some p) none
    match best with
    | some p => (s.dropLine c p.1, some p.2.bank)
    | none => (s, none)

/-- A line is placed in a cluster cache (06 R142, 07 R182 for the hint), as the home granted it (12 R300, R303), with the
interface that last wrote it. -/
def State.install (s : State) (c line vi : Nat) (st : CState) (data : Line) (poison : Bool) (granted expiry rvt : Nat)
    (hint : BitVec 2) : State :=
  let old := (s.cluster c).lines.find line
  let (s, bank) := match old with
    | some l => (s, some l.bank)
    | none => s.makeRoom c line
  match bank with
  | none => s
  | some b =>
    let x := s.cluster c
    let l : CLine := { bank := b, st := st, data := data, poison := poison, keep := hint == 2,
                       used := if hint == 1 then 0 else s.clk, granted := granted, expiry := expiry, rvt := rvt, vi := vi }
    s.setCluster c { x with lines := x.lines.put line l }

/-- Changes a line that a cluster holds. -/
def State.editLine (s : State) (c line : Nat) (f : CLine → CLine) : State :=
  let x := s.cluster c
  match x.lines.find line with
  | some l => s.setCluster c { x with lines := x.lines.put line (f l) }
  | none => s

/-- A message of a home at a cluster: invalidation, update or forward, and its answer (05 Table 05-6, R135, R136). -/
def clusterMsg (s : State) (m : Msg) : State :=
  let c := m.peer
  let x := s.cluster c
  let held := if s.partOfCluster c == m.part then x.lines.find m.line else none
  let answer := fun (s : State) (l : Option CLine) =>
    match l with
    | some l => s.sendHome .data m.part m.line c fun r => 
      { r with tag := m.tag, data := l.data, poison := l.poison, full := true, vi := l.vi }
    | none => s.sendHome .ack m.part m.line c fun r => { r with tag := m.tag }
  let gone := s.setCluster c { x with lines := x.lines.drop m.line }
  match m.kind, held with
  | .inv, some l => answer gone (if l.st == .m then some l else none)
  | .upd, some l =>
    if l.st == .s || l.st == .u then
      answer (s.editLine c m.line fun l =>
        { l with data := Line.merge l.data m.data m.mask, poison := l.poison && !(m.mask == BitVec.allOnes 128) }) none
    else answer s none
  | .fwd e, some l =>
    if l.st == .m || l.st == .e then
      let s := if e == .gets || e == .ncr then s.editLine c m.line fun l => { l with st := .s } else gone
      answer s (some l)
    else answer s none
  | _, _ => answer s none

/-- A replica slice takes a line (05 R112) and hands the requester its P copy. -/
def replicaMsg (s : State) (m : Msg) : State :=
  let slice := replicaSlice (sectorOfCluster m.peer) m.line
  let l : CLine := { bank := 0, st := .p, data := m.data, poison := m.poison, keep := false, used := s.clk,
                     granted := m.granted, expiry := 0, rvt := m.rvt, vi := m.vi }
  let s := { s with replicas := s.replicas.put (homeKey slice m.line) l }
  s.send { m with kind := .reply .gets }

/-- A copy in state L or P that was granted before a group's lease floor, times being whole ns: one granted in the ns of the
floor counts as before it (12 R303; log 60). -/
def beforeFloor (floor granted : Nat) : Bool := floor != 0 && granted ≤ floor

/-- A GETS of a cluster: served by its sector's replica slice where that holds the line and it was granted no earlier
than the group's floor, else sent to the home (05 R112, 12 R303). -/
def State.sendGets (s : State) (c line floor : Nat) (f : Msg → Msg) : State :=
  let part := s.partOfCluster c
  let slice := replicaSlice (sectorOfCluster c) line
  match s.replicas.find (homeKey slice line) with
  | some r =>
    if !beforeFloor floor r.granted then
      s.send (f { Msg.blank (.reply .gets) part line c with
        data := r.data, poison := r.poison, full := true, cls := 3, granted := r.granted, rvt := r.rvt })
    else
      let s := { s with replicas := s.replicas.drop (homeKey slice line) }
      s.sendHome .gets part line c f
  | none => s.sendHome .gets part line c f

/-- Every replica and P or L copy of a line is dropped (05 R116, 07 Table 07-10). -/
def State.dropReplicas (s : State) (part line : Nat) : State :=
  let s := { s with replicas := s.replicas.filter fun p =>
    !(p.1 % 2 ^ 52 == line && (s.diesOf part).getLsbD (p.1 / 2 ^ 52 / 48)) }
  (s.clustersOf part).foldl (fun s c =>
    match (s.cluster c).lines.find line with
    | some l => if l.st == .p || l.st == .l then s.setCluster c { s.cluster c with lines := (s.cluster c).lines.drop line } else s
    | none => s) s

end Sys2Proof.Machine
end

