-- ==== Sys2Proof/Machine/Net.lean ====
section
/-!
DEFINITION. Delivering a message: to a home, a cluster, a host port, a replica slice, or as the reply to the
instruction whose request it answers (05, 07 R173, R178 to R189); and the requests that one step carries through
(copy pieces, cache maintenance, range writes; log 9).
-/
namespace Sys2Proof.Machine

/-! ### Instructions that wait for replies -/

/-- The part of an instruction that executes at a place. -/
def Group.entry (g : Group) (pos : Nat) (p : Place) : Option Entry :=
  g.rob.find? fun e => e.pos == pos && e.place == p && (match e.op with
    | .trap .. => false
    | _ => true)

def Group.editEntry (g : Group) (pos : Nat) (p : Place) (f : Entry → Entry) : Group :=
  { g with rob := g.rob.map fun e => if e.pos == pos && e.place == p then f e else e }

/-- Visibility times of a reply or performance (05 R140). -/
def Group.seeVt (g : Group) (vt : Option (Nat × Nat × Nat)) : Group :=
  match vt with
  | some (c, d, y) => { g with vtClu := max g.vtClu c, vtDev := max g.vtDev d, vtSys := max g.vtSys y }
  | none => g

/-- A write that performs at a time carries it as all three visibility times (05 R139). -/
def Group.performedAt (g : Group) (t : Nat) : Group := g.seeVt (some (t, t, t))

/-- Times that a read carries (12 R300). -/
def Group.seeRead (g : Group) (t : Nat) : Group := { g with vtDev := max g.vtDev t, vtSys := max g.vtSys t }

/-- The lease floor rises (12 R303). -/
def Group.raiseFloor (g : Group) (t : Nat) : Group := { g with floor := max g.floor t }

/-- One combined request of an entry. -/
def Entry.req (e : Entry) (i : Nat) : Option (MemOp × LineReq) :=
  match e.op with
  | .mem m _ _ reqs => (reqs[i]?).map fun r => (m, r)
  | _ => none

def Entry.setReq (e : Entry) (i : Nat) (r : LineReq) : Entry :=
  match e.op with
  | .mem m hs ea reqs => { e with op := .mem m hs ea (reqs.set i r) }
  | _ => e

/-- Changes a combined request and its group together. -/
def State.editReq (s : State) (r : Ref) (f : Group → MemOp → LineReq → Group × LineReq) : State :=
  match s.group r.core r.grp with
  | none => s
  | some g =>
    match (g.entry r.pos r.place).bind fun e => e.req r.idx with
    | none => s
    | some (m, q) =>
      let (g, q) := f g m q
      s.setGroup r.core r.grp (g.editEntry r.pos r.place fun e => e.setReq r.idx q)

/-- The combined request that a reference names. -/
def State.reqOf (s : State) (r : Ref) : Option (MemOp × LineReq) :=
  (s.group r.core r.grp).bind fun g => (g.entry r.pos r.place).bind fun e => e.req r.idx

/-- A combined request is answered. -/
def State.answer (s : State) (r : Ref) (accs : List Acc) (fail : Option (BitVec 8)) (rvt : Nat) : State :=
  s.editReq r fun g _ q => (g, { q with stat := .done, accs := accs, fail := fail, rvt := rvt, ns := s.ns })

def MKind.isWrite : MKind → Bool
  | .load | .loadS | .ldo | .fill => false
  | _ => true

/-- The accesses of a request with the values a line gives them. -/
def readAccs (op : MemOp) (l : Line) (as : List Acc) : List Acc :=
  (performAccs { op with kind := .load } l as).2

/-- The group of a request sees visibility times. -/
def State.seeVt (s : State) (r : Ref) (vt : Option (Nat × Nat × Nat)) : State :=
  s.editReq r fun g _ q => (g.seeVt vt, q)

/-- A request that a reply is for stands as it was: to be sent, or still to ask for permission. -/
def LineReq.again (q : LineReq) : LineReq := { q with stat := .todo }

/-- A store or an atomic performs on a line its cluster holds with write permission. -/
def State.performHere (s : State) (c line : Nat) (r : Ref) (vt : Option (Nat × Nat × Nat)) : State :=
  match (s.cluster c).lines.find line, s.reqOf r with
  | some l, some (op, q) =>
    if l.poison && op.kind != .czero then s.answer r q.accs (some causePoison) 0
    else
      let (d, as) := performAccs op l.data q.accs
      let vi := ((s.group r.core r.grp).map (·.vi)).getD 0
      let s := s.editLine c line fun l => { l with st := .m, data := d, poison := false, used := s.clk, vi := vi }
      (s.answer r as none 0).seeVt r (some (vt.getD (s.ns, s.ns, s.ns)))
  | none, some _ => s.editReq r fun g _ q => (g, q.again)
  | _, none => s

/-- The copy that a message's cluster holds of its line is poisoned. -/
def State.copyPoison (s : State) (m : Msg) : Bool := (((s.cluster m.peer).lines.find m.line).map (·.poison)).getD false

/-- The reply to a write at K that asked for permission (07 R173): refused, poisoned, granted, or to ask again. -/
def permissionReply (s : State) (m : Msg) (r : Ref) (op : MemOp) (q : LineReq) : State :=
  if m.cls == 6 then s.answer r q.accs (some causeProtection) 0
  else if m.cls == 5 then s.editReq r fun g _ q => (g, q.again)
  else if (m.poison || s.copyPoison m) && op.kind != .czero then s.answer r q.accs (some causePoison) 0
  else s.editReq r fun g _ q => (g, { q with stat := .granted })

/-- A reply reaches the instruction it serves: NACK, refusal, or the answer (05 R121, R125; 12 R300, R303). -/
def replyToInstr (s : State) (m : Msg) (ev : Event) (r : Ref) : State :=
  match s.reqOf r with
  | none => s
  | some (op, q) =>
    -- the writer's own copy counts where the home wrote its bytes (07 R183)
    let poison := if m.poison || (ev == .getu && s.copyPoison m) then some causePoison else none
    let atHome := ev == .ncr || ev == .ncw || ev == .atom || m.cls == 4
    if q.stat == .asked then permissionReply s m r op q
    else if m.cls == 5 then s.editReq r fun g _ q => (g, q.again)
    else if m.cls == 6 then s.answer r q.accs (some causeProtection) 0
    else if op.kind.isWrite then
      if m.excl && !atHome then s.performHere m.peer m.line r m.vt
      else
        let s := (s.answer r (if ev == .atom then m.accs else q.accs) poison m.rvt).seeVt r m.vt
        -- an atomic's read at the home (12 R303)
        if ev == .atom then s.editReq r fun g _ q => ((g.seeRead m.rvt).raiseFloor m.granted, { q with ns := m.granted }) else s
    else
      let s := s.answer r (readAccs op m.data q.accs) poison m.rvt
      s.editReq r fun g _ q =>
        let g := g.seeRead m.rvt
        (if atHome then g.raiseFloor m.granted else g, { q with ns := m.granted })

/-- A cluster drops a copy (05 Table 05-6, REPLY_UNCACHED). -/
def State.dropCopy (s : State) (c line : Nat) : State :=
  if c < 72 then s.setCluster c { s.cluster c with lines := (s.cluster c).lines.drop line } else s

/-- A home's reply to a peer's access goes back over its link (17 R430, R431): it is sent again after a NACK; else the answer
says whether it was refused, carries the visibility time at this device, and the line that was read. -/
def State.answerPeer (s : State) (m : Msg) (ev : Event) : State :=
  if m.cls == 5 then s.send { m with kind := .home ev, cls := 0 }
  else
    let vt := (m.vt.map fun t => t.2.1).getD m.rvt
    s.answerHost 4 (m.peer - 78) m.poison
      (BitVec.ofNat 8 (bitNat (m.cls == 6) 0) :: bytesOfNat 8 vt ++ if ev == .ncr && m.cls != 6 then Line.toBytes m.data else [])

/-- The reply of a home or a replica slice arrives at the requester (05 R113, R121, R123). -/
def replyMsg (s : State) (m : Msg) (ev : Event) : State :=
  let c := m.peer
  let caching := (ev == .gets || ev == .getm || ev == .getu) && m.cls != 4
  let s := if c < 72 && (ev == .gets || ev == .getm || ev == .getu) then
      s.setCluster c { s.cluster c with mshr := (s.cluster c).mshr.filter fun q => q.line != m.line } else s
  let hint : BitVec 2 := match m.mop with
    | some op => op.hint
    | none => 0
  let s := if c < 72 && caching && m.cls < 5 then
      match CState.ofCode (((s.imageOf m.line).grant.getD m.cls 0).toNat) with
      | none => s
      | some st =>
        if m.full then
          let s := s.install c m.line m.vi st m.data m.poison m.granted m.expiry m.rvt hint
          -- a line no way can take is given back at once
          if ((s.cluster c).lines.find m.line).isNone then s.sendHome .puts m.part m.line c id else s
        else s.editLine c m.line fun l =>
          { l with st := st, granted := m.granted, rvt := m.rvt, vi := m.vi,
                   data := if m.excl then l.data else Line.merge l.data m.data m.mask,
                   poison := l.poison && (m.excl || m.mask != BitVec.allOnes 128) }
    else if m.cls == 4 then s.dropCopy c m.line
    else s
  match m.ref with
  | some r => replyToInstr s m ev r
  | none => if 78 ≤ m.peer && m.peer < 90 then s.answerPeer m ev else s

/-! ### Delivery -/

/-- An access to a compute bank that must wait for the end of the row instruction in progress (04 R103). -/
def State.unitBusy (s : State) (a : Nat) : Bool := isCompute a && (s.munit (computeStack a) (computePch a)).job.isSome

/-- A message reaches its destination. -/
def deliver (s : State) (m : Msg) : State :=
  match m.kind with
  | .home e =>
    if s.unitBusy m.line && (e.isRequest || e == .hput) then
      let u := s.munit (computeStack m.line) (computePch m.line)
      s.setMunit (computeStack m.line) (computePch m.line) { u with wait := u.wait ++ [m] }
    else (homeEvent s e m).flushUncached m.part m.line
  | .inv | .upd | .fwd _ => clusterMsg s m
  | .bisnp => { s with out := { s.out with snoops := s.out.snoops ++ [⟨m.peer - 76, m.part, m.line, m.tag, false, false⟩] } }
  | .reply e => replyMsg s m e
  | .fill _ => replicaMsg s m

/-! ### The slice's sets (05 R109, R111, R116, R471, R472) -/

/-- A line is in the extent of a range-register write that is in progress: requests to it wait at its home (R116). -/
def State.frozen (s : State) (line : Nat) : Bool :=
  s.mgmt.rangeWr.any fun w => w.2.2.any fun e => e.1 ≤ line && line < e.2

/-- RECALL on a line: the home is to empty it (05 Table 05-5). -/
def State.recallLine (s : State) (part line : Nat) : State := (homeLookup s .recall (s.recallMsg part line)).noteRecall part line

/-- The set of a slice a line falls in: its slice and one of 4,096 sets by the next bits of the hash (log 10). -/
def sliceSet (a : Nat) : Nat := nbits a 7 12

/-- A home's entry takes a way of its set: it holds the line's data or a directory entry. -/
def HomeLine.resident (h : HomeLine) : Bool := h.here || h.dir != 0 || h.txn.isSome

/-- The resident lines of the set a line falls in. -/
def State.setLines (s : State) (part line : Nat) : List Nat :=
  (s.homes.filter fun x => x.1 / 2 ^ 52 == part && x.2.resident && sliceSet (x.1 % 2 ^ 52) == sliceSet line &&
    s.homeSlice part (x.1 % 2 ^ 52) == s.homeSlice part line).map fun x => x.1 % 2 ^ 52

/-- The line carries the read-only mark. -/
def State.readOnly (s : State) (part line : Nat) : Bool :=
  s.imageSlot line == 3 && (Dir.ofBits (s.home part line).dir).state == 8

/-- A slice passes a line over: a lease lies in the future, or it is read-only and another line of its set is not. -/
def State.passedOver (s : State) (part line : Nat) : Bool :=
  (match (s.home part line).lease with
   | some t => s.ns ≤ t
   | none => false) ||
  (s.readOnly part line && (s.setLines part line).any fun l => l != line && !s.readOnly part l)

/-- Nothing about the line is in progress at its home. -/
def State.homeQuiet (s : State) (part line : Nat) : Bool :=
  let h := s.home part line
  h.queue.isEmpty && h.held.isEmpty && h.ueWait.isEmpty && !(s.imageOf line).inTransient (Dir.ofBits h.dir).state

/-- The least recently used line of a set that may be evicted, one that is being evicted first. -/
def State.victim (s : State) (part line : Nat) : Option Nat :=
  let can := (s.setLines part line).filter fun l => l != line && !s.passedOver part l
  (can.find? fun l => (s.home part l).evict).orElse fun _ =>
    (can.filter fun l => s.homeQuiet part l).foldl (fun (b : Option Nat) l => match b with
      | some k => if (s.home part l).used < (s.home part k).used then some l else b
      | none => some l) none

/-- A slice evicts a line: it is recalled until no cluster and no host holds it, then its copy goes back and its entry
goes; a read-only mark is lost with an event. The lease record stays (R471). -/
def State.evictLine (s : State) (part line : Nat) : State :=
  let h := s.home part line
  let d := Dir.ofBits h.dir
  if s.passedOver part line then s.setHome part line { h with evict := false }
  else if !s.homeQuiet part line then s
  else if !(s.imageOf line).inNocopy d.state || d.h then (s.setHome part line { h with evict := true }).recallLine part line
  else
    let marked := s.readOnly part line
    let (s, h) := s.dropHomeCopy part line h
    let s := s.setHome part line { HomeLine.zero with lease := h.lease }
    if marked then s.event (s.homeSlice part line / 48) 0x0A 0 (BitVec.ofNat 64 line) 0 else s

/-- An eviction of a line, or, where the slice passes it over, of another line of its set; none can go: it waits. -/
def State.sliceEvict (s : State) (part line : Nat) : State :=
  if s.passedOver part line then
    match s.victim part line with
    | some l => s.evictLine part l
    | none => s
  else s.evictLine part line

/-- A line has a way of its set, or one of the 22 is free (R109). -/
def State.homeRoom (s : State) (part line : Nat) : Bool :=
  (s.home part line).resident || (s.setLines part line).length < 22

/-- A way of a full set is freed for a line, as far as it can be done now. -/
def State.makeHomeRoom (s : State) (part line : Nat) : State :=
  if s.homeRoom part line then s
  else match s.victim part line with
    | some l => s.evictLine part l
    | none => s

/-- A home takes a message up now: a request only where its line is not in the extent of a range write and has a way. -/
def State.admits (s : State) (m : Msg) : Bool :=
  match m.kind with
  | .home e => !e.isRequest || e == .recall || e == .ue || (!s.frozen m.line && s.homeRoom m.part m.line)
  | _ => true

/-- Message k may be delivered: none from the same home to the same agent about the same line is older (05 R113). -/
def State.mayDeliver (s : State) (k : Nat) : Bool :=
  match s.net[k]? with
  | none => false
  | some m =>
    let fromHome := fun (x : MsgKind) => match x with
      | .home _ => false
      | _ => true
    !(fromHome m.kind && (s.net.take k).any fun x =>
      fromHome x.kind && x.peer == m.peer && x.line == m.line && x.part == m.part)

/-- Takes message k off the network and delivers it; where its line has no way at its home, one is freed first. -/
def State.deliverAt (s : State) (k : Nat) : State :=
  match s.net[k]? with
  | none => s
  | some m =>
    if !s.mayDeliver k then s
    else if s.admits m then deliver { s with net := s.net.eraseIdx k } m
    else if s.frozen m.line then s else s.makeHomeRoom m.part m.line

/-! ### Requests carried through in one step (log 9) -/

/-- A reply to a request that no group made. -/
def Msg.engReply (m : Msg) : Bool := m.eng && (match m.kind with
  | .reply _ => true
  | _ => false)

/-- Delivers every message about a line that is taken up now, oldest first; replies to an engine are left. -/
def settle : Nat → State → Nat → Nat → State
  | 0, s, _, _ => s
  | fuel + 1, s, part, line =>
    match s.net.findIdx? fun m => m.part == part && m.line == line && !m.engReply && s.admits m with
    | some k => settle fuel (match s.net[k]? with
        | some m => deliver { s with net := s.net.eraseIdx k } m
        | none => s) part line
    | none => s

def settleFuel : Nat := 2000

def State.settleLine (s : State) (part line : Nat) : State := settle settleFuel s part line

/-- After settling, the home can take a request at once: not waiting for a host or a Mirmet unit. -/
def State.reachable (s : State) (part line : Nat) : Bool :=
  let h := s.home part line
  let d := Dir.ofBits h.dir
  !(s.imageOf line).inTransient d.state && !d.h && !s.unitBusy line && !s.frozen line && s.homeRoom part line &&
    !(s.mgmt.flips.any fun f => f.part == part && f.page == line / 4096)

/-- Asks for a line that a host may hold, so that it comes back (05 Table 05-8: NCR sends BISNP); frees a way for it. -/
def State.callHome (s : State) (part line : Nat) : State :=
  let s := s.makeHomeRoom part line
  if (Dir.ofBits (s.home part line).dir).h && !(s.imageOf line).inTransient (Dir.ofBits (s.home part line).dir).state then
    s.sendHome .ncr part line (s.homeAgent part line) fun m => { m with eng := true }
  else s

/-- An engine's request at a home, carried through: the state and the reply, none where the line is not reachable now. The
agent is the cluster of a copy engine, the Ranene core of an engine context (01 R10; log 61); a cluster drops its copy. -/
def State.syncHome (s : State) (ev : Event) (part line agent : Nat) (f : Msg → Msg) : State × Option Msg :=
  let s := s.settleLine part line
  if !s.reachable part line then ((s.callHome part line).settleLine part line, none)
  else
    let s := { s with net := s.net.filter fun m => !(m.part == part && m.line == line && m.peer == agent && m.engReply) }
    let s := (s.sendHome ev part line agent fun m => { f m with eng := true }).settleLine part line
    match s.net.findIdx? fun m => m.part == part && m.line == line && m.peer == agent && m.engReply with
    | some k => ({ s with net := s.net.eraseIdx k }.dropCopy agent line, s.net[k]?)
    | none => (s, none)

/-- A cluster obtains a line for writing (E or M), carried through; false where it does not get it. -/
def State.syncOwn (s : State) (c line vi : Nat) : State × Bool :=
  let part := s.partOfCluster c
  let s := s.settleLine part line
  let ok : State → Bool := fun s => match (s.cluster c).lines.find line with
    | some l => l.st == .e || l.st == .m
    | none => false
  if ok s then (s, true)
  else if !s.reachable part line then ((s.callHome part line).settleLine part line, false)
  else
    let s := (s.sendHome .getm part line c fun m => { m with vi := vi }).settleLine part line
    (s, ok s)

/-- RECALL at the home of a line, carried through (05 Table 05-5): true where the entry is in a no-copy state. -/
def State.syncRecall (s : State) (part line : Nat) : State × Bool :=
  let s := s.settleLine part line
  let empty := fun (s : State) => (s.imageOf line).inNocopy (Dir.ofBits (s.home part line).dir).state
  let busy := (s.imageOf line).inTransient (Dir.ofBits (s.home part line).dir).state
  if busy then (s, false)
  else
    let s := (s.recallLine part line).settleLine part line
    (s, empty s && !(s.imageOf line).inTransient (Dir.ofBits (s.home part line).dir).state)

/-- Lines of a partition that homes know or clusters hold, within an address interval. -/
def State.linesIn (s : State) (part lo hi : Nat) : List Nat :=
  (s.homes.filter fun p => p.1 / 2 ^ 52 == part && lo ≤ p.1 % 2 ^ 52 && p.1 % 2 ^ 52 < hi).map fun p => p.1 % 2 ^ 52

/-- Every line of an interval is recalled, its replicas and leases dropped, its home copy written back (05 R116); lines
that cannot be reached now come back. -/
def State.emptyLines (s : State) (part : Nat) (ls : List Nat) : State × List Nat :=
  ls.foldl (fun (p : State × List Nat) line =>
    let (s, ok) := p.1.syncRecall part line
    if ok then
      let s := s.dropReplicas part line
      let (s, h) := s.dropHomeCopy part line (s.home part line)
      (s.setHome part line h, p.2)
    else (s, p.2 ++ [line])) (s, [])

end Sys2Proof.Machine
end

