-- ==== Sys2Proof/Machine/Fetch.lean ====
section
/-!
DEFINITION. Fetching and decoding the next chain group of a stream (03 R48 to R55, R78, Table 03-15), breakpoints
(19 R461 to R463), and how the two instructions of a chain group take effect one after the other (03 R52, log 6).
-/
namespace Sys2Proof.Machine

/-! ### Breakpoints -/

/-- Entries of the stream become HELD at its instruction; half a consist leaves its partner (19 R462, R463). -/
def Ctx.hold (c : Ctx) (s : State) (ents : List Nat) (code : Nat) : State × Ctx :=
  let rest := c.ents.filter fun i => !ents.contains i
  let a := if rest.isEmpty then c.g.arch else c.g.arch.editPaths c.ents fun p => { p with link := .none }
  let a := a.editPaths ents fun p => { p with state := .held, run := 0, wait := .none, pn := c.iss.pn, slot := c.iss.slot }
  let g := { c.g with arch := a, seq := c.g.seq + 1 }
  let s := (c.put s g).trace c.iss.core c.iss.grp (ents.headD 0) 2 code c.iss.pn
  ({ s.sweepRuns c.iss.core c.iss.grp with iss := if rest.isEmpty then none else s.iss }, { c with g := g, ents := rest })

/-- Whether a breakpoint that hits holds, and which entries of a stream it takes (19 R461 to R463). -/
def State.heldSides (s : State) (c : Ctx) : List Nat :=
  let side := bitsOf (s.ctx c.g.vi).dbgctl 5 4
  if c.meld && (side == 1 || side == 2) then c.ents.filter fun i => (c.g.arch.path i).side == (side == 2) else c.ents

/-- A breakpoint hits: the stream faults, or entries are held once every older instruction of the group has retired; the
context that comes back has the entries that go on. -/
def Ctx.hit (c : Ctx) (s : State) (code : Nat) : State × Ctx :=
  if (s.ctx c.g.vi).dbgctl.getLsbD 2 then
    match s.heldSides c with
    | [] => (s, c)
    | es => if c.g.settled then c.hold s es code else (c.block s .drained, { c with ents := [] })
  else (c.trapPath s (FaultInfo.withOperand causeBreakpoint (BitVec.ofNat 64 code)), { c with ents := [] })

/-- The stream arrives at the packet of the PC breakpoint (19 R461). -/
def State.pcBreak (s : State) (c : Ctx) : Bool :=
  let x := s.ctx c.g.vi
  let p := c.g.arch.path c.iss.ent
  !isRanene c.iss.core && x.dbgctl.getLsbD 0 && x.dbgctl.getLsbD 1 && p.pn == x.bkpc && p.slot == 0 &&
    p.skip != some p.pn && c.g.arch.emOf c.ents != 0 && c.g.arch.emOf (s.heldSides c) != 0

/-- What the fetch of a stream's packet does beside giving its words: its translation is cached, corrected errors are counted, and
an unbacked line tells Ranene (15 R384, 04 R86, R87). -/
def State.fetched (s : State) (core grp ent : Nat) : State :=
  match s.group core grp with
  | none => s
  | some g =>
    let pn := (g.arch.path ent).pn
    if isRanene core || 2 ^ 56 ≤ packetAddr pn then s
    else
      let va := packetVa core pn
      let s := s.touch core g.vi va
      match s.page core g.vi va with
      | none => s
      | some p =>
        let line := p.dpa va / 128 * 128
        if p.x && !isHostDpa line then s.noteRead (s.partOfCore core) line else s

/-! ### Decoding a chain group for a group of the machine -/

/-- A decode fault names the first offending word, in WSLOT and OPERAND (03 R78, 15 R372). -/
def wordFault (cause : BitVec 8) (slot : Nat) (w : Word) : FaultInfo :=
  { FaultInfo.withOperand cause (w.setWidth 64) with wslot := some slot }

def decodeFaultInfo : DecodeFault → FaultInfo
  | .illegalEncoding j w => wordFault causeIllegalEncoding j w
  | .illegalChain j w => wordFault causeIllegalChain j w

/-- The chain group at a slot of a packet: rows 4, 5 and 6 of Table 03-15. -/
noncomputable def decodeFor (feat : BitVec 128) (priv : Bool) (p : Vector Word 3) (slot : Nat) :
    Except FaultInfo (List Item) :=
  let word := fun (j : Nat) => p.toList.getD j 0
  let read : Except FaultInfo (List Item) := (groupWords p slot).mapM fun t =>
    match decodeItem t.1 t.2.1 t.2.2 with
    | .error e => .error (decodeFaultInfo e)
    | .ok it =>
      match it.head.feature with
      | some b => if feat.getLsbD b then .ok it else .error (wordFault causeIllegalEncoding it.slot t.2.1)
      | none => .ok it
  match read with
  | .error f => .error f
  | .ok items =>
    match chainFault p items with
    | some e => .error (decodeFaultInfo e)
    | none =>
      match if priv then none else items.find? fun it => it.head.privileged with
      | some it => .error (wordFault causePrivilege it.slot (word it.slot))
      | none => .ok items

/-! ### The next chain group of a stream -/

/-- How the first instruction of a chain group acts on the stream: as any other, as a JOIN or JOINM, as an indirect jump,
some of whose lanes may leave. -/
inductive Lead where
  | plain | joins | jumps
  deriving DecidableEq, Repr

/-- How a head acts on its stream: JOIN and JOINM, and the jumps JMPS, CALLS, RET and JMPV (13 R319, R323). -/
def headLead (h : Head) : Lead :=
  if h.op == 5 && h.f.toNat < 2 then .joins else if h.op == 4 then .jumps else .plain

/-- What a stream does next: nothing more than `settled` says, one instruction, two of a chain group, or the second one of
a group whose first has issued. -/
inductive Plan where
  | settled (s : State)
  | one (i : Instr) (s : State)
  | two (x y : Instr) (lead : Lead) (s : State) (late : Issue)
  | late (i : Instr) (s : State) (l : Late)

noncomputable def planGroup (s : State) (c : Ctx) (pk : Vector Word 3) (items : List Item) : Plan :=
  let cut := (pk.toList.getD 2 0).getLsbD 31
  let iss := fun (it : Item) (sh : Option Arch) =>
    { c.iss with slot := it.slot, word := pk.toList.getD it.slot 0, words := it.words, cut := cut, shadow := sh }
  match items with
  | [x] =>
    match c.g.lates.find? fun l => l.ent == c.iss.ent && l.pn == c.iss.pn && l.slot == x.slot with
    | some l => .late x.instr { s with iss := some (iss x (some l.regs)) } l
    | none => .one x.instr { s with iss := some (iss x none) }
  | [x, y] => .two x.instr y.instr (headLead x.head) { s with iss := some (iss x none) } (iss y (some c.g.arch))
  | _ => .settled s

/-- The next chain group of the stream of an entry: breakpoint, rows 1 to 6 of Table 03-15, and its instructions. -/
noncomputable def State.plan (s : State) (core grp ent : Nat) : Plan :=
  match s.group core grp with
  | none => .settled (s.sweepRuns core grp)
  | some g =>
    let p := g.arch.path ent
    let iss : Issue := ⟨core, grp, ent, p.pn, p.slot, 0, 1, false, none⟩
    let c : Ctx := { iss := iss, g := g, src := g.arch, ents := g.arch.stream ent }
    if s.pcBreak c then .settled { (c.hit s 64).1 with iss := none }
    else
      match s.codeLine core g p.pn with
      | .error f => .settled (c.trapPath s { f with wslot := some p.slot })
      | .ok l =>
        if 9 ≤ p.run then .settled (c.trapPath s (FaultInfo.withAddr causeIllegalRun (packetVa core p.pn)))
        else
          let pk := packetOfLine l p.pn
          match decodeFor (s.features core g) (isRanene core) pk p.slot with
          | .error f => .settled (c.trapPath s f)
          | .ok items => planGroup s c pk items

/-! ### The second instruction of a chain group -/

def Arch.sidedCount (a : Arch) : Nat :=
  (a.valid.filter fun i => (a.path i).state == .siding || (a.path i).state == .held).length

/-- The lanes of a group that go on: not exited, not in the siding, not held. -/
def Arch.going (a : Arch) : Mask :=
  a.maskOf (a.valid.filter fun i => (a.path i).state != .siding && (a.path i).state != .held)

/-- The registers that the second instruction of a chain group reads: those before the first, for the lanes that the first
leaves to the stream, and with the maps as a MAP0 or MAP1 leaves them (03 R52, 13 R333, R339). -/
def Arch.shadowOf (a now : Arch) (ents : List Nat) : Arch :=
  a.editPaths ents fun p => { p with mask := p.mask &&& now.going, em := p.em &&& now.going }

/-- A MAP0 or MAP1 of the first instruction holds for the second. -/
def Arch.mapsOf (a now : Arch) (ents : List Nat) : Arch :=
  ents.foldl (fun (a : Arch) i =>
    if (now.path i).valid && (now.path i).meld then a.editPath i fun p => { p with map := (now.path i).map } else a) a

/-- After the first instruction took `t` to `u`: the state in which the second one runs, none where it does not run now
(the first waits, traps, joins, or leaves lanes in the siding other than by a jump, whose lanes that pass go on; a stream
without lanes, and a halted group, run nothing). -/
def State.second (t u : State) (lead : Lead) (late : Issue) : Option State :=
  match t.group late.core late.grp, u.group late.core late.grp with
  | some g, some h =>
    let p := h.arch.path late.ent
    let here := p.valid && p.pn == late.pn && p.slot == late.slot && p.jstack == (g.arch.path late.ent).jstack
    let es := g.arch.stream late.ent
    let sh := (g.arch.shadowOf h.arch es).mapsOf h.arch es
    if h.seq == g.seq + 1 && !h.stopped && (lead == .jumps || h.arch.sidedCount ≤ g.arch.sidedCount) && p.state != .joinWait &&
        (lead != .joins || here) && sh.maskOf es != 0 then
      some { u with iss := some { late with shadow := some sh } }
    else none
  | _, _ => none

end Sys2Proof.Machine
end

