-- ==== Sys2Proof/Machine/Team.lean ====
section
/-!
DEFINITION. What a group shares with its team and its partition, and the end of a group (13 R339, 08 R226, 06 R163).
-/
namespace Sys2Proof.Machine

/-- Changes the team of a group. -/
def State.editTeam (s : State) (g : Group) (f : Team → Team) : State :=
  match g.team with
  | some k =>
    match s.teams.find k with
    | some t => { s with teams := s.teams.put k (f t) }
    | none => s
  | none => s

/-- Slots of a group are released (06 R163); results of its passes have nowhere to go. -/
def Part.releaseSlots (p : Part) (grp : Nat) : Part :=
  { p with slots := p.slots.map fun x => (x.1, { x.2 with owner := if x.2.owner == some grp then none else x.2.owner }),
           mtx := p.mtx.filter fun x => x.grp != grp }

/-- A group with no live lane and nothing unretired ends: its slots are released and its LQ returns to the pool. -/
def State.endGroup (s : State) (core grp : Nat) : State :=
  match s.group core grp with
  | none => s
  | some g =>
    if g.ended || !g.arch.valid.isEmpty || !g.rob.isEmpty then s
    else
      let s := s.setGroup core grp { g with ended := true, lq := 0 }
      if isRanene core then s
      else
        let k := partOf core grp
        let s := s.setPart core k ((s.part core k).releaseSlots grp)
        s.editTeam g fun t => { t with pool := t.pool + g.lq }

/-- A B-slot of a partition. -/
def State.slot (s : State) (core part o : Nat) : Slot := (s.part core part).slots.get o Slot.zero

def State.setSlot (s : State) (core part o : Nat) (x : Slot) : State :=
  let p := s.part core part
  s.setPart core part { p with slots := p.slots.put o x }

end Sys2Proof.Machine
end

