-- ==== Sys2Proof/Machine/Channels.lean ====
section
/-!
DEFINITION. Copy channels as the machine holds them (06 R150 to R155): the channel records, the end and the abort of an
operation, CH_CTL; and whether a Buith link is up (17 R429).
-/
namespace Sys2Proof.Machine

def chanKey (core n : Nat) : Nat := core * 8 + n

def State.chan (s : State) (core n : Nat) : Channel := s.chans.get (chanKey core n) Channel.zero

def State.setChan (s : State) (core n : Nat) (x : Channel) : State := { s with chans := s.chans.put (chanKey core n) x }

/-- A link is enabled and up. -/
def blReg (k r : Nat) : Nat := 0x130000 + 0x20 * k + 8 * r
def blMaskReg (v : Nat) : Nat := 0x131000 + 8 * v
def State.linkUp (s : State) (k : Nat) : Bool := bitsOf (s.mr (blReg k 0)) 1 0 == 3

/-- The slot a destination touches. -/
def slotOfDst (dst : DWord) (total : Nat) : Option Nat :=
  if addrClass dst == 0xFF1 && total != 0 then some (dst.toNat % 0x8000 / 0x200) else none

/-- Changes the count of pending copies of a slot (R167). -/
def State.pendSlot (s : State) (core grp : Nat) (dst : DWord) (total : Nat) (f : Nat → Nat) : State :=
  match slotOfDst dst total with
  | some o => let k := partOf core grp; s.setSlot core k o { s.slot core k o with pend := f (s.slot core k o).pend }
  | none => s

def CopyOp.total (o : CopyOp) : Nat := o.rows * o.len

/-- The start of row r of the source. -/
def rowAt (src : DWord) (pitch r : Nat) : DWord := src + BitVec.ofNat 64 (r * pitch)

/-- The size of the next piece: up to the end of its destination line. -/
def CopyOp.piece (o : CopyOp) : Nat := min (128 - (o.dst.toNat + o.done) % 128) (o.total - o.done)

/-- The source address of byte i of the operation. -/
def CopyOp.srcAt (o : CopyOp) (i : Nat) : DWord := rowAt o.src o.pitch (i / o.len) + BitVec.ofNat 64 (i % o.len)

/-- The source lines of the next piece. -/
def CopyOp.srcLines (o : CopyOp) : List DWord :=
  (List.range o.piece).foldl (fun ls i =>
    let a := (o.srcAt (o.done + i))
    let a := a - BitVec.ofNat 64 (a.toNat % 128)
    if ls.contains a then ls else ls ++ [a]) []

/-- The addresses that the next piece translates. -/
def CopyOp.pieceAddrs (o : CopyOp) : List DWord := (o.dst + BitVec.ofNat 64 o.done) :: o.srcLines

/-- The operation at the head of a channel starts: WP is its first destination address, also where it moves no byte and so has
no last byte (R151; DESIGN CHOICE, log 58). -/
def State.beginCopy (s : State) (core n : Nat) : State :=
  let x := s.chan core n
  match x.ops with
  | o :: r => if o.begun then s else s.setChan core n { x with ops := { o with begun := true } :: r, wp := o.dst }
  | [] => s

/-- The operation under way is over: it counts as completed, its slot has one copy less pending, and the next one starts. -/
def State.endCopy (s : State) (core n : Nat) (o : CopyOp) : State :=
  let x := s.chan core n
  let old := x.past.filter fun p => !(p.1 == o.dst && p.2.1 == o.total)
  let s := s.setChan core n { x with ops := x.ops.drop 1, completed := x.completed + 1, asked := [], got := [], out := false,
                                     past := (o.dst, o.total, o.num) :: old }
  (s.pendSlot core o.grp o.dst o.total (· - 1)).beginCopy core n

/-- A core's translations of some addresses, its own and its die's, are dropped, so that a use of one walks again. -/
def State.forget (s : State) (core vi : Nat) (as : List DWord) : State :=
  { s with tlb := s.tlb.filter fun t => !((t.place == core || t.place == 256 + dieOfCore core) && t.vi == vi &&
      as.any fun a => t.va ≤ a.toNat && a.toNat < t.va + t.size) }

/-- An abort (R154): the lowest operation aborted and not reported stays latched. -/
def State.abortCopy (s : State) (core n : Nat) (cause : BitVec 8) : State :=
  let x := s.chan core n
  match x.ops with
  | [] => s
  | o :: _ =>
    let latch := match x.latch with
      | some (op, c, _) => some (op, c, true)
      | none => some (o.num, cause, false)
    (s.setChan core n { x with latch := latch, stopped := none, wp := o.dst + BitVec.ofNat 64 o.done }).endCopy core n o

/-- A command of CH_CTL (R155): a piece that is retried walks its translations again; 1 or 2 with nothing stopped is ignored with event 0x05, 0 and 3 are ignored. -/
def State.chanCmd (s : State) (core n cmd : Nat) : State :=
  let x := s.chan core n
  let off := 0x170000 + 0x40 * core + 8 * n
  match x.stopped, cmd with
  | none, 1 | none, 2 => s.event (dieOfCore core) 0x05 off (BitVec.ofNat 64 off) (BitVec.ofNat 64 cmd)
  | some _, 1 =>
    let s := s.setChan core n { x with stopped := none }
    match x.ops with
    | o :: _ => s.forget core o.vi o.pieceAddrs
    | [] => s
  | some c, 2 => s.abortCopy core n c
  | _, _ => s

end Sys2Proof.Machine
end

