-- ==== Sys2Proof/Machine/Images.lean ====
section
/-!
DEFINITION. Protocol images: their 1,088-byte form (05 R118), the checks of PTLOAD (R129), installing an image (R127),
and the shipped images 0 to 5 (R130, R470).
-/
namespace Sys2Proof.Machine

/-! ### The byte form (R118) -/

def imageBytes : Nat := 1088

def Image.ofBytes (bs : List Byte) : Image :=
  { name := bs.take 16
    flags := BitVec.ofNat 16 (fieldOf bs 16 2)
    nocopy := BitVec.ofNat 16 (fieldOf bs 18 2)
    share := BitVec.ofNat 16 (fieldOf bs 20 2)
    transient := BitVec.ofNat 16 (fieldOf bs 22 2)
    grant := (List.range 5).map fun i => BitVec.ofNat 8 (fieldOf bs (24 + i) 1)
    defs := (List.range 16).map fun i => BitVec.ofNat 16 (fieldOf bs (32 + 2 * i) 2)
    entries := (List.range 256).map fun i => BitVec.ofNat 32 (fieldOf bs (64 + 4 * i) 4) }

def Image.bytes (i : Image) : List Byte :=
  i.name ++ bytesOfNat 2 i.flags.toNat ++ bytesOfNat 2 i.nocopy.toNat ++ bytesOfNat 2 i.share.toNat ++
    bytesOfNat 2 i.transient.toNat ++ i.grant ++ [0, 0, 0] ++ i.defs.flatMap (fun d => bytesOfNat 2 d.toNat) ++
    i.entries.flatMap fun e => bytesOfNat 4 e.toNat

/-! ### check_image (R129, Table 05-7) -/

/-- A state that is used. -/
def Image.used (i : Image) (st : Nat) : Bool :=
  st == 0 || i.defs.getD st 0 != 0 ||
    i.entries.zipIdx.any fun e => (i.defs.getD (e.2 / 16) 0).getLsbD (e.2 % 16) && e.1.toNat % 16 == st

/-- The next state an event leads to. -/
def Image.next (i : Image) (st ev : Nat) : Nat := (i.entries.getD (16 * st + ev) 0).toNat % 16

def Image.has (i : Image) (st ev : Nat) : Bool := (i.defs.getD st 0).getLsbD ev

/-- A defined entry of some used state has a property. -/
def Image.anyEntry (i : Image) (f : Nat → Nat → Word → Bool) : Bool :=
  (List.range 16).any fun st => i.used st && (List.range 16).any fun ev =>
    i.has st ev && f st ev (i.entries.getD (16 * st + ev) 0)

def Image.anyUsed (i : Image) (f : Nat → Bool) : Bool := (List.range 16).any fun st => i.used st && f st

/-- RECALL empties the line (code 9). -/
def Image.recallDeep (i : Image) : Bool :=
  !i.inNocopy 0 || i.anyUsed fun st =>
    if i.inTransient st then !(i.has st 8 && act (i.entries.getD (16 * st + 8) 0) 12)
    else
      let t := i.next st 8
      !i.inNocopy t && [5, 6, 10].any fun ev => i.has t ev && !i.inNocopy (i.next t ev)

/-- The content checks: the first that fails, or 0; `pad` holds header bytes 29 to 31. -/
def Image.check (i : Image) (pad : List Byte) : Nat :=
  let bad := i.entries.zipIdx.any fun e =>
    e.1.toNat / 2 ^ 28 != 0 || (e.1 != 0 && !i.has (e.2 / 16) (e.2 % 16))
  if bad || i.flags.toNat / 32 != 0 || pad.any (· != 0) then 1
  else if i.anyUsed fun st => !i.has st 8 then 2
  else if i.anyUsed fun st => !i.has st 11 then 3
  else if i.anyUsed fun st => i.inShare st && !i.has st 3 then 4
  else if i.anyEntry fun _ _ e => act e 5 && !i.has (e.toNat % 16) 5 then 5
  else if i.has 0 0 && act (i.entries.getD 0 0) 12 then 6
  else if i.anyEntry fun _ _ e => (act e 3 && !i.upd) || (act e 14 && !i.lease) || (act e 21 && !i.repl) ||
      (act e 18 && !i.flags.getLsbD 4) then 7
  else if i.anyEntry fun _ _ e => (act e 1 || act e 16 || act e 3) && !act e 15 then 8
  else if i.recallDeep then 9
  else if i.grant.any fun g => 6 < g.toNat then 10
  else if i.anyEntry fun st _ e => act e 12 && (e.toNat / 16 != 2 ^ 12 || e.toNat % 16 != st) then 14
  else 0

/-- PTLOAD's checks but for reading the image: SLOT_BUSY and the contents (R129). -/
def State.checkImage (s : State) (slot : Nat) (bs : List Byte) : Nat :=
  let named := (List.range 64).any fun k => (s.mr (rangeReg k 0)).getLsbD 0 && (s.mr (rangeReg k 2)).toNat % 8 == slot
  let live := slot == 0 && s.homes.any fun h => (Dir.ofBits h.2.dir).state != 0
  if named || live then 11 else (Image.ofBytes bs).check ((bs.drop 29).take 3)

/-- An image is installed at every home between two lookups. -/
def State.installImage (s : State) (slot : Nat) (bs : List Byte) : State :=
  { s with images := s.images.set slot (some (Image.ofBytes bs)) }

/-! ### The shipped images -/

/-- Name bytes padded to 16. -/
def imageName (cs : List Nat) : List Byte := (cs.map fun c => BitVec.ofNat 8 c) ++ List.replicate (16 - cs.length) 0

/-- Entries of image 0 (Table 05-8): state, events, entry. -/
def invTable : List (Nat × List Nat × Nat) :=
  [(0, [0, 14], 0x200203), (0, [1, 2], 0x200204), (0, [3], 0), (0, [7, 15], 0x200205), (0, [8], 0x200206), (0, [12], 0x408010),
   (1, [0], 0x8811), (1, [1, 2], 0x244), (1, [3], 1), (1, [7, 15], 0x245), (1, [8], 0x246), (1, [12], 0x247), (1, [14], 0x4008001),
   (2, [0, 14], 0x303), (2, [1, 2], 0x304), (2, [3], 0x2000), (2, [4], 0x6000), (2, [7, 15], 0x305), (2, [8], 0x306), (2, [12], 0x307)] ++
  [(3, [5], 0x8C11), (3, [6, 4], 0xCC11), (3, [10], 0x808C11),
   (4, [5], 0x8B432), (4, [6, 4], 0x8F432), (4, [10], 0x88B432),
   (5, [5], 0x418A400), (5, [6, 4], 0x418E400), (5, [10], 0x498A400),
   (6, [5], 0x2400), (6, [6, 4], 0x6400), (6, [10], 0x802400),
   (7, [5], 0x40A410), (7, [6, 4], 0x40E410)]

/-- The entries common to every state (R130). -/
def invCommon (st ev : Nat) : Nat :=
  if 8 ≤ st then 0
  else if ev == 11 then 0x8200346
  else if ev == 13 then 0x804000 + st
  else if 3 ≤ st && [0, 1, 2, 7, 8, 12, 14, 15].contains ev then 0x10000 + st
  else if 3 ≤ st && ev == 3 then st
  else 0

/-- An entry looked up in a table. -/
def tableEntry? (t : List (Nat × List Nat × Nat)) (st ev : Nat) : Option Nat :=
  (t.find? fun r => r.1 == st && r.2.1.contains ev).map (·.2.2)

/-- An image whose entries are those of a table, and elsewhere those of INV. -/
def invBased (name : List Nat) (flags nocopy share transient : Nat) (grant defs : List Nat)
    (diff : List (Nat × List Nat × Nat)) : Image :=
  { name := imageName name, flags := BitVec.ofNat 16 flags, nocopy := BitVec.ofNat 16 nocopy, share := BitVec.ofNat 16 share,
    transient := BitVec.ofNat 16 transient, grant := grant.map (BitVec.ofNat 8),
    defs := (List.range 16).map fun i => BitVec.ofNat 16 (defs.getD i 0),
    entries := (List.range 256).map fun i =>
      let (st, ev) := (i / 16, i % 16)
      BitVec.ofNat 32 (((tableEntry? diff st ev).orElse fun _ => tableEntry? invTable st ev).getD (invCommon st ev)) }

def invDefs : List Nat := [0xF98F, 0xF98F, 0xF99F, 0xFDFF, 0xFDFF, 0xFDFF, 0xFDFF, 0xF9FF]

/-- The shipped image of slots 0 to 5 (Tables 05-8, 05-17 to 05-19). -/
def shippedImage (slot : Nat) : Image :=
  match slot with
  | 0 => invBased [0x49, 0x4E, 0x56] 0x10 1 0xFE 0xF8 [1, 2, 0, 0, 0] invDefs []
  | 1 => invBased [0x55, 0x50, 0x44] 0x11 1 0x1FE 0x1F8 [5, 2, 0, 0, 0] (invDefs ++ [0xF9AF])
      [(1, [2], 0x84288), (8, [0, 1, 2, 7, 8, 12, 14, 15], 0x10008), (8, [3], 8), (8, [5], 0x80411), (8, [11], 0x8200346),
       (8, [13], 0x804008)]
  | 2 => invBased [0x4D, 0x49, 0x47] 0x10 1 0xFE 0xF8 [1, 2, 0, 0, 0] invDefs [(2, [0], 0x244)]
  | 3 => invBased [0x57, 0x4F] 0x12 0x101 0xFE 0xF8 [6, 2, 0, 6, 0] (invDefs ++ [0xF98F])
      [(2, [0, 14], 0x243), (3, [5], 0x200A408), (3, [6, 4], 0x200E408), (3, [10], 0x280A408), (8, [0, 14], 0x2008008),
       (8, [1, 2, 7, 15], 0x8020008), (8, [3, 8], 8), (8, [11], 0x8200346), (8, [12], 0x408018), (8, [13], 0x8800008)]
  | 4 => invBased [0x4C, 0x53, 0x45] 0x14 1 0xFE 0xF8 [1, 2, 4, 0, 0]
      [0xFB8F, 0xFB8F, 0xFB9F, 0xFFFF, 0xFFFF, 0xFFFF, 0xFFFF, 0xFBFF]
      ([(2, [0, 14], 0x243), (3, [5], 0x4A410), (3, [6, 4], 0x4E410), (3, [10], 0x84A410)] ++
       (List.range 8).map fun st => (st, [9], st))
  | _ =>
    { name := imageName [0x4D, 0x53], flags := 8, nocopy := 1, share := 0, transient := 0, grant := List.replicate 5 0,
      defs := (0xF989 : BitVec 16) :: List.replicate 15 0,
      entries := ((List.range 16).map fun ev => BitVec.ofNat 32 ((tableEntry? [(0, [0, 14], 0x4008000), (0, [7, 15], 0x4188000),
        (0, [11], 0x8002000), (0, [12], 0x8010), (0, [13], 0x4000)] 0 ev).getD 0)) ++ List.replicate 240 0 }

end Sys2Proof.Machine
end

