-- ==== Sys2Proof/Machine/Shake.lean ====
section
/-!
DEFINITION. SHAKE256 with 64 bytes of output, as the measurement registers use it (18 R457). The spec names the function;
its steps are those of the published standard (PRESUMED, log 13).
-/
namespace Sys2Proof.Machine

/-- The standard's bit generator, one step: x^8 + x^6 + x^5 + x^4 + 1. -/
def lfsrStep (r : Nat) : Nat := if 128 ≤ r then (2 * r) ^^^ 0x171 else 2 * r

/-- n constants from a state of the generator: each takes seven bits of it, bit j at place 2^j - 1. -/
def roundConstants : Nat → Nat → List DWord
  | 0, _ => []
  | n + 1, r =>
    let (c, r) := (List.range 7).foldl (fun (p : Nat × Nat) j =>
      (p.1 + p.2 % 2 * 2 ^ (2 ^ j - 1), lfsrStep p.2)) (0, r)
    BitVec.ofNat 64 c :: roundConstants n r

/-- The places that the offsets are given to in turn: (x, y), then (y, 2 x + 3 y). -/
def rotWalk : Nat → Nat × Nat → List (Nat × Nat)
  | 0, _ => []
  | n + 1, (x, y) => (x, y) :: rotWalk n (y, (2 * x + 3 * y) % 5)

/-- The rotation of lane (x, y): the triangle number of its turn in the walk from (1, 0); lane (0, 0) is not rotated. -/
def laneTurn (x y : Nat) : Nat :=
  match (rotWalk 24 (1, 0)).findIdx? (· == (x, y)) with
  | some t => (t + 1) * (t + 2) / 2 % 64
  | none => 0

/-- One round on the 25 lanes, lane x + 5 y at index x + 5 y. -/
def keccakRound (a : List DWord) (rc : DWord) : List DWord :=
  let at' := fun (l : List DWord) (x y : Nat) => l.getD (x % 5 + 5 * (y % 5)) 0
  let col := (List.range 5).map fun x => (List.range 5).foldl (fun w y => w ^^^ at' a x y) (0 : DWord)
  let d := fun (x : Nat) => col.getD ((x + 4) % 5) 0 ^^^ (col.getD ((x + 1) % 5) 0).rotateLeft 1
  let th := (List.range 25).map fun i => a.getD i 0 ^^^ d (i % 5)
  -- lane (x, y) goes to (y, 2 x + 3 y)
  let b := (List.range 25).map fun i =>
    let (x', y') := (i % 5, i / 5)
    -- the source (x, y) with y = x' and 2 x + 3 y = y'
    let y := x'
    let x := (3 * (y' + 2 * y)) % 5
    (at' th x y).rotateLeft (laneTurn x y)
  (List.range 25).map fun i =>
    let (x, y) := (i % 5, i / 5)
    let w := at' b x y ^^^ (~~~ at' b (x + 1) y &&& at' b (x + 2) y)
    if i == 0 then w ^^^ rc else w

def keccakF (a : List DWord) : List DWord := (roundConstants 24 1).foldl keccakRound a

/-- Absorbs 136-byte blocks. -/
def absorb : Nat → List DWord → List Byte → List DWord
  | 0, a, _ => a
  | n + 1, a, bs =>
    let a := (List.range 25).map fun i =>
      if i < 17 then a.getD i 0 ^^^ BitVec.ofNat 64 (fieldOf bs (8 * i) 8) else a.getD i 0
    absorb n (keccakF a) (bs.drop 136)

/-- SHAKE256 of a message, 64 bytes. -/
def shake256 (m : List Byte) : List Byte :=
  let pad := 136 - m.length % 136
  let tail : List Byte := if pad == 1 then [0x9F] else [(0x1F : Byte)] ++ List.replicate (pad - 2) 0 ++ [0x80]
  let bs := m ++ tail
  let a := absorb (bs.length / 136) (List.replicate 25 0) bs
  (a.flatMap fun w => bytesOfNat 8 w.toNat).take 64

end Sys2Proof.Machine
end

