-- ==== Sys2Proof/Machine/Manage.lean ====
section
/-!
DEFINITION. Management state behind the registers: measurements (18 R457), accounting blocks (R453 to R455), interfaces and
their queues as partitions see them (R439, R446), admin events (R448), MSI-X (17 R416), partition configurations and their
changes (R437 to R443), and halted groups (R452).
-/
namespace Sys2Proof.Machine

/-! ### Measurements -/

/-- extend(i, x), i from 1 to 4. -/
def State.measure (s : State) (i : Nat) (x : List Byte) : State :=
  let old := bytesOfNat 64 (s.mgmt.meas.getD (i - 1) 0).toNat
  let new := shake256 (old ++ shake256 x)
  { s with mgmt := { s.mgmt with meas := s.mgmt.meas.set (i - 1) (BitVec.ofNat 512 (natOfBytes new)) } }

/-! ### Accounting -/

/-- How often each activity of Table 18-12 has happened, in its order: MACs of three kinds, lane operations, lane words, slice line
accesses, hops of a line, DRAM bytes, core-ns (R455; log 14). -/
def activity (run : List Nat) : List Nat :=
  (List.range 7).map (fun i => run.getD (8 + i) 0) ++ [run.getD 4 0 + run.getD 5 0, run.getD 0 0 / 2]

/-- The energy of an interface in picojoules: its activity weighted by the coefficients. -/
def energy (run : List Nat) : Nat :=
  (activity run).zipIdx.foldl (fun n x => n + x.1 * Config.coefficient x.2) 0 / 100

/-- A block is brought up to date: clocks become ns, picojoules whole microjoules (R455). -/
def State.updateAcct (s : State) (v : Nat) : State :=
  let a := s.acct.get v Acct.zero
  let shown := (List.range 10).map fun i =>
    BitVec.ofNat 64 (if i < 4 then a.run.getD i 0 / 2 else if i < 8 then a.run.getD i 0
      else if i == 8 then energy a.run / 1000000 else s.ns)
  { s with acct := s.acct.put v { a with shown := shown, upto := s.ns } }

/-! ### Interfaces -/

/-- Consumption of the interface's queues is stopped: a die of its map is quiesced or being quiesced (R439). -/
def State.paused (s : State) (v : Nat) : Bool :=
  let d := s.mgmt.qdies ||| ((s.mgmt.quiesce.map (·.dies)).getD 0)
  s.viDies v &&& d != 0

/-- The interface consumes doorbells, commands and requests. -/
def State.consuming (s : State) (v : Nat) : Bool := s.viEnabled v && !s.paused v

def Launch.incomplete (l : Launch) : Bool := l.state == .waiting || l.state == .running

/-- The lowest busy queue of an interface: launch queues, 16 the admin queue, 17 BIAS_REQ (R439). -/
def State.busyQueue (s : State) (v : Nat) : Option Nat :=
  let x := s.ctx v
  let qs := (List.range 16).filter fun q => x.launches.any fun l => l.incomplete && l.queue == q
  match qs with
  | q :: _ => some q
  | [] => if x.busy then some 16 else if (s.mr (biasStatReg v)).getLsbD 8 then some 17 else none

/-- The interfaces whose map names a die of a set. -/
def State.visOf (s : State) (dies : BitVec 4) : List Nat :=
  (List.range 64).filter fun v => s.viEnabled v && (s.viDies v &&& dies) != 0

/-- An event for an interface's completion ring (R448); one posted while the ring is disabled is lost, as the driver's
RESYNC allows for (R447; log 47). -/
def State.adminEvent (s : State) (v : Nat) (code : BitVec 8) (result : DWord) : State :=
  let x := s.ctx v
  if (s.mr (bar0 v 0x1020)).getLsbD 0 then s.setCtx v { x with adm := x.adm ++ [⟨0xFFFF, code, result⟩] } else s

/-- A launch queue is disabled, and Ranene told (14 R348); `tell` also tells the interface. -/
def State.disableQueue (s : State) (v q : Nat) (tell : Bool) : State :=
  let r := lnqReg v q 0
  let s := s.setMr r (s.mr r &&& ~~~ 1)
  let s := s.event (s.viPart v) 0x06 q (BitVec.ofNat 64 r) (BitVec.ofNat 64 v)
  if tell then s.adminEvent v 0x82 (BitVec.ofNat 64 q) else s

/-- Both admin rings are disabled (R447). -/
def State.disableAdmin (s : State) (v : Nat) : State :=
  let a := bar0 v 0x1000
  let b := bar0 v 0x1020
  let s := (s.setMr a (s.mr a &&& ~~~ 1)).setMr b (s.mr b &&& ~~~ 1)
  s.event (s.viPart v) 0x06 16 (BitVec.ofNat 64 a) (BitVec.ofNat 64 v)

/-! ### MSI-X (17 R416) -/

/-- A byte of an interface's MSI-X table; vectors are masked until unmasked (PRESUMED, log 18). -/
def State.msixByte (s : State) (v off : Nat) : Byte :=
  (s.out.table.find (v * 0x1000 + off)).getD (if off % 16 == 12 then 1 else 0)

/-- A vector is signalled: pending where it is masked, else its message goes to the host. -/
def State.raiseMsix (s : State) (v k : Nat) : State :=
  if (s.msixByte v (16 * k + 12)).getLsbD 0 then
    { s with out := { s.out with msix := s.out.msix.put v (s.out.msix.get v 0 ||| ((1 : BitVec 17) <<< k)) } }
  else s.answerHost 5 (v * 32 + k) false ((List.range 12).map fun i => s.msixByte v (16 * k + i))

/-- A write of a byte of the table; a pending vector that is unmasked is signalled. -/
def State.setMsixByte (s : State) (v off : Nat) (b : Byte) : State :=
  let s := { s with out := { s.out with table := s.out.table.put (v * 0x1000 + off) b } }
  let k := off / 16
  let pend := (s.out.msix.get v 0).getLsbD k
  if off % 16 == 12 && !b.getLsbD 0 && pend then
    { s with out := { s.out with msix := s.out.msix.put v (s.out.msix.get v 0 &&& ~~~ ((1 : BitVec 17) <<< k)) } }.raiseMsix v k
  else s

/-! ### Partition configurations (R437) -/

/-- The legal configurations (Table 18-5): DIES of each die, OPEN of each bridge. -/
def shapes : List (List Nat × List Nat) :=
  [([1, 2, 4, 8], [0, 0, 0, 0]), ([3, 3, 4, 8], [1, 0, 0, 0]), ([1, 2, 12, 12], [0, 0, 1, 0]), ([3, 3, 12, 12], [1, 0, 1, 0]),
   ([15, 15, 15, 15], [1, 1, 1, 1])]

/-- The staged value of a configuration register. -/
def State.stagedPart (s : State) (d : Nat) : Nat := (s.mr (partCfgReg d)).toNat % 16
def State.stagedMemil (s : State) (p : Nat) : Nat := (s.mr (memilReg p)).toNat % 256
def State.stagedNetb (s : State) (d : Nat) : Nat := (s.mr (netbReg d)).toNat % 2
def State.stagedMap (s : State) (v : Nat) : BitVec 9 := (s.mr (viMapReg v)).setWidth 9 &&& 0x10F

def popBits (n w : Nat) : Nat := ((List.range w).filter fun i => n.testBit i).length

/-- The lowest die of a nonzero set. -/
def lowDie (m : Nat) : Nat := ((List.range 4).find? fun d => m.testBit d).getD 0

/-- The staged interleave of a die is as R437 asks. -/
def State.memilOk (s : State) (d : Nat) : Bool :=
  let dies := s.stagedPart d
  let m := s.stagedMemil d
  if lowDie dies != d then m == 0
  else
    let sts := (List.range 8).filter fun i => m.testBit i
    sts.all (fun i => dies.testBit (i / 2)) && [1, 2, 4, 8].contains (popBits m 8) &&
      sts.all fun i => s.bankSplit i == s.bankSplit (sts.headD 0)

/-- The staged configuration is consistent. -/
def State.consistent (s : State) : Bool :=
  shapes.contains ((List.range 4).map s.stagedPart, (List.range 4).map s.stagedNetb) && (List.range 4).all s.memilOk &&
    (List.range 64).all fun v => !(s.stagedMap v).getLsbD 8 ||
      (List.range 4).any fun d => s.stagedPart d == (s.stagedMap v).toNat % 16

/-- The result of the last operation in PART_STAT. -/
def State.partResult (s : State) (code vi queue : Nat) : State :=
  { s with mgmt := { s.mgmt with stat := BitVec.ofNat 64 (code * 2 ^ 16 + vi * 2 ^ 24 + queue * 2 ^ 32) } }

/-- A quiesce is lifted; a bias request that was recorded meanwhile is taken up. -/
def State.lift (s : State) : State :=
  let d := s.mgmt.qdies ||| ((s.mgmt.quiesce.map (·.dies)).getD 0)
  let vis := s.visOf d
  let s := { s with mgmt := { s.mgmt with qdies := 0, quiesce := none } }
  vis.foldl (fun s v => if (s.mr (biasReqReg v)).getLsbD 0 then s.setMr (biasStatReg v) (s.mr (biasStatReg v) ||| 0x100) else s) s

/-- An interface whose map is applied with EN going from 0 to 1 starts anew (R453, 19 R460, 14 R343). -/
def State.openVi (s : State) (v : Nat) : State :=
  { s.setCtx v Context.zero with acct := s.acct.put v { Acct.zero with upto := s.ns } }

/-- A window's DIES name exactly one partition that uses its port (17 R419). -/
def State.windowDies (s : State) (j : Nat) : Option Nat :=
  let d := bitsOf (s.mr (hwReg j 0)) 4 1
  if (List.range 4).any (fun e => d != 0 && (s.mgmt.part.getD e 0).toNat == d) && d / 4 ^ (j / 2) % 4 != 0 then some (lowDie d)
  else none

/-- The measured bytes of a configuration (Table of R457). -/
def State.configBytes (s : State) : List Byte :=
  ((s.mgmt.part.map fun x => x.toNat) ++ (s.mgmt.memil.map fun x => x.toNat) ++ s.mgmt.netb.map fun b => bitNat b 0).flatMap
    (bytesOfNat 8)

/-- Every staged value is applied at once (R442); `tell` posts REMAPPED. -/
def State.applyConfig (s : State) (tell : Bool) : State :=
  let old := s.mgmt.viMap
  let news : List (Nat × BitVec 9) := (List.range 64).map fun v => (v, s.stagedMap v)
  let s := { s with mgmt := { s.mgmt with
    part := (List.range 4).map fun d => BitVec.ofNat 4 (s.stagedPart d)
    memil := (List.range 4).map fun p => BitVec.ofNat 8 (s.stagedMemil p)
    netb := (List.range 4).map fun d => s.stagedNetb d == 1
    viMap := news.foldl (fun (t : Table (BitVec 9)) (x : Nat × BitVec 9) => if x.2 == 0 then t.drop x.1 else t.put x.1 x.2) old } }
  let s := news.foldl (fun s x => if x.2.getLsbD 8 && !(old.get x.1 0).getLsbD 8 then s.openVi x.1 else s) s
  let s := (List.range 4).foldl (fun s j =>
    if (s.mr (hwReg j 0)).getLsbD 0 && (s.windowDies j).isNone then
      (s.setMr (hwReg j 0) (s.mr (hwReg j 0) &&& ~~~ 1)).event 0 0x0B 0 (BitVec.ofNat 64 (hwReg j 0)) (s.mr (hwReg j 0))
    else s) s
  let s := s.measure 4 s.configBytes
  if tell then news.foldl (fun s x => if x.2 != old.get x.1 0 then s.adminEvent x.1 0x81 (BitVec.ofNat 64 (x.2.toNat % 16)) else s) s
  else s

/-- The dies are a nonzero union of whole partitions. -/
def State.wholeParts (s : State) (dies : BitVec 4) : Bool :=
  dies != 0 && (dieList dies).all fun d => s.mgmt.part.getD d 0 &&& ~~~ dies == 0

/-! ### PART_CMD (R439 to R442) -/

def partCmdWord (op : Nat) (dies : BitVec 4) : DWord := BitVec.ofNat 64 (op * 2 ^ 8 + dies.toNat)

/-- Writes with OP = 1: the quiesce begins. -/
def State.quiesceCmd (s : State) (dies : BitVec 4) : State :=
  if s.mgmt.quiesce.isSome || s.mgmt.qdies != 0 then s.refuseWrite partCmdReg (partCmdWord 1 dies)
  else
    let s := s.setMr partCmdReg (partCmdWord 1 dies)
    if !s.wholeParts dies then s.partResult 2 0 0
    else
      let t := (s.mr qtimeoutReg).toNat
      { s.partResult 0 0 0 with mgmt := { (s.partResult 0 0 0).mgmt with quiesce := some ⟨dies, s.ns + 1000 * t⟩ } }

/-- The checks of RELEASE and ABORT; the command itself runs where they pass. -/
def State.endCmd (s : State) (op : Nat) (dies : BitVec 4) (f : State → State) : State :=
  if s.mgmt.quiesce.isSome then s.refuseWrite partCmdReg (partCmdWord op dies)
  else
    let s := s.setMr partCmdReg (partCmdWord op dies)
    if s.mgmt.qdies == 0 then s.partResult 4 0 0
    else if dies != s.mgmt.qdies then s.partResult 2 0 0
    else f s

/-- OP = 2: the staged configuration is applied, or refused and kept. -/
def State.releaseCmd (s : State) (dies : BitVec 4) : State :=
  s.endCmd 2 dies fun s => if s.consistent then ((s.applyConfig true).lift).partResult 0 0 0 else s.partResult 5 0 0

/-- The staged values are discarded. -/
def State.unstage (s : State) : State :=
  let s := (List.range 4).foldl (fun s d =>
    ((s.setMr (partCfgReg d) ((s.mgmt.part.getD d 0).setWidth 64)).setMr (memilReg d) ((s.mgmt.memil.getD d 0).setWidth 64)).setMr
      (netbReg d) (BitVec.ofNat 64 (bitNat (s.mgmt.netb.getD d false) 0))) s
  (List.range 64).foldl (fun s v => s.setMr (viMapReg v) ((s.mgmt.viMap.get v 0).setWidth 64)) s

/-- OP = 3. -/
def State.abortCmd (s : State) (dies : BitVec 4) : State := s.endCmd 3 dies fun s => (s.unstage.lift).partResult 0 0 0

/-- A write of PART_CMD. -/
def State.partCmd (s : State) (x : DWord) : State :=
  let dies := x.extractLsb' 0 4
  match bitsOf x 9 8 with
  | 1 => s.quiesceCmd dies
  | 2 => s.releaseCmd dies
  | 3 => s.abortCmd dies
  | _ => if s.mgmt.quiesce.isSome then s.refuseWrite partCmdReg x else s

/-- The lines that homes of some partitions track. -/
def State.trackedLines (s : State) (part : Nat) : List Nat :=
  (s.homes.filter fun p => p.1 / 2 ^ 52 == part).map fun p => p.1 % 2 ^ 52

/-- Steps 3 and 4 of a quiesce whose interfaces are idle (R439); it goes on later where a host holds lines. -/
def State.quiesceEnd (s : State) : State :=
  match s.mgmt.quiesce with
  | none => s
  | some q =>
    if (s.visOf q.dies).any fun v => (s.busyQueue v).isSome then s
    else
      let parts := (dieList q.dies).filter fun d => s.partOfDie d == d
      let (s, left) := parts.foldl (fun (p : State × List Nat) part =>
        let (t, l) := p.1.emptyLines part (p.1.trackedLines part)
        (t, p.2 ++ l)) (s, [])
      if !left.isEmpty then s
      else
        let s := ((List.range 72).filter fun c => q.dies.getLsbD (c / 18)).foldl (fun s c =>
          s.setCluster c { s.cluster c with lines := [] }) s
        let s := s.partResult 0 0 0
        { s with mgmt := { s.mgmt with qdies := q.dies, quiesce := none } }

/-- The time of a quiesce is over and an interface is still busy: it is lifted with QBUSY (R439). -/
def State.quiesceExpire (s : State) : State :=
  match s.mgmt.quiesce with
  | none => s
  | some q =>
    if s.ns < q.deadline then s
    else
      match (s.visOf q.dies).find? fun v => (s.busyQueue v).isSome with
      | some v => s.lift.partResult 1 v ((s.busyQueue v).getD 0)
      | none => s

/-! ### Halts (R452) -/

/-- The next halt record of a die is written once HALTED is clear; AER Uncorrectable Internal Error is signalled at the die's
port. -/
def State.writeHalt (s : State) (d : Nat) : State :=
  if s.mgmt.halted.getLsbD d then s
  else
    match s.mgmt.haltWait.find? fun h => h.1 == d with
    | none => s
    | some h =>
      let s := { s with mgmt := { s.mgmt with
        haltWait := s.mgmt.haltWait.erase h, halts := s.mgmt.halts.put d (h.2.2, h.2.1), merr := true,
        halted := s.mgmt.halted ||| ((1 : BitVec 4) <<< d) } }.answerHost 9 (d / 2) false []
      if d == 0 then s
      else { s with mgmt := { s.mgmt with evWait := s.mgmt.evWait.put 0 (s.mgmt.evWait.get 0 [] ++
        [eventRecord 0x09 d 0 (BitVec.ofNat 64 (0x160000 + 0x40 * d)) 0 s.ns]) } }

/-- A privileged group is killed: it ends with nothing pending. -/
def Group.killed (g : Group) : Group :=
  { g with rob := [], ended := true, stopped := false, acq := none, wsel := g.wsel &&& ~~~ 0x1000000, hold := false, held := false,
           arch := { g.arch with paths := Vector.replicate 32 Path.none } }

/-- A 0 in byte 0 of HALT[d]. -/
def State.haltKill (s : State) (d : Nat) (b : Byte) : State :=
  match s.mgmt.halts.find d with
  | some (_, grp) =>
    if b == 0 && s.mgmt.halted.getLsbD d then
      let core := Config.clusterCores + d
      let s := match s.group core grp with
        | some g => (s.setGroup core grp g.killed).sweepRuns core grp
        | none => s
      { s with mgmt := { s.mgmt with halted := s.mgmt.halted &&& ~~~ ((1 : BitVec 4) <<< d) } }
    else s
  | none => s

end Sys2Proof.Machine
end

