-- ==== Sys2Proof/Machine/Window.lean ====
section
/-!
DEFINITION. The management window: what each register reads as and what a write of it does (18 R432 to R446; 04 R91 to R93,
05 R114 to R117, 06 R145, R155, 14 R347, R348, 15 R373, R381, 17 R415, R419, R426, R428 to R430).
-/
namespace Sys2Proof.Machine

/-- An offset of management memory. -/
def isMgmtMem (off : Nat) : Bool := 0x1000000 ≤ off && off < 0x9000000

/-! ### Reading -/

/-- The codes of bank modes (06 Table 06-1). -/
def BankMode.code : BankMode → Nat
  | .cache => 0 | .scratch => 1 | .fifo => 2 | .frame => 3

def BankMode.ofCode (n : Nat) : BankMode := if n == 1 then .scratch else if n == 2 then .fifo else if n == 3 then .frame else .cache

/-- CSB_MODE and CSB_HELD of a cluster (06 Table 06-2). -/
def State.csbMode (s : State) (c : Nat) : DWord :=
  BitVec.ofNat 64 (((s.cluster c).banks.zipIdx).foldl (fun n b => n + b.1.mode.code * 4 ^ b.2) 0)

def State.csbHeld (s : State) (c : Nat) : DWord :=
  BitVec.ofNat 64 (((s.cluster c).banks.zipIdx).foldl (fun n b => n + bitNat b.1.holder.isSome b.2) 0)

/-- PART_STAT. -/
def State.partStat (s : State) : DWord :=
  s.mgmt.stat ||| BitVec.ofNat 64 (s.mgmt.qdies.toNat * 16 + bitNat s.mgmt.quiesce.isSome 0)

/-- MGMT_STATUS (Table 18-2). -/
def State.mgmtStatus (s : State) : DWord :=
  BitVec.ofNat 64 (s.mgmt.fail.toNat * 2 ^ 16 + s.mgmt.halted.toNat * 2 ^ 8 + bitNat s.mgmt.merr 1 + bitNat s.mgmt.ready 0)

/-- CH_CTL (06 Table 06-12). -/
def State.chCtl (s : State) (core n : Nat) : DWord :=
  match (s.chan core n).stopped with
  | some c => BitVec.ofNat 64 (c.toNat * 2 ^ 16 + 2 ^ 8)
  | none => 0

/-- Eight bytes of a 64-byte record. -/
def word512 (x : BitVec 512) (i : Nat) : DWord := x.extractLsb' (64 * i) 64

/-- A register of an interface's BAR0; zero while the interface is not enabled (R446). -/
def State.barRead (s : State) (v o : Nat) : DWord :=
  if !s.viEnabled v then 0
  else if 0x2000 ≤ o && o < 0x2110 then
    BitVec.ofNat 64 (natOfBytes ((List.range 8).map fun i => s.msixByte v (o - 0x2000 + i)))
  else if o == 0x3000 then (s.out.msix.get v 0).setWidth 64
  else s.mr (bar0 v o)

/-- The 64-bit register at an offset that is a multiple of 8. -/
def State.regRead (s : State) (off : Nat) : DWord :=
  if 0x3000 ≤ off && off < 0x3480 then
    let c := (off - 0x3000) / 0x10
    if off % 0x10 == 0 then s.csbMode c else s.csbHeld c
  else if off == 0x140070 then s.partStat
  else if 0x160000 ≤ off && off < 0x160100 then word512 ((s.mgmt.halts.get ((off - 0x160000) / 0x40) (0, 0)).1) (off % 0x40 / 8)
  else if 0x170000 ≤ off && off < 0x172400 then s.chCtl ((off - 0x170000) / 0x40) (off % 0x40 / 8)
  else if 0x180000 ≤ off && off < 0x182000 then
    (s.acct.get ((off - 0x180000) / 0x80) Acct.zero).shown.getD (off % 0x80 / 8) 0
  else if off == 0x190000 then s.mgmtStatus
  else if 0x190140 ≤ off && off < 0x190240 then word512 (s.mgmt.meas.getD ((off - 0x190140) / 0x40) 0) (off % 0x40 / 8)
  else if 0x200000 ≤ off && off < 0x600000 then s.barRead ((off - 0x200000) / 0x10000) ((off - 0x200000) % 0x10000)
  else s.mr off

/-- n bytes at an offset, within 16. -/
def State.windowRead (s : State) (off n : Nat) : Nat :=
  let base := off / 8 * 8
  let both := (s.regRead base).toNat + (s.regRead (base + 8)).toNat * 2 ^ 64
  both / 2 ^ (8 * (off % 8)) % 2 ^ (8 * n)

/-! ### Ranges and format ranges -/

/-- Lines of every partition within some extents are recalled, and replicas dropped; false where some cannot be yet. -/
def State.emptyExtents (s : State) (es : List (Nat × Nat)) : State × Bool :=
  (List.range 4).foldl (fun (p : State × Bool) part =>
    es.foldl (fun (p : State × Bool) e =>
      let (t, left) := p.1.emptyLines part (p.1.linesIn part e.1 e.2)
      (t, p.2 && left.isEmpty)) p) (s, true)

/-- No compute page falls under another image than 5, no view page under another than 3 (05 R115): the image changes only
at the bounds of entries. -/
def State.rangesOk (s : State) : Bool :=
  let ks := (List.range 64).filter fun k => (s.mr (rangeReg k 0)).getLsbD 0
  let bounds := ks.flatMap fun k => [bitsOf (s.mr (rangeReg k 0)) 40 12 * 4096, bitsOf (s.mr (rangeReg k 1)) 40 12 * 4096]
  (0x8000000000 :: 0x10000000000 :: bounds).all fun a =>
    (!isCompute a || s.imageSlot a == 5) && (!isView a || s.imageSlot a == 3)

/-- A write of a range or format-range register is in progress: it goes on with a later event, and requests to the lines of
its extents, where it freezes them, wait at their homes (05 R116). -/
def State.pendWrite (s : State) (off : Nat) (x : DWord) (es : List (Nat × Nat)) : State :=
  if s.mgmt.rangeWr.contains (off, x, es) then s
  else { s with mgmt := { s.mgmt with rangeWr := s.mgmt.rangeWr.filter (fun w => w.1 != off) ++ [(off, x, es)] } }

/-- It is over. -/
def State.dropWrite (s : State) (off : Nat) : State :=
  { s with mgmt := { s.mgmt with rangeWr := s.mgmt.rangeWr.filter fun w => w.1 != off } }

/-- A write of a range register (05 R115, R116); lines whose image changes start in state 0. -/
def State.writeRange (s : State) (k r : Nat) (x : DWord) : State × Bool :=
  let x := x &&& (match r with
    | 0 => 0x1FFFFFFF001
    | 1 => 0x1FFFFFFF000
    | 2 => 7
    | _ => 0x3FFFF)
  let off := rangeReg k r
  let t := s.setMr off x
  let slot := (t.mr (rangeReg k 2)).toNat % 8
  if ((t.mr (rangeReg k 0)).getLsbD 0 && (s.images.getD slot none).isNone) || !t.rangesOk then ((s.dropWrite off).refuseWrite off x, true)
  else
    let ext := fun (s : State) => (bitsOf (s.mr (rangeReg k 0)) 40 12 * 4096, bitsOf (s.mr (rangeReg k 1)) 40 12 * 4096)
    let es := [ext s, ext t]
    let (s, ok) := s.emptyExtents es
    if !ok then (s.pendWrite off x es, false)
    else
      let t := (s.dropWrite off).setMr off x
      ({ t with homes := t.homes.map fun h =>
          if s.imageSlot (h.1 % 2 ^ 52) != t.imageSlot (h.1 % 2 ^ 52) then (h.1, { h.2 with dir := 0 }) else h }, true)

/-- A write of a format-range register (04 R93). Requests to the lines of its view do not wait meanwhile. -/
def State.writeFmt (s : State) (k r : Nat) (x : DWord) : State × Bool :=
  let x := x &&& (match r with
    | 0 | 1 => 0x1FFFFFFFF80
    | 2 => 3
    | 3 => 0x7FFFFFFF80
    | _ => 0x7FFFFFFFF0)
  let off := fmtReg k r
  if r == 2 && x == 3 then (s.dropWrite off, true)
  else
    let ext := fun (s : State) => ((s.mr (fmtReg k 0)).toNat, (s.mr (fmtReg k 1)).toNat)
    let t := s.setMr off x
    let (s, ok) := s.emptyExtents [ext s, ext t]
    if ok then ((s.dropWrite off).setMr off x, true) else (s.pendWrite off x [], false)

/-- A write of BANKPART (04 R92). -/
def State.writeBankpart (s : State) (stack : Nat) (x : DWord) : State :=
  let off := bankpartReg stack
  let x := x &&& 1
  let frames := s.groups.any fun g => g.2.arch.v.toList.any (fun r => r.place == .m && computeStack r.dpa == stack) ||
    g.2.rob.any fun e => match e.op with
      | .home _ old => e.stage != .released && old.place == .m && computeStack old.dpa == stack
      | _ => false
  let part := s.partOfDie (stack / 2)
  let resident := s.teams.any fun t => s.partOfCore t.2.core == part
  if x != s.mr off && (frames || resident) then s.refuseWrite off x else s.setMr off x

/-- A write of MIRMET_CFG (04 R92). -/
def State.writeMirmet (s : State) (stack : Nat) (x : DWord) : State :=
  let off := mirmetReg stack
  let x := x &&& 0xFF0F0F
  if bitsOf x 23 16 < 10 || bitsOf x 3 0 == 0 || 8 < bitsOf x 3 0 then s.refuseWrite off x else s.setMr off x

/-! ### Queues of records, host windows, partition registers -/

/-- FQ_CFG and EVQ_CFG (15 R373): a bad LOG2N leaves LOG2N; a 1 in OVF clears it. -/
def State.writeRingCfg (s : State) (off die : Nat) (x bm : DWord) : State :=
  let old := s.mr off
  let n := bitsOf x 3 0
  let bad := n < 4 || 12 < n
  let ovf := old.getLsbD 8 && !(x &&& bm).getLsbD 8
  let s' := s.setMr off (BitVec.ofNat 64 ((if bad then bitsOf old 3 0 else n) + bitNat ovf 8))
  if bad then s'.event die 0x05 off (BitVec.ofNat 64 off) x else s'

/-- Registers of a fault or event queue. -/
def State.writeRing (s : State) (off die r : Nat) (x bm : DWord) : State :=
  match r with
  | 0 => s.setMr off (x &&& ~~~ 0x3E)
  | 1 => s.writeRingCfg off die x bm
  | 2 => s.setMr off (x &&& 0xFFFF)
  | _ => s

/-- The size of a partition's normal window (04 R88). -/
def State.normalSize (s : State) (part : Nat) : Nat :=
  let sts := stackList (s.mgmt.memil.getD part 0)
  sts.length * (if s.bankSplit (sts.headD 0) then 2 ^ 35 else 2 ^ 36)

/-- A host window register (17 R419). -/
def State.writeHw (s : State) (j r : Nat) (x : DWord) : State :=
  let off := hwReg j r
  let x := x &&& (match r with
    | 0 => 0x1F
    | 3 => 0x1FFFFFFF000
    | _ => 0x1FFF0000000)
  let t := s.setMr off x
  let fits := match t.windowDies j with
    | some p => (t.mr (hwReg j 1)).toNat + (t.mr (hwReg j 2)).toNat ≤ s.normalSize p
    | none => false
  if (t.mr (hwReg j 0)).getLsbD 0 && !fits then s.refuseWrite off x else t

/-- A staged write (R438): every die it concerns is quiesced. -/
def State.stageWrite (s : State) (off : Nat) (x : DWord) (dies : BitVec 4) : State :=
  if dies &&& ~~~ s.mgmt.qdies == 0 then s.setMr off x else s.refuseWrite off x

def oneDie (d : Nat) : BitVec 4 := (1 : BitVec 4) <<< (d % 4)

/-- EN of an interface's map, as applied or as staged (R445). -/
def State.mapEn (s : State) (v : Nat) : Bool := s.viEnabled v || (s.mr (viMapReg v)).getLsbD 8

/-- A write of a partition register or of the VI table. -/
def State.writePart (s : State) (off : Nat) (x bm : DWord) : State :=
  if off < 0x140020 then s.stageWrite off (x &&& 0xF) (oneDie ((off - 0x140000) / 8))
  else if off < 0x140040 then s.stageWrite off (x &&& 0xFF) (oneDie ((off - 0x140020) / 8))
  else if off < 0x140060 then
    let d := (off - 0x140040) / 8
    s.stageWrite off (x &&& 1) (oneDie d ||| oneDie (d + 1))
  else if off == qtimeoutReg then
    let x := x &&& 0xFFFFFFFF
    if x == 0 then s.refuseWrite off x else s.setMr off x
  else if off == partCmdReg then s.partCmd (x &&& bm &&& 0x30F)
  else if 0x141000 ≤ off && off < 0x141400 then
    let v := (off - 0x141000) / 0x10
    if off % 0x10 == 0 then
      let x := x &&& 0x10F
      if x.getLsbD 8 && !(s.mr (viPolicyReg v)).getLsbD 0 then s.refuseWrite off x
      else s.stageWrite off x ((s.mr off).extractLsb' 0 4 ||| x.extractLsb' 0 4)
    else
      let x := x &&& 0xFFF
      if s.mapEn v && !x.getLsbD 0 then s.refuseWrite off x else s.setMr off x
  else s

/-! ### BAR0 of an interface (17 R415) -/

/-- Launch-queue registers (14 R348). -/
def State.writeLnq (s : State) (v q r : Nat) (x : DWord) : State :=
  let off := lnqReg v q r
  let en := (s.mr (lnqReg v q 0)).getLsbD 0
  match r with
  | 0 =>
    let s := s.setMr off (x &&& 0x1FFFFFFFFFFF001)
    if en then s.disableQueue v q false else s
  | 1 =>
    let n := bitsOf x 3 0
    let s := if n < 4 || 12 < n then s.event (s.viPart v) 0x05 off (BitVec.ofNat 64 off) x else s.setMr off (x &&& 0xF)
    if en then s.disableQueue v q false else s
  | 3 =>
    let tail := x.toNat % 0x10000
    let head := (s.mr (lnqReg v q 2)).toNat
    if (tail + 0x10000 - head) % 0x10000 > 2 ^ bitsOf (s.mr (lnqReg v q 1)) 3 0 then
      s.disableQueue v q false
    else s.setMr off (BitVec.ofNat 64 tail)
  | _ => s

/-- Admin-queue registers (R447). -/
def State.writeAdm (s : State) (v o : Nat) (x : DWord) : State :=
  let off := bar0 v o
  if o == 0x1000 || o == 0x1020 then s.setMr off (x &&& 0x1FFFFFFFFFFF001)
  else if o == 0x1008 then
    let sq := bitsOf x 3 0
    let cq := bitsOf x 7 4
    if sq < 2 || 8 < sq || cq < 2 || 8 < cq then s.event (s.viPart v) 0x05 off (BitVec.ofNat 64 off) x
    else s.setMr off (x &&& 0xFF)
  else if o == 0x1010 || o == 0x1028 then s.setMr off (x &&& 0xFFFF)
  else s

/-- BIAS_REQ (17 R426): while consumption is stopped the request is recorded and taken up later (R439). -/
def State.writeBiasReq (s : State) (v : Nat) (x : DWord) : State :=
  if !(s.caps v).getLsbD 8 || !x.getLsbD 0 || (s.mr (biasStatReg v)).getLsbD 8 then s
  else
    let s := s.setMr (biasReqReg v) (x &&& 0x1FFFFFFF003)
    if s.paused v then s else s.setMr (biasStatReg v) (s.mr (biasStatReg v) ||| 0x100)

/-- BIAS_STAT, written by Ranene code. -/
def State.writeBiasStat (s : State) (v : Nat) (x : DWord) : State :=
  (s.setMr (biasStatReg v) (x &&& 0xFF)).setMr (biasReqReg v) (s.mr (biasReqReg v) &&& ~~~ 1)

/-- A write of a BAR0 register; ignored while the interface is not enabled (R446). -/
def State.writeBar (s : State) (v o : Nat) (x bm : DWord) : State :=
  if !s.viEnabled v then s
  else if o < 0x1000 then (if o % 0x100 < 0x20 then s.writeLnq v (o / 0x100) (o % 0x100 / 8) x else s)
  else if o < 0x2000 then s.writeAdm v o x
  else if o < 0x2110 then
    (List.range 8).foldl (fun s i =>
      if bm.getLsbD (8 * i) then s.setMsixByte v (o - 0x2000 + i) (x.extractLsb' (8 * i) 8) else s) s
  else if o == 0x4000 then s.writeBiasReq v x
  else if o == 0x4008 then s.writeBiasStat v x
  else s

/-! ### Writing -/

/-- Registers that only hold what is written: the bits they hold. -/
def plainMask (off : Nat) : Option DWord :=
  if 0x110000 ≤ off && off < 0x110400 then some (if off % 0x10 == 0 then 0xFFFFFFFFFF001 else 0xFFFFF)
  else if off == timeCfgReg then some 0xF1
  else if 0x130000 ≤ off && off < 0x130180 then
    match off % 0x20 / 8 with
    | 1 => some 0x1FFFFFFF003
    | 2 => some 0x1FFFFFFF000
    | _ => none
  else if 0x131000 ≤ off && off < 0x131200 then some 0xFFF
  else none

/-- A write of a 64-bit register: `bm` marks the bits written. False where the write cannot complete yet (05 R116). -/
def State.regWrite (s : State) (off : Nat) (x bm : DWord) : State × Bool :=
  let x := (x &&& bm) ||| (s.regRead off &&& ~~~ bm)
  if off < 0x800 then s.writeRange (off / 0x20) (off % 0x20 / 8) x
  else if 0x1000 ≤ off && off < 0x1400 then
    (if off % 0x40 < 0x28 then s.writeFmt ((off - 0x1000) / 0x40) (off % 0x40 / 8) x else (s, true))
  else if 0x2000 ≤ off && off < 0x2080 then
    (if off % 0x10 == 0 then s.writeBankpart ((off - 0x2000) / 0x10) x else s.writeMirmet ((off - 0x2000) / 0x10) x, true)
  else if 0x100000 ≤ off && off < 0x100400 && off % 0x100 < 0x20 then
    (s.writeRing off ((off - 0x100000) / 0x100) (off % 0x100 / 8) x bm, true)
  else if 0x150000 ≤ off && off < 0x150400 && off % 0x100 < 0x20 then
    (s.writeRing off ((off - 0x150000) / 0x100) (off % 0x100 / 8) x bm, true)
  else if 0x120000 ≤ off && off < 0x120080 then (s.writeHw ((off - 0x120000) / 0x20) (off % 0x20 / 8) x, true)
  else if 0x130000 ≤ off && off < 0x130180 && off % 0x20 == 0 then (s.setMr off ((s.mr off &&& 2) ||| (x &&& 1)), true)
  else if 0x140000 ≤ off && off < 0x141400 then (s.writePart off x bm, true)
  else if 0x160000 ≤ off && off < 0x160100 then
    (if off % 0x40 == 0 && bm.getLsbD 0 then s.haltKill ((off - 0x160000) / 0x40) (x.extractLsb' 0 8) else s, true)
  else if 0x170000 ≤ off && off < 0x172400 then
    (s.chanCmd ((off - 0x170000) / 0x40) (off % 0x40 / 8) ((x &&& bm).toNat % 4), true)
  else if 0x200000 ≤ off && off < 0x600000 then
    (s.writeBar ((off - 0x200000) / 0x10000) ((off - 0x200000) % 0x10000) x bm, true)
  else
    match plainMask off with
    | some m => (s.setMr off (x &&& m), true)
    | none => (s, true)

/-- The bits of the register at `base` that a write of n bytes at `off` covers. -/
def writtenBits (base off n : Nat) : DWord :=
  (List.range 8).foldl (fun m i => if off ≤ base + i && base + i < off + n then m ||| ((0xFF : DWord) <<< (8 * i)) else m) 0

/-- A write of n bytes at an offset: one register, or two for 16 bytes. -/
def State.windowWrite (s : State) (off n x : Nat) : State × Bool :=
  let base := off / 8 * 8
  let word := fun (b : Nat) => BitVec.ofNat 64 (if b < off then x * 2 ^ (8 * (off - b)) else x / 2 ^ (8 * (b - off)))
  let (s, ok) := s.regWrite base (word base) (writtenBits base off n)
  if off + n ≤ base + 8 then (s, ok)
  else
    let (s, ok') := s.regWrite (base + 8) (word (base + 8)) (writtenBits (base + 8) off n)
    (s, ok && ok')

end Sys2Proof.Machine
end

