-- ==== Sys2Proof/Machine/Mem.lean ====
section
/-!
DEFINITION. Memory instructions (07): where each lane's address lies and the checks of Table 07-3, the combined requests
and the memories that answer them, retirement (R173, 08 R211 to R216), and the order within a group (R177, R181).
-/
namespace Sys2Proof.Machine

/-! ### Where an address lies (07 R169 to R171) -/

/-- The slice of an H anchor, or the unit of an M anchor. -/
def State.anchorSite (s : State) (part : Nat) (p : Place) (dpa : Nat) : Nat :=
  match p with
  | .h => s.homeSlice part dpa
  | .m => unitKey (computeStack dpa) (computePch dpa)
  | _ => 0

/-- ATOM, RED and CAS. -/
def MKind.isAtomic : MKind → Bool
  | .atom | .red | .cas => true
  | _ => false

def inClass (a : DWord) (c : Nat) : Bool := addrClass a == c

/-- Rows 3 to 5 of Table 07-3 for a canonical user address: the line and the byte in it, or the cause. -/
def State.locateUser (s : State) (core : Nat) (g : Group) (write atomic : Bool) (p : Place) (site : Nat) (a : DWord) :
    Except (BitVec 8) (Target × Nat) :=
  match (s.xltVi core g).bind fun v => s.page core v a with
  | none => .error causeTranslation
  | some pg =>
    let dpa := pg.dpa a
    let part := s.partOfCore core
    let host := isHostDpa dpa
    let away := match p with
      | .h => host || s.homeSlice part dpa != site
      | .m => !isCompute dpa || unitKey (computeStack dpa) (computePch dpa) != site
      | _ => false
    if away then .error causePlaceOffhome
    else if !pg.allows (if write then .write else .read) || (host && atomic) then .error causeProtection
    else if host then .ok (.host (dpa % 2 ^ 51 / 128 * 128), dpa % 128)
    else .ok (.line part (dpa / 128 * 128), dpa % 128)

/-- Rows 1 to 5 of Table 07-3, but for refusals: what an address names, with the byte in its line, or the cause.
`atomic` is also set for CZERO. -/
def State.locate (s : State) (core grp : Nat) (g : Group) (write atomic : Bool) (size : Nat) (p : Place) (site : Nat)
    (a : DWord) : Except (BitVec 8) (Target × Nat) :=
  let off := a.toNat % 2 ^ 52
  if a.toNat % size != 0 then .error causeMisaligned
  else if isUser a then s.locateUser core g write atomic p site a
  else if inClass a 0xFF0 then
    match (s.team g).bind fun t => (t.scr[off / 98304]?).map fun b => (t, b) with
    | some (t, b) => .ok (.scratch (clusterOfCore t.core) b (off % 98304 / 128 * 128), off % 128)
    | none => .error causeProtection
  else if inClass a 0xFF1 then
    let n := off / 0x200
    let w := off % 0x200
    if 64 ≤ n || 0x140 < w + size || atomic then .error causeProtection
    else if (s.slot core (partOf core grp) n).owner != some grp then .error causeSlotOwner
    else .ok (.slot core (partOf core grp) n (w / 128 * 128), w % 128)
  else if inClass a 0xFF2 then .error causeProtection
  else if inClass a 0xFF3 then
    if !isRanene core || (atomic && !isMgmtMem off) then .error causeProtection
    else .ok (.mgmt (off / 128 * 128), off % 128)
  else .error causeTranslation

/-! ### Memories that answer at once -/

/-- A line of scratch, of a slot or of management memory, with its poison. -/
def State.localLine (s : State) : Target → Line × Bool
  | .scratch c b o => (Line.ofBytes (s.readBytes (scratchCell c b o) 128), false)
  | .slot core p n o =>
    let x := s.slot core p n
    (if o < 256 then x.tile.extractLsb' (8 * o) 1024 else x.side.setWidth 1024, false)
  | .mgmt o => s.cellLine (mgmtCell o)
  | _ => (0, false)

/-- Writes a line of scratch, of a slot or of management memory. -/
def State.setLocalLine (s : State) (t : Target) (l : Line) : State :=
  match t with
  | .scratch c b o => s.writeBytes (scratchCell c b o) (Line.toBytes l)
  | .slot core p n o =>
    let x := s.slot core p n
    let m : BitVec 2048 := (BitVec.allOnes 1024).setWidth 2048 <<< (8 * o)
    s.setSlot core p n (if o < 256 then { x with tile := (x.tile &&& ~~~ m) ||| (l.setWidth 2048 <<< (8 * o)) }
      else { x with side := l.setWidth 512 })
  | .mgmt o => s.writeBytes (mgmtCell o) (Line.toBytes l)
  | _ => s

/-- Accesses to registers of the management window, one after another (18 R433): those performed, with what they read, and
those from a write on that cannot complete yet (05 R116). -/
def State.windowAccs (s : State) (op : MemOp) (base : Nat) : List Acc → State × List Acc × List Acc
  | [] => (s, [], [])
  | a :: r =>
    let old := s.windowRead (base + a.off) op.size
    let (s, ok) := if op.kind.isWrite then s.windowWrite (base + a.off) op.size a.val.toNat else (s, true)
    if !ok then (s, [], a :: r)
    else
      let (s, rs, left) := s.windowAccs op base r
      (s, { a with got := BitVec.ofNat 128 old } :: rs, left)

/-- A line that is replaced as a whole is poisoned no more (07 R183). -/
def State.heal (s : State) (c : Nat) : State :=
  { s with poison := s.poison.filter (· != c), ue := s.ue.filter fun x => !(c ≤ x && x < c + 128) }

/-- A read of a TAIL register of a fault or event queue acquires the records below it (15 R374, 18 R451). -/
def readsTail (base : Nat) (op : MemOp) (accs : List Acc) : Bool :=
  !op.kind.isWrite && accs.any fun a => (List.range 4).any fun d => [fqReg d 3, evqReg d 3].any fun r =>
    base + a.off < r + 8 && r < base + a.off + op.size

/-- A request to a memory that answers at once is performed. -/
def State.performLocal (s : State) (r : Ref) (op : MemOp) (q : LineReq) : State :=
  let vt := if op.kind.isWrite then some (s.ns, s.ns, s.ns) else none
  match q.tgt with
  | .mgmt o =>
    if isMgmtMem o then
      let (l, p) := s.localLine q.tgt
      if p && op.kind != .czero then s.answer r q.accs (some causePoison) 0
      else
        let (l', as) := performAccs op l q.accs
        let s := if p then s.heal (mgmtCell o) else s
        ((if op.kind.isWrite then s.setLocalLine q.tgt l' else s).answer r as none 0).seeVt r vt
    else
      match s.windowAccs op o q.accs with
      | (s, as, []) =>
        let s := (s.answer r as none 0).seeVt r vt
        if readsTail o op q.accs then s.editReq r fun g _ q => (g.raiseFloor s.ns, q) else s
      | (s, _, left) => s.editReq r fun g _ q => (g, { q with accs := left })
  | t =>
    let (l', as) := performAccs op (s.localLine t).1 q.accs
    ((if op.kind.isWrite then s.setLocalLine t l' else s).answer r as none 0).seeVt r vt

/-! ### Lines of device memory -/

/-- An access that goes to the home and leaves no copy (07 R176, R182; 06 R142; 18 R433). -/
def State.uncached (s : State) (core line : Nat) (p : Place) (hint : BitVec 2) : Bool :=
  isRanene core || p == .h || hint == 3 || (s.imageOf line).unc || (s.cluster (clusterOfCore core)).ways.isEmpty

/-- An atomic that performs in the cluster cache (05 R126). -/
def State.atomHere (s : State) (line : Nat) (sc : BitVec 3) : Bool :=
  (s.imageSlot line == 0 || s.imageSlot line == 2) && sc.toNat ≤ 3

/-- A cluster asks for a line: one request at a time (05 Table 05-5); the request then stands at `stat`. -/
def State.ask (s : State) (core line : Nat) (r : Ref) (stat : ReqStat) (f : State → State) (ev : Event) : State :=
  let c := clusterOfCore core
  let x := s.cluster c
  if x.pending line then s
  else
    let s := s.setCluster c { x with mshr := x.mshr ++ [⟨line, ev⟩] }
    (f s).editReq r fun g _ q => (g, { q with stat := stat })

/-- Copies of the line are being updated at its sharers: none of them gives a value before every one has it (12 R304). -/
def State.updating (s : State) (part line : Nat) : Bool :=
  match (s.home part line).txn with
  | some t => t.1.kind == .home .getu
  | none => false

/-- A load of a line through the cluster cache: a hit on a copy that the lease floor allows (12 R303), with the times the
copy came with (R300), else GETS. -/
def State.loadCached (s : State) (core : Nat) (g : Group) (r : Ref) (op : MemOp) (q : LineReq) (line : Nat) : State :=
  let c := clusterOfCore core
  let stale := fun (l : CLine) => (l.st == .l || l.st == .p) && beforeFloor g.floor l.granted
  let get := s.ask core line r .sent
    (fun s => s.sendGets c line g.floor fun m => { m with ref := some r, vi := g.vi, mop := some op }) .gets
  match s.cached c line with
  | some l =>
    if stale l then get
    else if l.st == .u && s.updating (s.partOfCore core) line then s
    else
      let s := s.editLine c line fun l => { l with used := s.clk }
      (s.answer r (readAccs op l.data q.accs) (if l.poison then some causePoison else none) l.rvt).editReq r
        fun g _ q => (g.seeRead l.rvt, q)
  | none => get

/-- A store or an atomic through the cluster cache: performed in E or M, else GETU from S and U, else GETM. The GETU of an
atomic, and of a store to a poisoned copy, carries no bytes: the first performs when the line is granted, the second fails
unless the home refuses it first (07 Table 07-3). -/
def State.writeCached (s : State) (core : Nat) (g : Group) (r : Ref) (op : MemOp) (q : LineReq) (line : Nat) : State :=
  let c := clusterOfCore core
  let part := s.partOfCore core
  let atom := op.kind.isAtomic
  let fill := fun (m : Msg) => { m with ref := some r, vi := g.vi, mop := some op }
  match (s.cluster c).lines.find line with
  | some l =>
    if l.st == .e || l.st == .m then s.performHere c line r none
    else if l.st == .s || l.st == .u then
      let bare := atom || (l.poison && op.kind != .czero)
      s.ask core line r .sent (fun s => s.sendHome .getu part line c fun m =>
        { fill m with data := if bare then 0 else accsLine op q.accs, mask := if bare then 0 else accsMask op.size q.accs }) .getu
    else s.ask core line r .sent (fun s => s.sendHome .getm part line c fill) .getm
  | none => s.ask core line r .sent (fun s => s.sendHome .getm part line c fill) .getm

/-- An instruction's part at M has a request that waits for the unit of its line. -/
def State.directLive (s : State) (x : Nat × Nat × Nat) : Bool :=
  match (s.group x.1 x.2.1).bind fun g => g.entry x.2.2 .m with
  | some e => match e.op with
    | .mem _ _ _ rs => rs.any fun q => q.stat == .todo
    | _ => false
  | none => false

/-- Ordinary accesses wait for a unit (04 R103). -/
def State.unitWaited (s : State) (u : MUnit) : Bool := !u.wait.isEmpty || u.direct.any s.directLive

/-- An access of an instruction at M, directly at the pseudo-channel, between Mirmet instructions (07 R176, 04 R103): while
one is in progress it waits, before the next. -/
def State.accessAtM (s : State) (g : Group) (r : Ref) (op : MemOp) (q : LineReq) (part line : Nat) : State :=
  let u := s.munit (computeStack line) (computePch line)
  let me := (r.core, r.grp, r.pos)
  if s.unitBusy line then
    if u.direct.contains me then s
    else s.setMunit (computeStack line) (computePch line) { u with direct := u.direct ++ [me] }
  else
    let s := if u.direct.contains me then
        s.setMunit (computeStack line) (computePch line) { u with direct := u.direct.filter (· != me) } else s
    let (l, p) := s.memLine part line
    let s := s.readMem part line g.vi
    if p then s.answer r q.accs (some causePoison) 0
    else if op.kind.isWrite then
      let (l', as) := performAccs op l q.accs
      let s := ((s.writeMemLine part line l' false).count g.vi 5 128).answer r as none 0
      let s := s.seeVt r (some (s.ns, s.ns, s.ns))
      -- the read of an atomic (12 R303)
      if op.kind == .atom || op.kind == .cas then s.editReq r fun g _ q => (g.raiseFloor s.ns, q) else s
    else (s.answer r (readAccs op l q.accs) none 0).editReq r fun g _ q => (g.raiseFloor s.ns, q)

/-- A request of an instruction for a line of device memory. -/
def State.startLine (s : State) (core : Nat) (g : Group) (r : Ref) (op : MemOp) (q : LineReq) (part line : Nat) : State :=
  if r.place == .m then s.accessAtM g r op q part line
  else
    let fill := fun (m : Msg) => { m with ref := some r, vi := g.vi, mop := some op, accs := q.accs }
    let agent := agentOfCore core
    let sent := fun (s : State) => s.editReq r fun g _ q => (g, { q with stat := .sent })
    let un := s.uncached core line r.place op.hint
    if !op.kind.isWrite then
      if un then sent (s.sendHome .ncr part line agent fill) else s.loadCached core g r op q line
    else if op.kind.isAtomic then
      if !un && s.atomHere line op.sc then s.writeCached core g r op q line
      else sent (s.sendHome .atom part line agent fill)
    else if un then
      sent (s.sendHome .ncw part line agent fun m =>
        { fill m with data := accsLine op q.accs, mask := accsMask op.size q.accs })
    else s.writeCached core g r op q line

def Entry.reqs (e : Entry) : List LineReq :=
  match e.op with
  | .mem _ _ _ rs => rs
  | _ => []

/-- SPILL and FILL: the requests are served one after another, up to one that fails (07 R196). -/
def MKind.inOrder : MKind → Bool
  | .spill | .fill => true
  | _ => false

/-- The requests that come before the first one that has failed or is not answered. -/
def goodReqs (rs : List LineReq) : List LineReq := rs.takeWhile fun q => q.stat == .done && q.fail.isNone

/-- The requests of a core that await their replies. -/
def State.outstanding (s : State) (core : Nat) : Nat :=
  s.groups.foldl (fun n x => if x.1 / 256 == core then
    x.2.rob.foldl (fun n e => n + (e.reqs.filter fun q => q.stat == .sent || q.stat == .asked).length) n else n) 0

/-- The most requests of a core that may be outstanding (01 R11, 07 R173). -/
def requestRoom : Nat := 4096

/-- A request that is still to be sent is sent, or performed at once. -/
def State.startReq (s : State) (r : Ref) : State :=
  match s.group r.core r.grp, s.reqOf r with
  | some g, some (op, q) =>
    let older := ((g.entry r.pos r.place).map fun e => e.reqs.take r.idx).getD []
    if q.stat != .todo || (op.kind.inOrder && (goodReqs older).length != older.length) ||
        requestRoom ≤ s.outstanding r.core then s
    else
      match q.tgt with
      | .line part line => s.startLine r.core g r op q part line
      | .host a =>
        let w := op.kind.isWrite
        let die := dieOfCore r.core
        let h := s.hostReq die ((s.xltVi r.core g).getD g.vi) w a (if w then accsLine op q.accs else 0)
          (if w then accsMask op.size q.accs else 0)
        if s.portRoom die then (s.sendHost { h with ref := some r }).editReq r fun g _ q => (g, { q with stat := .sent }) else s
      | _ => s.performLocal r op q
  | _, _ => s

/-- Every request of a part of an instruction that is still to be sent. -/
def State.startReqs (s : State) (core grp pos : Nat) (p : Place) (n : Nat) : State :=
  (List.range n).foldl (fun s i => s.startReq ⟨core, grp, pos, p, i⟩) s

/-! ### Unretired memory instructions -/

/-- The whole instruction acts once for its stream (07 R172). -/
def MKind.once : MKind → Bool
  | .loadS | .storeS | .ldo | .spill | .fill | .czero => true
  | _ => false

/-- Registers of the data span, and how many of them a returned value fills (03 Table 03-6, 07 R178, R185, R188). -/
def MemOp.words (op : MemOp) : Nat := (op.size + 3) / 4

def MemOp.span (op : MemOp) : Nat := if op.kind == .cas then 2 * op.words else op.words

/-- The instruction writes its data registers. -/
def MKind.returns : MKind → Bool
  | .load | .atom | .cas => true
  | _ => false

/-- The instruction reads its data registers. -/
def MKind.reads : MKind → Bool
  | .load | .loadS | .ldo | .fill | .czero => false
  | _ => true

def Entry.memOp (e : Entry) : Option MemOp :=
  match e.op with
  | .mem m _ _ _ => some m
  | _ => none

def Entry.isMem (e : Entry) : Bool := e.memOp.isSome

def Entry.writes (e : Entry) : Bool := (e.memOp.map fun m => m.kind.isWrite).getD false

/-- Every request is answered; of requests served in order, those up to one that failed. -/
def Entry.answered (e : Entry) : Bool :=
  match e.op with
  | .mem m _ _ rs =>
    if m.kind.inOrder then (match (rs.drop (goodReqs rs).length).head? with
      | some q => q.stat == .done
      | none => true)
    else rs.all fun q => q.stat == .done
  | _ => true

/-- A write of the group that has not performed: a store, atomic, AWRT or APASS (07 R177, R181). -/
def Entry.unperformed (e : Entry) : Bool :=
  match e.op with
  | .mem m _ _ rs => m.kind.isWrite && rs.any fun q => q.stat != .done
  | .aop .awrt .. | .aop .apass .. => true
  | _ => false

/-- %vt of a class (01 R18). -/
def Group.vt (g : Group) (cls : Nat) : Nat := if cls == 0 then g.vtClu else if cls == 1 then g.vtDev else g.vtSys

def scopeClass (sc : BitVec 3) : Nat := if sc.toNat ≤ 3 then 0 else if sc.toNat ≤ 5 then 1 else 2

/-- release(X) is complete (07 R181). -/
def State.released (s : State) (g : Group) (cls : Nat) : Bool := g.rob.all (fun e => !e.unperformed) && g.vt cls < s.ns

/-- An atomic whose release is on its way and whose old value has not come back (07 R177, 12 R299). -/
def Entry.reading (e : Entry) : Bool := e.stage == .released && (e.memOp.map fun m => m.kind.returns).getD false

/-- An instruction of the group before a position has not read yet, though it has retired: a write waits (12 R299). -/
def Group.readsOut (g : Group) (pos : Nat) : Bool := g.rob.any fun e => e.pos < pos && e.reading

/-- Older loads have retired, older atomics have read, and the times they carried have passed. -/
def State.loaded (s : State) (g : Group) (cls : Nat) : Bool :=
  g.rob.all (fun e => !(e.isMem && (e.stage != .released || e.reading) && !(e.memOp.map (·.kind) == some .store))) &&
    (cls == 0 || g.vt cls < s.ns)

/-- Two requests name one line; the registers of the management window count as one (18 R433). -/
def Target.same (t u : Target) : Bool :=
  match t, u with
  | .mgmt a, .mgmt b => a == b || (!isMgmtMem a && !isMgmtMem b)
  | t, u => t == u

/-- The unit of a frame. -/
def VReg.unit (r : VReg) : Nat × Nat := (computeStack r.dpa, computePch r.dpa)

/-- A line lies in the row that a frame works on, or, where its words are not there yet, in its pseudo-channel. -/
def VReg.rowHas (r : VReg) (t : Target) : Bool :=
  match t with
  | .line _ l => isCompute l && (computeStack l, computePch l) == r.unit && (!r.full || computeRow l == (r.lane 3).toNat)
  | _ => false

/-- A row write of the group that has not performed goes to a line (12 R297). -/
def Entry.rowWrites (e : Entry) (t : Target) : Bool :=
  match e.op with
  | .aop .awrt hs _ | .aop .apass hs _ => hs.any fun h => (e.before.vreg h.d).rowHas t
  | _ => false

/-- An access of the group to these lines must wait: an older write of one of them is unperformed, or an older load of
one is unanswered and one of the two is served at the home (07 R177, 12 R297). -/
def Group.conflict (g : Group) (ts : List Target) (home : Bool) : Bool :=
  (g.rob.any fun e => e.reqs.any fun q => q.stat != .done && (ts.any fun t => Target.same t q.tgt) &&
    (e.writes || home || e.place == .h || e.place == .m || q.stat == .todo ||
      ((e.memOp.map fun m => m.hint == 3).getD false))) ||
  g.rob.any fun e => ts.any e.rowWrites

/-- No older write of the group to the row of a frame is unperformed (12 R297). -/
def Group.rowClear (g : Group) (e : Entry) (r : VReg) : Bool :=
  g.rob.all fun x => !(x.pos < e.pos && x.writes && x.reqs.any fun q => q.stat != .done && r.rowHas q.tgt)

/-! ### What comes back -/

/-- The words an answered access gives its registers. -/
def MemOp.wordAt (op : MemOp) (x : BitVec 128) (i : Nat) : Word :=
  if op.size < 4 then
    let n := 8 * op.size
    let v := x.toNat % 2 ^ n
    if op.signed && 2 ^ (n - 1) ≤ v then BitVec.ofNat 32 (v + 2 ^ 32 - 2 ^ n) else BitVec.ofNat 32 v
  else x.extractLsb' (32 * i) 32

/-- Gives the registers of one access their words; the rest of a compare-and-swap's span keeps what it holds. -/
def deliverAcc (op : MemOp) (pos : Nat) (a : Arch) (x : Acc) : Arch :=
  let m := Mask.one x.lane
  (List.range op.span).foldl (fun a i =>
    let w := if i < op.words then op.wordAt x.got i else (a.vreg (x.reg + i)).lane x.lane
    a.supplyV (x.reg + i) pos m (Vector.replicate 32 w)) a

/-- The data of a load or the old values of an atomic reach the registers (07 R178, R185, R188). -/
def Entry.deliver (e : Entry) (a : Arch) : Arch :=
  match e.op with
  | .mem op hs _ rs =>
    if op.kind == .loadS then
      match hs, rs with
      | h :: _, [q] =>
        match q.accs, q.fail with
        | [x], none =>
          let v := if op.size == 8 then x.got.toNat else if op.signed then (x.got.setWidth 32).signExtend 64 |>.toNat
            else x.got.toNat % 2 ^ 32
          a.supplyS h.d e.pos (BitVec.ofNat 64 v)
        | _, _ => a
      | _, _ => a
    else if op.kind == .fill then (goodReqs rs).foldl (fun a q => q.accs.foldl (deliverAcc op e.pos) a) a
    else if op.kind.returns then
      let good := rs.filter fun q => q.fail.isNone
      good.foldl (fun a q => q.accs.foldl (deliverAcc op e.pos) a) a
    else a
  | _ => a

/-- The traps of an answered memory instruction: for each half, its failing lanes with the cause and address of the
lowest one (07 R172), beside those of a half that failed at dispatch; for one that acts once, every entry of the stream. -/
def Entry.memFaults (e : Entry) : List (Nat × FaultInfo) :=
  match e.op with
  | .mem op hs ea rs =>
    let failed := rs.flatMap fun q => match q.fail with
      | some c => q.accs.map fun x => (x.lane, c)
      | none => []
    let info := fun (l : Nat) (c : BitVec 8) =>
      { FaultInfo.withAddr c (((ea.find? fun p => p.1 == l).map (·.2)).getD 0) with place := e.place }
    if op.kind.inOrder then
      let i := (goodReqs rs).length
      match rs[i]? with
      | some q => match q.fail with
        | some c => (e.before.stream e.ent).map fun n =>
          (n, { info i c with operand := BitVec.ofNat 64 (16 + op.f + i), spil := some (op.f + i) })
        | none => []
      | none => []
    else if op.kind.once then
      match failed with
      | (l, c) :: _ => (e.before.stream e.ent).map fun i => (i, info l c)
      | [] => []
    else
      e.fault ++ (e.sound hs).filterMap fun h =>
        let mine := failed.filter fun f => h.act.getLsbD f.1
        let m := Mask.ofList (mine.map (·.1))
        match (Mask.list m).head? with
        | some l =>
          (mine.find? fun f => f.1 == l).map fun f => (h.ent, { info l f.2 with lanes := some m })
        | none => none
  | _ => []

/-! ### Retirement (08 R213 to R216) -/

/-- The stream traps as a whole where its one entry has a fault that takes all its lanes, and where both halves of a
consist fault, whichever of their lanes do (13 R336). -/
def wholeFault (e : Entry) (fs : List (Nat × FaultInfo)) : Option FaultInfo :=
  let ents := e.before.stream e.ent
  if !fs.isEmpty && ents.all fun i => fs.any fun f => f.1 == i && (2 ≤ ents.length || f.2.lanes.isNone) then
    (fs.find? fun f => f.1 == ents.headD 0).map fun f => { f.2 with lanes := none }
  else none

/-- What a FILL that traps has moved stays (07 R196). -/
def Entry.kept (e : Entry) (a : Arch) : Arch :=
  match e.op with
  | .mem op _ _ rs =>
    if op.kind == .fill then
      (goodReqs rs).foldl (fun a q => q.accs.foldl (fun a x =>
        a.writeV x.reg (Mask.one x.lane) (Vector.replicate 32 (op.wordAt x.got 0))) a) a
    else a
  | _ => a

/-- One entry's fault at the retirement of its instruction: the entry or its lanes go to the siding. -/
def sideFault (e : Entry) (a : Arch) (f : Nat × FaultInfo) : Arch × Nat :=
  match f.2.lanes with
  | some m => a.sideLanes f.1 m m e.pn e.slot f.2
  | none => ((a.editPath f.1 fun p => { p with pn := e.pn, slot := e.slot }).sideAll [f.1] f.2, f.1)

/-- What an instruction writes, half by half: the half's entry, the lanes, the registers. -/
def Entry.dests (e : Entry) : List (Nat × Mask × List Nat) :=
  match e.op with
  | .lane _ hs => hs.map fun h => (h.ent, h.act, [h.d])
  | .mma hs _ => hs.map fun h => (h.ent, h.act, span h.d 8)
  | .mem m hs _ _ => if m.kind.returns then hs.map fun h => (h.ent, h.act, span h.d m.span) else []
  | .aop _ hs _ => hs.map fun h => (h.ent, 0xFFFFFFFF, [h.d])
  | _ => []

/-- Lanes of a register are as they were before the instruction at a position: their words and what they await. -/
def Arch.restoreLanes (a old : Arch) (pos n : Nat) (m : Mask) : Arch :=
  let r := a.vreg n
  let kept := r.prods.map fun p => if p.1 == pos then (p.1, p.2 &&& ~~~ m) else p
  let back := (old.vreg n).prods.map fun p => (p.1, p.2 &&& m)
  a.setV n { r with lanes := r.mixed m (old.vreg n).lanes, prods := (kept ++ back).filter fun p => p.2 != 0 }

/-- The lanes of a half that leave with some faults: those the fault names, or all of them. -/
def leavingOf (fs : List (Nat × FaultInfo)) (ent : Nat) (act : Mask) : Mask :=
  fs.foldl (fun m f => if f.1 == ent then m ||| (act &&& f.2.lanes.getD act) else m) 0

/-- Lanes that leave have written nothing: they hold what they held before, and a register that no other lane of the
instruction writes keeps its dirty bit (08 R200, R216; 13 R335). -/
def undoHalves (e : Entry) (a : Arch) (fs : List (Nat × FaultInfo)) : Arch :=
  let ds := e.dests
  let regs := (ds.flatMap fun d => d.2.2).eraseDups
  regs.foldl (fun (a : Arch) r =>
    let mine := ds.filter fun d => d.2.2.contains r
    let out := mine.foldl (fun m d => m ||| leavingOf fs d.1 d.2.1) (0 : Mask)
    let stay := mine.foldl (fun m d => m ||| (d.2.1 &&& ~~~ leavingOf fs d.1 d.2.1)) (0 : Mask)
    if out == 0 then a
    else
      let a := a.restoreLanes e.before e.pos r (out &&& ~~~ stay)
      if stay != 0 then a
      else
        let b := (1 : BitVec 64) <<< r
        { a with dirty := (a.dirty &&& ~~~ b) ||| (e.before.dirty &&& b) }) a

/-- The stream keeps lanes when those of some faults have left: the record is PARTIAL (15 R371). -/
def Entry.staysFor (e : Entry) (fs : List (Nat × FaultInfo)) : Bool :=
  let a := e.before
  a.maskOf (a.stream e.ent) &&& ~~~ (fs.foldl (fun m f => m ||| f.2.lanes.getD (a.path f.1).mask) (0 : Mask)) != 0

/-- A retired instruction leaves the window: at L it is gone, elsewhere its release is on the way. Requests and halves that
failed are dropped; a granted write may be carried out. -/
def Entry.retired (e : Entry) : Option Entry :=
  if e.place == .l then none
  else some { e with stage := .released, fault := [], op := match e.op with
    | .mem m hs ea rs => .mem m hs ea ((rs.filter fun q => q.fail.isNone).map fun q =>
        if q.stat == .granted then { q with stat := .todo } else q)
    | .aop o hs b => .aop o (hs.filter fun h => !(e.fault.any fun f => f.1 == h.ent)) b
    | o => o }

/-- The record of lanes that left at dispatch, waiting for older instructions. -/
def Entry.isTrap (e : Entry) : Bool :=
  match e.op with
  | .trap .. => true
  | _ => false

/-- The instruction at a position, whose parts `es` have all reported, retires: flags, or its traps with cancel-from. -/
def State.retireAt (s : State) (core grp : Nat) (g : Group) (pos : Nat) (es : List Entry) : State :=
  let flags := es.foldl (fun f e => f ||| e.flags) 0
  let g := if flags == 0 then g else g.mapYounger pos fun a => a.addFlags flags
  -- records of lanes that left at dispatch
  let s := (es.filter Entry.isTrap).foldl (fun s e => match e.op, e.fault with
    | .trap sided partly pn slot, [(_, f)] =>
      s.putRecord core grp (faultRecord s core grp g f sided (e.after.path sided) partly false pos pn slot)
    | _, _ => s) (s.setGroup core grp g)
  let es := es.filter fun e => !e.isTrap
  let g := (s.group core grp).getD g
  let keep := fun (rob : List Entry) => rob.filterMap fun e => if e.pos == pos then (if e.isTrap then none else e.retired) else some e
  let fs := es.flatMap (·.fault)
  match es with
  | [] => s.setGroup core grp { g with rob := keep g.rob }
  | e :: _ =>
    if fs.isEmpty then s.setGroup core grp { g with rob := keep g.rob }
    else
      match wholeFault e fs with
      | some f =>
        let ents := e.before.stream e.ent
        let a := (e.kept e.before).sideAll ents f
        let first := ents.headD 0
        let s := s.setGroup core grp (g.cancel pos a)
        let s := (s.undoPart core grp pos g.rob).trace core grp first 4 f.cause.toNat e.pn
        (s.putRecord core grp (faultRecord s core grp g f first (a.path first) false false pos e.pn e.slot)).sweepRuns core grp
      | none =>
        let a := es.foldl (fun a e => undoHalves e a fs) ((g.rob.find? fun x => x.pos == pos && !x.isTrap).getD e).after
        let sided := fs.foldl (fun (p : Arch × List (Nat × FaultInfo)) f =>
          let (a, j) := sideFault e p.1 f
          (a, p.2 ++ [(j, f.2)])) (a, [])
        let a := sided.1
        let rob0 := g.rob
        let rob := keep (g.cancel (pos + 1) a).rob
        let s := s.setGroup core grp { g.cancel (pos + 1) a with rob := rob }
        let s := s.undoPart core grp (pos + 1) rob0
        let s := sided.2.foldl (fun s x =>
          let s := s.trace core grp x.1 4 x.2.cause.toNat e.pn
          s.putRecord core grp (faultRecord s core grp g x.2 x.1 (a.path x.1) (e.staysFor fs) false pos e.pn
            e.slot)) s
        s.sweepRuns core grp

/-- Retires instructions in order as far as they have reported, and starts the writes of the oldest one at L, which may
perform now (08 R213, R214; 12 R299). -/
def State.pump : Nat → State → Nat → Nat → State
  | 0, s, _, _ => s
  | n + 1, s, core, grp =>
    match s.group core grp with
    | none => s
    | some g =>
      match g.rob.find? fun e => e.stage != .released with
      | none => s.endGroup core grp
      | some e =>
        let es := g.rob.filter fun x => x.pos == e.pos
        if es.all fun x => x.stage == .reported then (s.retireAt core grp g e.pos es).pump n core grp
        else
          match es.find? fun x => x.place == .l && x.writes && x.stage == .posted with
          | none => s
          | some w =>
            if g.readsOut w.pos then s
            else
            let s := s.startReqs core grp w.pos .l w.reqs.length
            match (s.group core grp).bind fun g => g.entry w.pos .l with
            | some w =>
              if w.answered && !((w.memOp.map fun m => m.kind.returns).getD false) then
                let g := (s.group core grp).getD g
                let g := g.editEntry w.pos .l fun x => if x.isMem then { x with stage := .reported, fault := w.memFaults } else x
                (s.setGroup core grp g).pump n core grp
              else s
            | none => s

def pumpFuel : Nat := 200

def State.advance (s : State) (core grp : Nat) : State := s.pump pumpFuel core grp

end Sys2Proof.Machine
end

