-- ==== Sys2Proof/Machine/Access.lean ====
section
/-!
DEFINITION. Dispatch of the memory instructions (07 R169 to R193): plain loads and stores, ordered ones, atomics, the
scalar forms and fences, and the two ways their data comes back.
-/
namespace Sys2Proof.Machine

/-! ### Per-lane memory instructions -/

/-- A per-lane memory instruction: `pair` for the W32 forms, `ordered` for LDX, STX, ATOM, RED and CAS. -/
structure MemForm where
  op : MemOp
  pair : Bool
  ordered : Bool
  ofs : BitVec 18
  m : ModX
  d : BitVec 6
  a : BitVec 6
  b : BitVec 6
  deriving DecidableEq, Repr

/-- A span whose registers lie at one place; at H in one slice, at M in one unit (07 R175). -/
def Ctx.spanOk (c : Ctx) (s : State) (rs : List Nat) : Bool :=
  let part := s.partOfCore c.iss.core
  let x := c.src.vreg (rs.headD 0)
  rs.all fun k => (c.src.vreg k).place == x.place && s.anchorSite part x.place (c.src.vreg k).dpa == s.anchorSite part x.place x.dpa

/-- The address registers of a form. -/
def MemForm.addrRegs (f : MemForm) (h : Half) : List Nat := if f.pair then [h.a, h.a + 1] else if f.a == 0 then [] else [h.a]

/-- What Table 08-4 asks of a half (07 R174, R175, R184, R190): data registers away from L are read when the post
executes. -/
def MemForm.need (f : MemForm) (c : Ctx) (s : State) (h : Half) : Need :=
  let regs := Machine.span h.d f.op.span
  let addr := f.addrRegs h
  let ok := c.spanOk s regs && c.spanOk s addr && (h.place != .m || (!f.ordered && !f.pair)) && (h.place == .l || f.m.pa == 0)
  { meld := f.m.pa != 0 && c.isW f.a, named := regs ++ addr, place := h.place, placeOk := ok,
    marked := if f.m.ta then addr else [],
    waits := (if f.m.ta then [] else addr) ++ (if f.op.kind.reads && h.place == .l then regs else []) }

/-- The effective address of a lane (03 R59); a permutation applies to the address registers (R69). -/
def MemForm.ea (f : MemForm) (c : Ctx) (base : DWord) (h : Half) (l : Nat) : DWord :=
  let ofs := f.ofs.signExtend 64
  let word := fun (n : Nat) => (c.src.vreg n).through f.m.pa f.m.pax l
  if f.pair then (word (h.a + 1) ++ word h.a) + ofs
  else if f.a == 0 then base + ofs
  else base + (word h.a).signExtend 64 + ofs

/-- One lane of a half with its address and what the address names. -/
structure LaneAcc where
  half : Half
  lane : Nat
  ea : DWord
  at' : Except (BitVec 8) (Target × Nat)

/-- The lanes of a half, each with its address checked (rows 1 to 5 of Table 07-3). -/
def Ctx.laneAccs (c : Ctx) (s : State) (f : MemForm) (base : DWord) (h : Half) : List LaneAcc :=
  let site := s.anchorSite (s.partOfCore c.iss.core) h.place (c.src.vreg h.d).dpa
  (Mask.list h.act).map fun l =>
    let a := f.ea c base h l
    ⟨h, l, a, s.locate c.iss.core c.iss.grp c.g f.op.kind.isWrite f.op.kind.isAtomic f.op.size h.place site a⟩

/-- Accesses to the scratch window from H or M, and to the slot window away from L (07 Table 07-4). -/
def placeBars (x : LaneAcc) : Bool :=
  (inClass x.ea 0xFF0 && (x.half.place == .h || x.half.place == .m)) || (inClass x.ea 0xFF1 && x.half.place != .l)

/-- The operands of an access: the data, for a CAS the compare value and the new value (07 R179, R185, R188). -/
def MemOp.operand (op : MemOp) (src : Arch) (x : Acc) : Acc :=
  let num := fun (k : Nat) => (List.range op.words).foldl (fun n i => n + ((src.vreg (x.reg + k + i)).lane x.lane).toNat * 2 ^ (32 * i)) 0
  if op.kind == .cas then { x with cmp := BitVec.ofNat 64 (num 0), val := BitVec.ofNat 128 (num op.words) }
  else if op.kind.reads then { x with val := BitVec.ofNat 128 (num 0) } else x

/-- The combined requests of some lanes (07 R187), lanes ascending, and after them the lanes that failed. -/
def combine (op : MemOp) (src : Arch) (xs : List LaneAcc) : List LineReq :=
  let xs := (List.range 32).flatMap fun l => xs.filter fun x => x.lane == l
  let acc := fun (x : LaneAcc) (off : Nat) => op.operand src { lane := x.lane, reg := x.half.d, off := off, val := 0, cmp := 0, got := 0 }
  let add := fun (rs : List LineReq) (same : LineReq → Bool) (new : LineReq) =>
    if rs.any same then rs.map fun r => if same r then { r with accs := r.accs ++ new.accs } else r else rs ++ [new]
  let good := xs.foldl (fun rs x => match x.at' with
    | .ok (t, off) => add rs (fun r => r.tgt == t) ⟨t, [acc x off], .todo, none, 0, 0⟩
    | .error _ => rs) []
  let bad := xs.foldl (fun rs x => match x.at' with
    | .error e => add rs (fun r => r.fail == some e) ⟨.host 0, [acc x 0], .done, some e, 0, 0⟩
    | .ok _ => rs) []
  good ++ bad

/-- Requests that go to the home rather than through the cluster cache. -/
def Ctx.homeServed (c : Ctx) (s : State) (op : MemOp) (p : Place) (t : Target) : Bool :=
  p == .h || p == .m || (match t with
    | .line _ l => s.uncached c.iss.core l p op.hint
    | _ => false)

/-- What an access must wait for before it is dispatched: an acquire, older accesses to its lines, an LDO into its slot
(07 R177, R181; 06 R168). -/
def Ctx.accessWait (c : Ctx) (s : State) (op : MemOp) (ps : List (Place × Target)) : Except Stop Unit := do
  let home := ps.any fun p => c.homeServed s op p.1 p.2
  if c.g.conflict (ps.map (·.2)) home then .error (.wait (.lines (ps.map (·.2)) home))
  match ps.find? fun p => match p.2 with
    | .slot core part n _ => !(s.slot core part n).present
    | _ => false with
  | some (_, .slot _ _ n _) => .error (.wait (.slotPresent n))
  | _ => .ok ()

/-- release(SC) before the access of an order with a release part (07 R181). -/
def Ctx.releaseFirst (c : Ctx) (s : State) (ord : BitVec 2) (sc : BitVec 3) : Except Stop Unit :=
  if 2 ≤ ord.toNat && !s.released c.g (scopeClass sc) then .error (.wait (.release (scopeClass sc))) else .ok ()

/-- No acquiring access of the group is in progress (07 R181). -/
def Ctx.acquireOver (c : Ctx) : Except Stop Unit := if c.g.acq.isSome then .error (.wait .acquire) else .ok ()

/-- The addresses of a memory instruction's part. -/
def Entry.addresses (e : Entry) : List DWord :=
  match e.op with
  | .mem _ _ ea _ => ea.map (·.2)
  | _ => []

/-- The instruction is dispatched: its addresses are translated, its parts enter the retire window, what it loads is owed, loads
at L are sent. -/
def Ctx.launchMem (c : Ctx) (s : State) (op : MemOp) (es : List Entry) : State :=
  let owe := fun (a : Arch) (e : Entry) => match e.op with
    | .mem op hs _ _ => if op.kind.returns then
        hs.foldl (fun a h => (Machine.span h.d op.span).foldl (fun a r => a.oweV r c.pos h.act) a) a
      else if op.kind == .fill then
        (e.reqs.takeWhile fun q => q.fail.isNone).foldl (fun a q => q.accs.foldl (fun a x => a.oweV x.reg c.pos (Mask.one x.lane)) a) a
      else a
    | _ => a
  let acq := op.ord.getLsbD 0 && op.kind.returns && es.any fun e => !e.answered
  let dirty := c.g.arch.dirty
  let a := es.foldl owe c.g.arch
  -- the second pair of a compare-and-swap is not written (07 R188)
  let a := if op.kind == .cas then
      { a with dirty := es.foldl (fun x e => match e.op with
        | .mem op hs _ _ => hs.foldl (fun x h => (Machine.span h.d op.words).foldl (fun x r => x ||| ((1 : BitVec 64) <<< r)) x) x
        | _ => x) dirty } else a
  let g := { c.g with arch := a, rob := c.g.rob ++ es, acq := if acq then some c.pos else c.g.acq }
  let s := c.finish (c.put (s.touchAll c.iss.core c.g (es.flatMap (·.addresses))) g)
  let s := es.foldl (fun s e =>
    if e.place == .l && !e.writes then s.startReqs c.iss.core c.iss.grp e.pos .l e.reqs.length else s) s
  s.advance c.iss.core c.iss.grp

/-- A per-lane memory instruction (07 R171 to R190). -/
def Ctx.access (c : Ctx) (s : State) (f : MemForm) (act : Mask) : Except Stop State := do
  if act == 0 then .ok (c.finish s)
  else
    c.acquireOver
    let base ← if f.pair then .ok 0 else c.s f.b
    let hs := (c.halves act).map fun h => c.half h.1 h.2 f.d f.a 0 0 none 0
    let bad ← c.checkHalves s (hs.map fun h => (h.ent, f.need c s h))
    let good := hs.filter fun h => !(bad.any fun b => b.1 == h.ent)
    c.room (remotePlaces good).length
    c.releaseFirst s f.op.ord f.op.sc
    let xs := good.flatMap fun h => c.laneAccs s f base h
    let barred := good.filterMap fun h => if xs.any fun x => x.half.ent == h.ent && placeBars x then
      some (h.ent, { FaultInfo.ofCause causePlaceOp with place := h.place }) else none
    let bad := c.ents.filterMap fun i => (bad ++ barred).find? fun b => b.1 == i
    let good := good.filter fun h => !(bad.any fun b => b.1 == h.ent)
    let xs := xs.filter fun x => good.any fun h => h.ent == x.half.ent
    c.accessWait s f.op (xs.filterMap fun x => match x.at' with
      | .ok (t, _) => some (x.half.place, t)
      | .error _ => none)
    let es := [Place.l, .k, .h, .m].filterMap fun p =>
      let mine := xs.filter fun x => x.half.place == p
      if mine.isEmpty then none
      else
        let rs := combine f.op c.src mine
        some (c.entry p (.mem f.op (good.filter fun h => h.place == p) (mine.map fun x => (x.lane, x.ea)) rs))
    let (s, c, es) ← c.leaveWith s bad es
    .ok (c.launchMem s f.op es)

/-! ### Answers -/

/-- Writes of a post that fail when they perform, after its report: they are discarded, event 0x0A tells, and a value an
atomic should return is not stated (07 R173; free value, log 18). -/
def State.lateFail (s : State) (e : Entry) : State × Entry :=
  match e.op with
  | .mem op hs ea rs =>
    let (s, rs) := rs.foldl (fun (p : State × List LineReq) q =>
      if q.fail.isNone then (p.1, p.2 ++ [q])
      else
        let (x, s) := p.1.fresh
        let s := match q.tgt with
          | .line part l => s.event (s.homeSlice part l / 48) 0x0A 0 (BitVec.ofNat 64 l) 0
          | _ => s
        (s, p.2 ++ [{ q with fail := none, accs := q.accs.map fun a => { a with got := x.setWidth 128 } }])) (s, [])
    (s, { e with op := .mem op hs ea rs })
  | _ => (s, e)

/-- A part whose data has still to come back. -/
def Entry.awaits (e : Entry) : Bool :=
  match e.memOp with
  | some op => if op.kind == .load then e.stage == .posted else op.kind.returns && (e.place != .l || e.stage == .posted)
  | none => false

/-- A part `e` of the acquiring access at its position has its data: the lease floor rises to the time at which it read, and
the access completes with its last part (07 R181, 12 R303). -/
def Group.acquired (g : Group) (e : Entry) : Group :=
  match e.memOp with
  | some op =>
    if g.acq == some e.pos then
      let waits := g.rob.any fun x => x.pos == e.pos && x.place != e.place && x.awaits
      let g := if waits then g else { g with acq := none }
      if 3 ≤ op.sc.toNat then g.raiseFloor (e.reqs.foldl (fun n q => max n q.ns) 0) else g
    else g
  | none => g

/-- An acquiring read of scope die or wider completes once device time exceeds the time its reply carried (12 R300). -/
def State.mayArrive (s : State) (e : Entry) : Bool :=
  match e.memOp with
  | some op => e.answered && (op.ord.getLsbD 0 == false || op.sc.toNat < 4 || e.reqs.all fun q => q.rvt < s.ns || q.rvt == 0)
  | none => false

/-- A part whose answers give registers: a load, or an atomic that performed. -/
def Entry.arrivable (e : Entry) : Bool :=
  match e.memOp with
  | some op =>
    match op.kind with
    | .load | .loadS | .fill => e.stage == .posted
    | .atom | .cas => (e.stage == .posted && e.place == .l) || e.stage == .released
    | _ => false
  | none => false

/-- The data reaches the registers; the part has then reported or executed, or is gone. -/
def State.arrive (s : State) (core grp : Nat) (e : Entry) : State :=
  let (s, e) := if e.stage == .released then s.lateFail e else (s, e)
  match s.group core grp with
  | none => s
  | some g =>
    let g := (g.mapYounger e.pos e.deliver).acquired e
    let mine := fun (x : Entry) => x.pos == e.pos && x.place == e.place && x.isMem
    let rob := if e.stage == .released then g.rob.filter fun x => !mine x
      else g.rob.map fun x => if mine x then
        { x with stage := if e.place == .l then .reported else .executed, fault := e.memFaults } else x
    (s.setGroup core grp { g with rob := rob }).advance core grp

/-- Every performing lane's data has arrived (07 R173). -/
def execLoadDataArrival (core grp pos : Nat) (s : State) : Host.Outcome State Fault Refusal :=
  .next (match s.group core grp with
  | none => s
  | some g => (g.rob.filter fun e => e.pos == pos && e.arrivable && s.mayArrive e).foldl (fun s e => s.arrive core grp e) s)

/-! ### Instructions -/

def memOf (kind : MKind) (size : Nat) (signed : Bool) (f : Nat) (m : MemX) : MemOp := ⟨kind, size, signed, f, m.ord, m.sc, m.hint⟩

/-- LD and ST. -/
def plainMem (kind : MKind) (size : Nat) (signed pair : Bool) (q : Quals) (d a b : BitVec 6) (s : State) :
    Host.Outcome State Fault Refusal :=
  run s fun c s => c.access s ⟨memOf kind size signed 0 (Quals.memx q), pair, false, (Quals.memx q).ofs, Quals.modx q, d, a, b⟩
    (c.active q)

/-- LDX, STX, ATOM, RED and CAS. -/
def orderedMem (kind : MKind) (size : Nat) (signed : Bool) (f : Nat) (g : BitVec 3) (d a b : BitVec 6) (m : MemX) (s : State) :
    Host.Outcome State Fault Refusal :=
  run s fun c s => c.access s ⟨memOf kind size signed f m, false, true, m.ofs, Quals.modx (quals g), d, a, b⟩
    (c.active (quals g))

/-- LDU and STU: once for the group, at s[S] + OFS (R180). -/
def scalarMem (kind : MKind) (size : Nat) (signed : Bool) (q : Quals) (d b : BitVec 6) (s : State) :
    Host.Outcome State Fault Refusal :=
  run s fun c s => do
    if c.active q == 0 then .ok (c.finish s)
    else
      c.acquireOver
      let base ← c.s b
      let val ← if kind == .storeS then c.s d else .ok 0
      let m := Quals.memx q
      let ea := base + m.ofs.signExtend 64
      let op := memOf kind size signed 0 m
      match s.locate c.iss.core c.iss.grp c.g (kind == .storeS) false size .l 0 ea with
      | .error e => .error (.trap (FaultInfo.withAddr e ea))
      | .ok (t, off) =>
        c.accessWait s op [(.l, t)]
        let h : Half := ⟨c.iss.ent, 1, d.toNat, 0, 0, 0, none, 0, .l⟩
        let x : Acc := ⟨0, d.toNat, off, val.setWidth 128, 0, 0⟩
        let e := c.entry .l (.mem op [h] [(0, ea)] [⟨t, [x], .todo, none, 0, 0⟩])
        let a := c.g.arch
        let a := if kind == .loadS && d != 0 then
            { a with sPend := a.sPend.filter (fun p => p.1 != d.toNat) ++ [(d.toNat, c.pos)] } else a
        .ok ({ c with g := { c.g with arch := a } }.launchMem s op [e])

/-- The latest time from which on the bytes of the copy operations that the group has observed are visible device-wide
(R192, 05 R139). -/
def State.seenCopies (s : State) (g : Group) : Nat :=
  match s.team g with
  | none => 0
  | some t => g.seen.foldl (fun n k => match t.chans[k]? with
      | some x => max n (s.chans.get (t.core * 8 + x) Channel.zero).vtDev
      | none => n) 0

/-- FENCE, and FENCE.ENG where `eng` is set (R191, R192; 12 R301, R305): an acquire part orders the group's older loads, for
FENCE.ENG after the bytes of observed copy operations are visible at the scope. Copy engines read at the homes, where
released stores are. -/
def fenceMem (eng : Bool) (m : MemX) (s : State) : Host.Outcome State Fault Refusal :=
  run s fun c s => do
    if c.active (quals 0) == 0 then .ok (c.finish s)
    else
      c.acquireOver
      c.releaseFirst s m.ord m.sc
      if m.ord.getLsbD 0 then
        let cls := if m.sc.toNat ≤ 3 then 0 else scopeClass m.sc
        let t := s.seenCopies c.g
        if eng && cls != 0 && s.ns ≤ t && t != 0 then .error (.wait (.time t))
        else if !s.loaded c.g cls then .error (.wait (.loaded cls))
        else
          let g := if 3 ≤ m.sc.toNat then c.g.raiseFloor s.ns else c.g
          .ok (c.finish (c.put s g))
      else .ok (c.finish s)

def execFence (m : MemX) (s : State) : Host.Outcome State Fault Refusal := fenceMem false m s
def execFenceEng (m : MemX) (s : State) : Host.Outcome State Fault Refusal := fenceMem true m s

def execLdB8z (q : Quals) (d a s : BitVec 6) (s' : State) : Host.Outcome State Fault Refusal :=
  plainMem .load 1 false false q d a s s'

def execLdB8s (q : Quals) (d a s : BitVec 6) (s' : State) : Host.Outcome State Fault Refusal :=
  plainMem .load 1 true false q d a s s'

def execLdB16z (q : Quals) (d a s : BitVec 6) (s' : State) : Host.Outcome State Fault Refusal :=
  plainMem .load 2 false false q d a s s'

def execLdB16s (q : Quals) (d a s : BitVec 6) (s' : State) : Host.Outcome State Fault Refusal :=
  plainMem .load 2 true false q d a s s'

def execLdB32 (q : Quals) (d a s : BitVec 6) (s' : State) : Host.Outcome State Fault Refusal :=
  plainMem .load 4 false false q d a s s'

def execLdB64 (q : Quals) (d a s : BitVec 6) (s' : State) : Host.Outcome State Fault Refusal :=
  plainMem .load 8 false false q d a s s'

def execLdB128 (q : Quals) (d a s : BitVec 6) (s' : State) : Host.Outcome State Fault Refusal :=
  plainMem .load 16 false false q d a s s'

def execLdW32 (q : Quals) (d a : BitVec 6) (s' : State) : Host.Outcome State Fault Refusal :=
  plainMem .load 4 false true q d a 0 s'

def execStB8 (q : Quals) (d a s : BitVec 6) (s' : State) : Host.Outcome State Fault Refusal :=
  plainMem .store 1 false false q d a s s'

def execStB16 (q : Quals) (d a s : BitVec 6) (s' : State) : Host.Outcome State Fault Refusal :=
  plainMem .store 2 false false q d a s s'

def execStB32 (q : Quals) (d a s : BitVec 6) (s' : State) : Host.Outcome State Fault Refusal :=
  plainMem .store 4 false false q d a s s'

def execStB64 (q : Quals) (d a s : BitVec 6) (s' : State) : Host.Outcome State Fault Refusal :=
  plainMem .store 8 false false q d a s s'

def execStB128 (q : Quals) (d a s : BitVec 6) (s' : State) : Host.Outcome State Fault Refusal :=
  plainMem .store 16 false false q d a s s'

def execStW32 (q : Quals) (d a : BitVec 6) (s' : State) : Host.Outcome State Fault Refusal :=
  plainMem .store 4 false true q d a 0 s'

def execLduB32z (q : Quals) (d s : BitVec 6) (s' : State) : Host.Outcome State Fault Refusal :=
  scalarMem .loadS 4 false q d s s'

def execLduB32s (q : Quals) (d s : BitVec 6) (s' : State) : Host.Outcome State Fault Refusal :=
  scalarMem .loadS 4 true q d s s'

def execLduB64 (q : Quals) (d s : BitVec 6) (s' : State) : Host.Outcome State Fault Refusal :=
  scalarMem .loadS 8 false q d s s'

def execStuB32 (q : Quals) (d s : BitVec 6) (s' : State) : Host.Outcome State Fault Refusal :=
  scalarMem .storeS 4 false q d s s'

def execStuB64 (q : Quals) (d s : BitVec 6) (s' : State) : Host.Outcome State Fault Refusal :=
  scalarMem .storeS 8 false q d s s'

def execLdxB8z (g : BitVec 3) (d a s : BitVec 6) (m : MemX) (s' : State) : Host.Outcome State Fault Refusal :=
  orderedMem .load 1 false 0 g d a s m s'

def execLdxB8s (g : BitVec 3) (d a s : BitVec 6) (m : MemX) (s' : State) : Host.Outcome State Fault Refusal :=
  orderedMem .load 1 true 0 g d a s m s'

def execLdxB16z (g : BitVec 3) (d a s : BitVec 6) (m : MemX) (s' : State) : Host.Outcome State Fault Refusal :=
  orderedMem .load 2 false 0 g d a s m s'

def execLdxB16s (g : BitVec 3) (d a s : BitVec 6) (m : MemX) (s' : State) : Host.Outcome State Fault Refusal :=
  orderedMem .load 2 true 0 g d a s m s'

def execLdxB32 (g : BitVec 3) (d a s : BitVec 6) (m : MemX) (s' : State) : Host.Outcome State Fault Refusal :=
  orderedMem .load 4 false 0 g d a s m s'

def execLdxB64 (g : BitVec 3) (d a s : BitVec 6) (m : MemX) (s' : State) : Host.Outcome State Fault Refusal :=
  orderedMem .load 8 false 0 g d a s m s'

def execLdxB128 (g : BitVec 3) (d a s : BitVec 6) (m : MemX) (s' : State) : Host.Outcome State Fault Refusal :=
  orderedMem .load 16 false 0 g d a s m s'

def execStxB8 (g : BitVec 3) (d a s : BitVec 6) (m : MemX) (s' : State) : Host.Outcome State Fault Refusal :=
  orderedMem .store 1 false 0 g d a s m s'

def execStxB16 (g : BitVec 3) (d a s : BitVec 6) (m : MemX) (s' : State) : Host.Outcome State Fault Refusal :=
  orderedMem .store 2 false 0 g d a s m s'

def execStxB32 (g : BitVec 3) (d a s : BitVec 6) (m : MemX) (s' : State) : Host.Outcome State Fault Refusal :=
  orderedMem .store 4 false 0 g d a s m s'

def execStxB64 (g : BitVec 3) (d a s : BitVec 6) (m : MemX) (s' : State) : Host.Outcome State Fault Refusal :=
  orderedMem .store 8 false 0 g d a s m s'

def execStxB128 (g : BitVec 3) (d a s : BitVec 6) (m : MemX) (s' : State) : Host.Outcome State Fault Refusal :=
  orderedMem .store 16 false 0 g d a s m s'

def execAtomAddI32 (g : BitVec 3) (d a s : BitVec 6) (m : MemX) (s' : State) : Host.Outcome State Fault Refusal :=
  orderedMem .atom 4 false 0 g d a s m s'

def execAtomAddF32 (g : BitVec 3) (d a s : BitVec 6) (m : MemX) (s' : State) : Host.Outcome State Fault Refusal :=
  orderedMem .atom 4 false 1 g d a s m s'

def execAtomMinI32 (g : BitVec 3) (d a s : BitVec 6) (m : MemX) (s' : State) : Host.Outcome State Fault Refusal :=
  orderedMem .atom 4 false 2 g d a s m s'

def execAtomMaxI32 (g : BitVec 3) (d a s : BitVec 6) (m : MemX) (s' : State) : Host.Outcome State Fault Refusal :=
  orderedMem .atom 4 false 3 g d a s m s'

def execAtomMinu (g : BitVec 3) (d a s : BitVec 6) (m : MemX) (s' : State) : Host.Outcome State Fault Refusal :=
  orderedMem .atom 4 false 4 g d a s m s'

def execAtomMaxu (g : BitVec 3) (d a s : BitVec 6) (m : MemX) (s' : State) : Host.Outcome State Fault Refusal :=
  orderedMem .atom 4 false 5 g d a s m s'

def execAtomAnd (g : BitVec 3) (d a s : BitVec 6) (m : MemX) (s' : State) : Host.Outcome State Fault Refusal :=
  orderedMem .atom 4 false 6 g d a s m s'

def execAtomOr (g : BitVec 3) (d a s : BitVec 6) (m : MemX) (s' : State) : Host.Outcome State Fault Refusal :=
  orderedMem .atom 4 false 7 g d a s m s'

def execAtomXor (g : BitVec 3) (d a s : BitVec 6) (m : MemX) (s' : State) : Host.Outcome State Fault Refusal :=
  orderedMem .atom 4 false 8 g d a s m s'

def execAtomXchg (g : BitVec 3) (d a s : BitVec 6) (m : MemX) (s' : State) : Host.Outcome State Fault Refusal :=
  orderedMem .atom 4 false 9 g d a s m s'

def execAtomIncw (g : BitVec 3) (d a s : BitVec 6) (m : MemX) (s' : State) : Host.Outcome State Fault Refusal :=
  orderedMem .atom 4 false 10 g d a s m s'

def execAtomDecw (g : BitVec 3) (d a s : BitVec 6) (m : MemX) (s' : State) : Host.Outcome State Fault Refusal :=
  orderedMem .atom 4 false 11 g d a s m s'

def execAtomAddI64 (g : BitVec 3) (d a s : BitVec 6) (m : MemX) (s' : State) : Host.Outcome State Fault Refusal :=
  orderedMem .atom 8 false 12 g d a s m s'

def execAtomXchg64 (g : BitVec 3) (d a s : BitVec 6) (m : MemX) (s' : State) : Host.Outcome State Fault Refusal :=
  orderedMem .atom 8 false 13 g d a s m s'

def execAtomAddH2 (g : BitVec 3) (d a s : BitVec 6) (m : MemX) (s' : State) : Host.Outcome State Fault Refusal :=
  orderedMem .atom 4 false 14 g d a s m s'

def execAtomAddB2 (g : BitVec 3) (d a s : BitVec 6) (m : MemX) (s' : State) : Host.Outcome State Fault Refusal :=
  orderedMem .atom 4 false 15 g d a s m s'

def execRedAddI32 (g : BitVec 3) (d a s : BitVec 6) (m : MemX) (s' : State) : Host.Outcome State Fault Refusal :=
  orderedMem .red 4 false 0 g d a s m s'

def execRedAddF32 (g : BitVec 3) (d a s : BitVec 6) (m : MemX) (s' : State) : Host.Outcome State Fault Refusal :=
  orderedMem .red 4 false 1 g d a s m s'

def execRedMinI32 (g : BitVec 3) (d a s : BitVec 6) (m : MemX) (s' : State) : Host.Outcome State Fault Refusal :=
  orderedMem .red 4 false 2 g d a s m s'

def execRedMaxI32 (g : BitVec 3) (d a s : BitVec 6) (m : MemX) (s' : State) : Host.Outcome State Fault Refusal :=
  orderedMem .red 4 false 3 g d a s m s'

def execRedMinu (g : BitVec 3) (d a s : BitVec 6) (m : MemX) (s' : State) : Host.Outcome State Fault Refusal :=
  orderedMem .red 4 false 4 g d a s m s'

def execRedMaxu (g : BitVec 3) (d a s : BitVec 6) (m : MemX) (s' : State) : Host.Outcome State Fault Refusal :=
  orderedMem .red 4 false 5 g d a s m s'

def execRedAnd (g : BitVec 3) (d a s : BitVec 6) (m : MemX) (s' : State) : Host.Outcome State Fault Refusal :=
  orderedMem .red 4 false 6 g d a s m s'

def execRedOr (g : BitVec 3) (d a s : BitVec 6) (m : MemX) (s' : State) : Host.Outcome State Fault Refusal :=
  orderedMem .red 4 false 7 g d a s m s'

def execRedXor (g : BitVec 3) (d a s : BitVec 6) (m : MemX) (s' : State) : Host.Outcome State Fault Refusal :=
  orderedMem .red 4 false 8 g d a s m s'

def execRedXchg (g : BitVec 3) (d a s : BitVec 6) (m : MemX) (s' : State) : Host.Outcome State Fault Refusal :=
  orderedMem .red 4 false 9 g d a s m s'

def execRedIncw (g : BitVec 3) (d a s : BitVec 6) (m : MemX) (s' : State) : Host.Outcome State Fault Refusal :=
  orderedMem .red 4 false 10 g d a s m s'

def execRedDecw (g : BitVec 3) (d a s : BitVec 6) (m : MemX) (s' : State) : Host.Outcome State Fault Refusal :=
  orderedMem .red 4 false 11 g d a s m s'

def execRedAddI64 (g : BitVec 3) (d a s : BitVec 6) (m : MemX) (s' : State) : Host.Outcome State Fault Refusal :=
  orderedMem .red 8 false 12 g d a s m s'

def execRedXchg64 (g : BitVec 3) (d a s : BitVec 6) (m : MemX) (s' : State) : Host.Outcome State Fault Refusal :=
  orderedMem .red 8 false 13 g d a s m s'

def execRedAddH2 (g : BitVec 3) (d a s : BitVec 6) (m : MemX) (s' : State) : Host.Outcome State Fault Refusal :=
  orderedMem .red 4 false 14 g d a s m s'

def execRedAddB2 (g : BitVec 3) (d a s : BitVec 6) (m : MemX) (s' : State) : Host.Outcome State Fault Refusal :=
  orderedMem .red 4 false 15 g d a s m s'

def execCas32 (g : BitVec 3) (d a s : BitVec 6) (m : MemX) (s' : State) : Host.Outcome State Fault Refusal :=
  orderedMem .cas 4 false 0 g d a s m s'

def execCas64 (g : BitVec 3) (d a s : BitVec 6) (m : MemX) (s' : State) : Host.Outcome State Fault Refusal :=
  orderedMem .cas 8 false 1 g d a s m s'

end Sys2Proof.Machine
end

