-- ==== Sys2Proof/Machine/Identity.lean ====
section
/-!
DEFINITION. The work identifier and the identity registers of a group (14 R344, R345).
-/
namespace Sys2Proof.Machine

/-- Team coordinates c2 to c5 of a linear team number (R344). -/
def coordsOf (extent : List Nat) (t : Nat) : List Nat :=
  let x2 := extent.getD 0 1
  let x3 := extent.getD 1 1
  let x4 := extent.getD 2 1
  [t % x2, t / x2 % x3, t / (x2 * x3) % x4, t / (x2 * x3 * x4)]

/-- Field k of %wid; 0 for a field of width 0 and in a privileged group. -/
def State.widField (s : State) (g : Group) (k : Nat) : Nat :=
  match s.team g, s.launch g with
  | some t, some l =>
    if l.hdr.width.getD k 0 == 0 then 0
    else if k == 1 then g.gidx else if k == 0 then 0 else (coordsOf l.hdr.extent t.t).getD (k - 2) 0
  | _, _ => 0

/-- %wid: the fields packed from bit 0 upward, field 0 zero. -/
def State.wid (s : State) (g : Group) : DWord :=
  match s.launch g with
  | none => 0
  | some l =>
    let start := fun (k : Nat) => (l.hdr.width.take k).foldl (· + ·) 0
    BitVec.ofNat 64 ((List.range 6).foldl (fun a k => a + s.widField g k * 2 ^ start k) 0)

/-- %part (Table 14-3). -/
def partReg (core grp : Nat) : DWord :=
  if isRanene core then BitVec.ofNat 64 (dieOfCore core * 2 ^ 11 + agentOfCore core * 2 ^ 4)
  else BitVec.ofNat 64 (dieOfCore core * 2 ^ 11 + clusterOfCore core * 2 ^ 4 + core % 2 * 2 ^ 3 + partOf core grp)

end Sys2Proof.Machine
end

