-- ==== Sys2Proof/Machine/Places.lean ====
section
/-!
DEFINITION. Frames and the instructions on places: HOME, DRAIN, MFPM and QUOTA (08 R202 to R206, R220 to R227), with
what a HOME does when its value moves and when it retires.
-/
namespace Sys2Proof.Machine

/-! ### Frames (08 R204, R206) -/

/-- Old frames of HOMEs that have not retired. -/
def Group.leaving (g : Group) : List VReg :=
  g.rob.filterMap fun e => match e.op with
    | .home _ old => if e.stage == .released then none else some old
    | _ => none

/-- The frames a group holds at a place. -/
def Group.framesAt (g : Group) (p : Place) : List VReg :=
  (g.arch.v.toList.filter fun r => r.place == p) ++ (Group.leaving g).filter fun r => r.place == p

/-- KU, HU and MU. -/
def Group.count (g : Group) (p : Place) : Nat := (Group.framesAt g p).length

def Group.quotaOf (g : Group) (p : Place) : Nat :=
  match p with
  | .l => 64
  | .k => g.kq
  | .h => g.hq
  | .m => g.mq

/-- The anchor of a frame at K. -/
def frameAnchor (bank frame : Nat) : DWord := BitVec.ofNat 64 (bank * 2 ^ 16 + frame * 2 ^ 7)

/-- The lowest free frame of a team's FRAME banks: 384 a bank (06 Table 06-1). The spec says only that there is one; that the
first free one in the order of the team's banks is taken is the model's choice (DESIGN CHOICE, log 58). -/
def State.freeFrame (s : State) (g : Group) : Option DWord :=
  (s.team g).bind fun t =>
    let mates := t.groups.filterMap fun n => s.group t.core n
    let used := mates.flatMap fun h => (Group.framesAt h .k).map (·.anchor)
    (t.frm.flatMap fun b => (List.range 384).map fun f => frameAnchor b f).find? fun a => !used.contains a

/-- Frames in use at the slice or the unit of an address, of every group of the device. -/
def State.framesUsed (s : State) (p : Place) (site : Nat) : Nat :=
  s.groups.foldl (fun n x =>
    let part := s.partOfCore (x.1 / 256)
    n + ((Group.framesAt x.2 p).filter fun r => s.anchorSite part p r.dpa == site).length) 0

/-- The checks and the translation of an anchor at H or M (R220). -/
def State.anchor (s : State) (core : Nat) (g : Group) (p : Place) (a : DWord) : Except (BitVec 8) (Nat × PageMap) :=
  if !isUser a then .error causeProtection
  else if a.toNat % 128 != 0 then .error causeMisaligned
  else
    match (s.xltVi core g).bind fun v => s.page core v a with
    | none => .error causeTranslation
    | some pg =>
      let dpa := pg.dpa a
      let backed := match s.dpaKind (s.partOfCore core) dpa with
        | .dram _ => true
        | _ => false
      if !pg.r then .error causeProtection
      else if p == .m && !(isCompute dpa && backed) then .error causeProtection
      else if p == .h && isHostDpa dpa then .error causeProtection
      else .ok (dpa, pg)

def Ctx.anchor (c : Ctx) (s : State) (p : Place) (a : DWord) : Except Stop (Nat × PageMap) :=
  (s.anchor c.iss.core c.g p a).mapError fun x => Stop.trap (FaultInfo.withAddr x a)

/-- A frame is allocated, or the allocation fails (R206): the operand names the place, and whether the storage is full. L has
neither a quota nor frames. -/
def Ctx.frameRoom (c : Ctx) (s : State) (p : Place) (a : DWord) (dpa : Nat) : Except Stop DWord :=
  let full := fun (storage : Bool) =>
    Except.error (Stop.trap { FaultInfo.withAddr causePlaceFull a with operand := BitVec.ofNat 64 (p.code + bitNat storage 2) })
  let site := s.anchorSite (s.partOfCore c.iss.core) p dpa
  if p == .l then .ok 0
  else if c.g.quotaOf p ≤ Group.count c.g p then full false
  else
    match p with
    | .l => .ok 0
    | .k =>
      match s.freeFrame c.g with
      | some x => .ok x
      | none => full true
    | .h => if 4096 ≤ s.framesUsed .h site then full true else .ok a
    | .m => if 16 ≤ s.framesUsed .m site then full true else .ok a

/-! ### HOME (R220 to R222) -/

/-- HOME of register n to a place, the anchor register's value being `a`. -/
def Ctx.home (c : Ctx) (s : State) (d : BitVec 6) (new : Place) (a : DWord) : Except Stop State := do
  let n := d.toNat
  let old := c.g.arch.vreg n
  require (!c.isW d) (FaultInfo.ofCause causeMeld)
  require (new != .l || n < c.g.lq) (FaultInfo.withOperand causeQuota (BitVec.ofNat 64 (n * 2 ^ 8)))
  require (new == .l || (!isRanene c.iss.core && c.placeOpen s new)) (FaultInfo.ofCause causePlaceOp)
  let at' ← if new == .h || new == .m then (c.anchor s new a).map some else .ok none
  let s := if at'.isSome then s.touchAll c.iss.core c.g [a] else s
  let dpa := (at'.map (·.1)).getD 0
  if new == old.place && (new == .l || new == .k || a == old.anchor) then .ok (c.finish s)
  else
    c.room 1
    -- an AOP on a frame at M has made its writes (log 31)
    if (old.place == .l || old.place == .m) && !old.full then .error (.wait (.full [n]))
    let anchor ← c.frameRoom s new a dpa
    let r : VReg := { old with place := new, anchor := anchor, dpa := dpa, prods := [(c.pos, 0xFFFFFFFF)],
                               tags := if new == .m then List.replicate 8 0 else [], page := at'.map (·.2) }
    let e := c.entry (if new == .l then old.place else new) (.home n old)
    .ok (c.finish (c.put s { c.g with arch := c.g.arch.setV n r, rob := c.g.rob ++ [e] }))

def homeTo (q : Quals) (d : BitVec 6) (new : Place) (a : BitVec 6) (s : State) : Host.Outcome State Fault Refusal :=
  run s fun c s => do
    if c.active q == 0 then .ok (c.finish s)
    else
      let x ← c.s a
      c.home s d new x

def execHomeL (q : Quals) (d : BitVec 6) (s : State) : Host.Outcome State Fault Refusal := homeTo q d .l 0 s
def execHomeK (q : Quals) (d : BitVec 6) (s : State) : Host.Outcome State Fault Refusal := homeTo q d .k 0 s
def execHomeH (q : Quals) (d a : BitVec 6) (s : State) : Host.Outcome State Fault Refusal := homeTo q d .h a s
def execHomeM (q : Quals) (d a : BitVec 6) (s : State) : Host.Outcome State Fault Refusal := homeTo q d .m a s

/-- The value of an export is there: every older producer of the register has delivered. -/
def homeReady (e : Entry) (reg : Nat) : Bool := (e.before.vreg reg).full

/-- The value arrives in the new frame's pending half. -/
def Group.homeArrives (g : Group) (e : Entry) (reg : Nat) : Group :=
  let w := (e.before.vreg reg).lanes
  let g := g.mapYounger e.pos fun a => a.supplyV reg e.pos 0xFFFFFFFF w
  g.editEntry e.pos e.place fun x => { x with stage := .executed }

/-! ### DRAIN and MFPM (R224, R225) -/

/-- Every v register is full. -/
def Arch.allFull (a : Arch) : Bool := a.v.toList.all fun r => r.full

/-- What DRAIN waits for. -/
def Ctx.drainWait (c : Ctx) : Except Stop Unit :=
  if !c.g.idle then .error (.wait .drained)
  else if !c.g.arch.allFull then .error (.wait (.full ((List.range 64).filter fun i => !(c.g.arch.vreg i).full)))
  else .ok ()

def execDrain (q : Quals) (s : State) : Host.Outcome State Fault Refusal :=
  runThen s <| once q fun c s => do
    c.drainWait
    .ok s

/-- An AWRT or APASS on the frame of a register has not performed (04 R104). -/
def Entry.rowsOn (e : Entry) (n : Nat) : Bool :=
  match e.op with
  | .aop .awrt hs _ | .aop .apass hs _ => hs.any fun h => h.d == n
  | _ => false

/-- Registers an unretired post writes. -/
def Entry.writesReg (e : Entry) (n : Nat) : Bool :=
  e.place != .l && e.stage != .released && (match e.op with
    | .lane _ hs => hs.any fun h => h.d == n
    | .mem m hs _ _ => m.kind.returns && hs.any fun h => h.d ≤ n && n < h.d + m.span
    | .aop _ hs _ => hs.any fun h => h.d == n
    | .home r _ => r == n
    | _ => false)

/-- The MFPM word (Table 08-7). -/
def mfpmWord (g : Group) (n : Nat) : DWord :=
  let r := g.arch.vreg n
  let anchor := match r.place with
    | .l => 0
    | .k => r.anchor.toNat % 2 ^ 21 / 2 ^ 7 * 2 ^ 7
    | _ => r.anchor.toNat % 2 ^ 56 / 2 ^ 7 * 2 ^ 7
  BitVec.ofNat 64 (anchor + bitNat (g.arch.dirty.getLsbD n) 6 + bitNat r.full 5 +
    bitNat (g.rob.any fun e => e.writesReg n) 4 + r.place.code)

def execMfpm (q : Quals) (d a : BitVec 6) (s : State) : Host.Outcome State Fault Refusal :=
  runThen s <| once q fun c s => .ok (c.writeS s d (mfpmWord c.g a.toNat))

/-! ### QUOTA (R226, R227) -/

/-- Discards the registers at L from LQ q up to LQ lq. -/
def Arch.discard (a : Arch) (q lq : Nat) : Arch :=
  ((List.range lq).filter fun n => q ≤ n && (a.vreg n).place == .l).foldl (fun a n =>
    { a.setV n VReg.zero with dirty := a.dirty &&& ~~~ ((1 : BitVec 64) <<< n) }) a

/-- What a path waits for, or what it waited for and has still to take. -/
def Path.inLine (p : Path) : Option Wait := if p.valid && (p.state == .blocked || p.state == .ready) then p.wait else .none

/-- A path of the group's team waits for the pool, or has its turn. -/
def State.poolWaited (s : State) (g : Group) : Bool :=
  match s.team g with
  | some t => t.groups.any fun n => match s.group t.core n with
    | some h => !h.ended && h.arch.valid.any fun i => match (h.arch.path i).inLine with
      | some (.pool _) => true
      | _ => false
    | none => false
  | none => false

/-- LQ rises to n: registers come from the pool, and names LQ to n - 1 at L read zero (R227). -/
def State.takePool (s : State) (core grp : Nat) (g : Group) (n : Nat) : State :=
  (s.editTeam g fun t => { t with pool := t.pool - (n - g.lq) }).setGroup core grp
    { g with arch := g.arch.discard g.lq n, lq := n }

def execQuota (q : Quals) (a : BitVec 6) (s : State) : Host.Outcome State Fault Refusal :=
  run s fun c s => do
    if c.active q == 0 then .ok (c.finish s)
    else
      let x ← c.s a
      require (x.toNat % 8 == 0 && x.toNat ≤ 64) (FaultInfo.ofCause causeQuota)
      let n := x.toNat
      match s.team c.g with
      | none => .ok (c.finish s)
      | some t =>
        -- waiters are served in the order of their requests; the one whose turn it is keeps it while it drains again
        let turn := (c.g.arch.path c.iss.ent).wait == some (.pool n)
        if turn && !(c.g.idle && c.g.arch.allFull) then .ok (c.block s (.pool n))
        else
          c.drainWait
          if n ≤ c.g.lq then
            let s := s.editTeam c.g fun t => { t with pool := t.pool + (c.g.lq - n) }
            .ok (c.finish (c.put s { c.g with arch := c.g.arch.discard n c.g.lq, lq := n }))
          else if n - c.g.lq ≤ t.pool && (turn || !(s.poolWaited c.g)) then
            .ok (c.finish (s.takePool c.iss.core c.iss.grp c.g n))
          else .ok (c.block s (.pool n))

end Sys2Proof.Machine
end

