-- ==== Sys2Proof/Machine/Mirmet.lean ====
section
/-!
DEFINITION. Mirmet units and the AOP instructions (04 R98 to R108): dispatch, what a unit does with a post, row
instructions by sub-waves, refresh, and ordinary accesses that waited for a unit.
-/
namespace Sys2Proof.Machine

/-! ### Dispatch (R106, R107) -/

/-- An AOP with fields D and A, `useA` where its form has a control source, and bank b. -/
def aopInstr (o : AopOp) (q : Quals) (d a b : BitVec 6) (useA : Bool) (s : State) : Host.Outcome State Fault Refusal :=
  run s fun c s => do
    let act := c.active q
    let m := Quals.modx q
    if act == 0 then .ok (c.finish s)
    else
      let hs := (c.halves act).map fun h => c.half h.1 h.2 d a 0 0 none 0
      let bad ← c.checkHalves s (hs.map fun h =>
        let n : Need := ⟨m.pa != 0 && c.isW a, [h.d], h.place, h.place == .m && m.pa == 0, [], []⟩
        (h.ent, if useA then n.source m.ta h.a else n))
      let good := hs.filter fun h => !(bad.any fun b => b.1 == h.ent)
      c.room (remotePlaces good).length
      let (s, c, es) ← c.leaveWith s bad (if good.isEmpty then [] else [c.entry .m (.aop o good b.toNat)])
      let arch := good.foldl (fun a h => a.oweV h.d c.pos 0xFFFFFFFF) c.g.arch
      .ok (c.finish (c.put s { c.g with arch := arch, rob := c.g.rob ++ es }))

def execAkey (q : Quals) (d a : BitVec 6) (s : State) : Host.Outcome State Fault Refusal := aopInstr .akey q d a 0 true s
def execAact (q : Quals) (d a : BitVec 6) (s : State) : Host.Outcome State Fault Refusal := aopInstr .aact q d a 0 true s
def execAcmp (q : Quals) (d : BitVec 6) (s : State) : Host.Outcome State Fault Refusal := aopInstr .acmp q d 0 0 false s
def execAcmpa (q : Quals) (d : BitVec 6) (s : State) : Host.Outcome State Fault Refusal := aopInstr .acmpa q d 0 0 false s
def execAcmpo (q : Quals) (d : BitVec 6) (s : State) : Host.Outcome State Fault Refusal := aopInstr .acmpo q d 0 0 false s
def execAwrt (q : Quals) (d : BitVec 6) (s : State) : Host.Outcome State Fault Refusal := aopInstr .awrt q d 0 0 false s
def execApass (q : Quals) (d a : BitVec 6) (s : State) : Host.Outcome State Fault Refusal := aopInstr .apass q d a 0 true s
def execApre (q : Quals) (d : BitVec 6) (s : State) : Host.Outcome State Fault Refusal := aopInstr .apre q d 0 0 false s
def execArdt (q : Quals) (d b : BitVec 6) (s : State) : Host.Outcome State Fault Refusal := aopInstr .ardt q d 0 b false s
def execAcnt (q : Quals) (d : BitVec 6) (s : State) : Host.Outcome State Fault Refusal := aopInstr .acnt q d 0 0 false s

/-! ### Frames at M (R98) -/

def AopOp.isRow : AopOp → Bool
  | .acmp | .acmpa | .acmpo | .awrt | .apass => true
  | _ => false

/-- Performed at release only (Table 04-9). -/
def AopOp.late : AopOp → Bool
  | .awrt | .apass => true
  | _ => false

/-- The frame with some words replaced. -/
def VReg.withWords (r : VReg) (ws : List (Nat × Word)) : VReg :=
  { r with lanes := ws.foldl (fun v w => v.setIfInBounds w.1 w.2) r.lanes }

/-- STATUS, word 4, with bits hi:lo replaced. -/
def VReg.withStatus (r : VReg) (lo n x : Nat) : VReg :=
  let w := (r.lane 4).toNat
  let m := (2 ^ n - 1) * 2 ^ lo
  r.withWords [(4, BitVec.ofNat 32 (w - (w &&& m) + (x * 2 ^ lo &&& m)))]

def VReg.tag (r : VReg) (j : Nat) : BitVec 256 := r.tags.getD j 0

/-- Enabled compute banks (word 5), ascending. -/
def VReg.banks (r : VReg) : List Nat := (List.range 8).filter fun j => (r.lane 5).getLsbD j

/-- The AOP at `pos` makes its frame writes: every lane it still owes, and the tag vectors (R104). -/
def Arch.supplyFrame (a : Arch) (n pos : Nat) (r : VReg) : Arch :=
  let a := a.supplyV n pos 0xFFFFFFFF r.lanes
  let x := a.vreg n
  if x.place == .m then a.setV n { x with tags := r.tags } else a

/-- check_stripe (R106): the cause, if the row may not be used, by the translation that the frame holds. -/
def VReg.stripeFault (r : VReg) (row : Nat) (write : Bool) : Option (BitVec 8) :=
  if 131072 ≤ row then some causeProtection
  else
    match r.page with
    | none => some causeTranslation
    | some pg =>
      let base := r.dpa / 2 ^ 30 * 2 ^ 30 + row * 8192
      if base < pg.pa || pg.pa + pg.size < base + 8192 || !pg.allows (if write then .write else .read) then some causeProtection
      else none

def State.skew (s : State) (stack : Nat) : Nat := bitsOf (s.mr (mirmetReg stack)) 11 8
def State.mfaw (s : State) (stack : Nat) : Nat := bitsOf (s.mr (mirmetReg stack)) 23 16

/-- close_rows: the rows a frame holds open. -/
def State.closeRows (s : State) (r : VReg) : State :=
  let (st, pc) := r.unit
  let u := s.munit st pc
  s.setMunit st pc { u with rows := u.rows.filter fun x => x.2 != (r.lane 3).toNat }

/-! ### Row effects (R106) -/

/-- The test of a word. -/
def rowTest (key mask w : Word) : Bool := (w ^^^ key) &&& mask == 0

/-- One column: the new word and tag from the old ones. -/
def columnEffect (o : AopOp) (f : VReg) (a0 a1 : Word) (w : Word) (t : Bool) : Word × Bool :=
  let test := rowTest (f.lane 0) (f.lane 1) w
  match o with
  | .acmp => (w, test)
  | .acmpa => (w, t && test)
  | .acmpo => (w, t || test)
  | .awrt => (if t then (w &&& ~~~ f.lane 1) ||| (f.lane 2 &&& f.lane 1) else w, t)
  | .apass =>
    let bit := fun (lo : Nat) => w.getLsbD (a0.toNat / 2 ^ lo % 32)
    let x := bitNat (bit 0) 2 + bitNat (bit 8) 1 + bitNat t 0
    let po := a0.toNat / 2 ^ 16 % 32
    let m : Word := (1 : Word) <<< po
    (if a1.getLsbD x then w ||| m else w &&& ~~~ m, a1.getLsbD (8 + x))
  | _ => (w, t)

/-- One bank's row of a frame: the new words and tag vector, whether an uncorrectable error was met, and in how many columns
an error was corrected. A column with an uncorrectable error keeps its word and loses its tag. -/
def State.rowBank (s : State) (o : AopOp) (f : VReg) (a0 a1 : Word) (j : Nat) : List Word × BitVec 256 × Bool × Nat :=
  let (st, pc) := f.unit
  let base := dramCell st pc (8 + j) (f.lane 3).toNat 0
  let bytes := s.readBytes base 1024
  let hit := fun (xs : List Nat) (c : Nat) => xs.any fun x => base + 4 * c ≤ x && x < base + 4 * c + 4
  let cols := (List.range 256).map fun c =>
    let w := BitVec.ofNat 32 (fieldOf bytes (4 * c) 4)
    let (w', t') := columnEffect o f a0 a1 w ((f.tag j).getLsbD c)
    if hit s.ue c then (w, false) else (w', t')
  let tags := cols.zipIdx.foldl (fun (t : BitVec 256) x => if x.1.2 then t ||| ((1 : BitVec 256) <<< x.2) else t) 0
  (cols.map (·.1), tags, (List.range 256).any (hit s.ue), ((List.range 256).filter (hit s.ce)).length)

/-- A row instruction of an interface on the enabled banks: memory, and the frame with its tags and STATUS. Corrected errors
are counted (R86), and 1,024 bytes a bank charged (18 R453). -/
def State.rowEffect (s : State) (vi : Nat) (o : AopOp) (f : VReg) (a0 a1 : Word) (waves : Nat) (stall : Bool) : State × VReg :=
  let (st, pc) := f.unit
  let res := (VReg.banks f).map fun j => (j, s.rowBank o f a0 a1 j)
  let s := s.count vi 4 (1024 * res.length)
  let s := if AopOp.late o then s.count vi 5 (1024 * res.length) else s
  let s := if AopOp.late o then res.foldl (fun s x =>
    s.writeBytes (dramCell st pc (8 + x.1) (f.lane 3).toNat 0) (x.2.1.flatMap fun w => bytesOfNat 4 w.toNat)) s else s
  let fixed := res.foldl (fun n x => n + x.2.2.2.2) 0
  let s := { s with corrected := s.corrected + fixed }
  let tags := (List.range 8).map fun j => match res.find? fun x => x.1 == j with
    | some x => x.2.2.1
    | none => f.tag j
  let f := { f with tags := tags }
  let f := if res.any fun x => x.2.2.2.1 then f.withStatus 10 1 1 else f
  let f := if fixed != 0 then f.withStatus 9 1 1 else f
  (s, (f.withStatus 0 8 waves).withStatus 11 1 (bitNat stall 0))

/-! ### A unit at work (R99 to R105) -/

/-- The frame of an AOP's half as older instructions of the group leave it, and its control words. -/
def Entry.frame (e : Entry) (h : Half) : VReg := e.before.vreg h.d

def Entry.control (e : Entry) (h : Half) (l : Nat) : Word := ((e.old.getD e.before).vreg h.a).lane l

/-- The row and the banks that an AACT chooses. -/
def aactChoice (a0 a1 : Word) : Nat × Word :=
  let en := a1.toNat % 256
  (a0.toNat, BitVec.ofNat 32 (if en == 0 then 0xFF else en))

/-- The frame writes of an AACT. -/
def VReg.chosen (f : VReg) (a0 a1 : Word) : VReg :=
  let f := f.withWords [(3, a0), (5, (aactChoice a0 a1).2)]
  { f.withStatus 8 3 0 with tags := List.replicate 8 0 }

/-- The frame writes of an AOP that opens no row. -/
def State.simpleAop (s : State) (o : AopOp) (e : Entry) (h : Half) (b : Nat) : State × VReg :=
  let f := e.frame h
  let a := e.control h
  match o with
  | .akey => (s, f.withWords [(0, a 0), (1, a 1), (2, a 2)])
  | .apre => (s.closeRows f, f.withWords [(3, 0xFFFFFFFF)])
  | .ardt => (s, f.withWords ((List.range 8).map fun m => (16 + m, (f.tag b).extractLsb' (32 * m) 32)))
  | .acnt => (s, f.withWords ((List.range 8).map fun j =>
      (8 + j, BitVec.ofNat 32 ((List.range 256).filter fun c => (f.tag j).getLsbD c).length)))
  | _ => (s, f)

/-- The frame writes reach the group. -/
def State.frameWrites (s : State) (core grp pos reg : Nat) (f : VReg) : State :=
  match s.group core grp with
  | none => s
  | some g => s.setGroup core grp (g.mapYounger pos fun a => a.supplyFrame reg pos f)

/-- A half of an AOP finds no row (R106). -/
def noRow (f : VReg) : Bool := f.lane 3 == 0xFFFFFFFF || (VReg.banks f).isEmpty

/-- The check of an AOP's half that may trap. -/
def Entry.aopFault (e : Entry) (o : AopOp) (h : Half) : Option (BitVec 8) :=
  let f := e.frame h
  if o == .aact then f.stripeFault (e.control h 0).toNat false
  else if AopOp.isRow o && !noRow f then f.stripeFault (f.lane 3).toNat (AopOp.late o)
  else none

/-- A unit is between Mirmet instructions, and has served the ordinary accesses that waited (R99, R103). -/
def State.unitFree (s : State) (k : Nat × Nat) : Bool :=
  let u := s.munit k.1 k.2
  u.job.isNone && !s.unitWaited u && u.ends ≤ s.ns

/-- The post is ready: frames and control sources are there, no older AWRT or APASS on the frame and no older write of the
group to its row is unperformed (R99, R104; 12 R297). -/
def Group.aopReady (g : Group) (e : Entry) (hs : List Half) (useA : Bool) : Bool :=
  hs.all fun h =>
    (e.frame h).full && (!useA || ((e.old.getD e.before).vreg h.a).full) &&
      !(g.rob.any fun x => x.pos < e.pos && x.rowsOn h.d) && g.rowClear e (e.frame h)

/-- A refresh bars the precharge with which an AACT or an APRE begins (R102). -/
def State.barred (s : State) (o : AopOp) (k : Nat × Nat) : Bool :=
  (o == .aact || o == .apre) && decide (s.ns < (s.munit k.1 k.2).refresh)

/-! ### Turns: posts go on at a unit in the order in which they become ready (R99) -/

/-- A post that stands in line is there still. -/
def State.inTurn (s : State) (x : Nat × Nat × Nat) : Bool := ((s.group x.1 x.2.1).bind fun g => g.entry x.2.2 .m).isSome

/-- A post stands in line at units. -/
def State.lineUp (s : State) (ks : List (Nat × Nat)) (me : Nat × Nat × Nat) : State :=
  ks.foldl (fun s k =>
    let u := s.munit k.1 k.2
    if u.line.contains me then s else s.setMunit k.1 k.2 { u with line := u.line.filter s.inTurn ++ [me] }) s

/-- It is first in line at each of them. -/
def State.firstInLine (s : State) (ks : List (Nat × Nat)) (me : Nat × Nat × Nat) : Bool :=
  ks.all fun k => ((s.munit k.1 k.2).line.filter s.inTurn).head? == some me

/-- It has had its turn. -/
def State.leaveLine (s : State) (ks : List (Nat × Nat)) (me : Nat × Nat × Nat) : State :=
  ks.foldl (fun s k =>
    let u := s.munit k.1 k.2
    s.setMunit k.1 k.2 { u with line := u.line.filter (· != me) }) s

/-- A ready post at units takes its turn: it acts if it is first in line and the units are free, and waits in line if not. -/
def State.takeTurn (s : State) (ks : List (Nat × Nat)) (me : Nat × Nat × Nat) (free : Bool) (f : State → State) : State :=
  let s := s.lineUp ks me
  if s.firstInLine ks me && free then f (s.leaveLine ks me) else s

/-- The units of some halves. -/
def Entry.units (e : Entry) (hs : List Half) : List (Nat × Nat) :=
  if e.place == .m then (hs.map fun h => (e.frame h).unit).eraseDups else []

/-! ### Sub-waves (R100 to R102) -/

/-- The next sub-wave of the instruction starts, if its time has come: no earlier than tMFAW after the previous one started and
than its end, and not during a refresh. An AACT activates and does nothing else. -/
def MUnit.startWave (u : MUnit) (s : State) (stack : Nat) (o : AopOp) (row total : Nat) : MUnit :=
  match u.job with
  | none => u
  | some j =>
    let due := max (max u.ends j.since) (if u.ends == 0 then 0 else u.start + s.mfaw stack)
    if !j.now.isEmpty || j.todo.isEmpty || s.ns < due || s.ns < u.refresh then u
    else
      let keep := total ≤ s.actMax stack
      let bs := j.todo.take (s.actMax stack)
      let isOpen := keep && bs.all fun b => u.rows.find b == some row
      let n := bs.length
      let work := if o == .aact then 0 else 8
      let dur := if isOpen then work
        else (n - 1) * s.skew stack + 14 + work + (if keep then 0 else 14 + if AopOp.late o then 16 else 0)
      { u.openRows bs row keep (s.actMax stack) with
        start := s.ns, ends := s.ns + dur,
        job := some { j with now := bs, todo := j.todo.drop bs.length, waves := j.waves + 1, stall := j.stall || due < u.refresh } }

/-- The row and the banks an AOP works on. -/
def Entry.rowOf (e : Entry) (o : AopOp) (h : Half) : Nat × List Nat :=
  if o == .aact then
    let x := aactChoice (e.control h 0) (e.control h 1)
    (x.1, (List.range 8).filter fun j => x.2.getLsbD j)
  else (((e.frame h).lane 3).toNat, VReg.banks (e.frame h))

/-- A row instruction or an AACT begins on the unit of its frame, or follows the other frame of its consist there; a row
instruction without a row only sets NOROW (R106). -/
def State.beginRow (s : State) (core grp : Nat) (e : Entry) (o : AopOp) (h : Half) : State :=
  let f := e.frame h
  if o != .aact && noRow f then s.frameWrites core grp e.pos h.d (f.withStatus 8 1 1)
  else
    let s := if o == .aact then s.closeRows f else s
    let (st, pc) := f.unit
    let u := s.munit st pc
    let (row, bs) := e.rowOf o h
    let j : RowJob := ⟨core, grp, e.pos, h.d, s.ns, [], bs, 0, false, false⟩
    if u.job.isSome then s.setMunit st pc { u with more := u.more ++ [j] }
    else s.setMunit st pc ({ u with job := some j }.startWave s st o row bs.length)

/-- The halves of an AOP by frames: halves on one frame act once. -/
def byFrame (hs : List Half) : List Half :=
  hs.foldl (fun fs h => if fs.any fun (k : Half) => k.d == h.d then fs else fs ++ [h]) []

/-- The post has executed. -/
def State.aopDone (s : State) (core grp : Nat) (e : Entry) (faults : List (Nat × FaultInfo)) : State :=
  match s.group core grp with
  | some g => s.setGroup core grp (g.editEntry e.pos .m fun x => { x with stage := .executed, fault := faults })
  | none => s

/-- An AOP post executes: its checks, half by half, then its effect on the frames of the halves that pass, or for AWRT and
APASS the report alone (R104; 13 R335). -/
def State.aopExecute (s : State) (core grp : Nat) (e : Entry) (o : AopOp) (hs : List Half) (b : Nat) : State :=
  let new := (e.sound hs).filterMap fun h => (e.aopFault o h).map fun x =>
    (h.ent, { FaultInfo.ofCause x with place := .m })
  let faults := e.fault ++ new
  let good := byFrame (hs.filter fun h => !(faults.any fun f => f.1 == h.ent))
  if AopOp.late o then s.aopDone core grp e faults
  else if AopOp.isRow o || o == .aact then
    let s := good.foldl (fun s h => s.beginRow core grp e o h) s
    -- nothing to wait for where no half found a row
    if good.all fun h => o != .aact && noRow (e.frame h) then s.aopDone core grp e faults
    else match s.group core grp with
      | some g => s.setGroup core grp (g.editEntry e.pos .m fun x => { x with fault := faults })
      | none => s
  else
    let s := good.foldl (fun s h =>
      let (s, f) := s.simpleAop o e h b
      s.frameWrites core grp e.pos h.d f) s
    s.aopDone core grp e faults

/-- No job of the units still serves the post, or is to serve it. -/
def State.jobsOver (s : State) (core grp pos : Nat) : Bool :=
  s.units.all fun u => (u.2.job.toList ++ u.2.more).all fun j => !(j.core == core && j.grp == grp && j.pos == pos)

/-- The register and the operation of a job. -/
def State.jobFrame (s : State) (j : RowJob) : Option (Entry × Half × AopOp) :=
  (s.group j.core j.grp).bind fun g => (g.entry j.pos .m).bind fun e => match e.op with
    | .aop o hs _ => (hs.find? fun h => h.d == j.reg).map fun h => (e, h, o)
    | _ => none

/-- A unit's job is over; that of a consist's other frame begins. -/
def State.nextJob (s : State) (stack pch : Nat) : State :=
  let u := s.munit stack pch
  match u.more with
  | [] => s.setMunit stack pch { u with job := none }
  | j :: later =>
    let j := { j with since := s.ns }
    let u := { u with job := some j, more := later }
    match s.jobFrame j with
    | some (e, h, o) =>
      let (row, bs) := e.rowOf o h
      s.setMunit stack pch (u.startWave s stack o row bs.length)
    | none => s.setMunit stack pch u

/-- The frame writes of a job's instruction, as one step. -/
def State.rowWrites (s : State) (vi : Nat) (o : AopOp) (e : Entry) (h : Half) (j : RowJob) : State × VReg :=
  if o == .aact then (s, (e.frame h).chosen (e.control h 0) (e.control h 1))
  else s.rowEffect vi o (e.frame h) (e.control h 0) (e.control h 1) j.waves j.stall

/-- The row instruction on a unit has ended: its effect as one step, and its post goes on. -/
def State.endRow (s : State) (stack pch : Nat) (j : RowJob) : State :=
  let vi := ((s.group j.core j.grp).map (·.vi)).getD 0
  let s := s.nextJob stack pch
  match (s.group j.core j.grp).bind fun g => (g.entry j.pos .m).map fun e => (g, e) with
  | none => s
  | some (_, e) =>
    match e.op with
    | .aop o hs _ =>
      match hs.find? fun h => h.d == j.reg with
      | none => s
      | some h =>
        let (s, f) := s.rowWrites vi o e h j
        let s := s.frameWrites j.core j.grp j.pos j.reg f
        match s.group j.core j.grp with
        | none => s
        | some g =>
          if !s.jobsOver j.core j.grp j.pos then s
          else if AopOp.late o then
            let g := { g with vtDev := max g.vtDev s.ns, rob := g.rob.filter fun x => !(x.pos == j.pos && x.place == .m) }
            (s.setGroup j.core j.grp g).advance j.core j.grp
          else s.setGroup j.core j.grp (g.editEntry j.pos .m fun x => { x with stage := .executed })
    | _ => s

/-- The release of AWRT or APASS reaches the unit, which performs it in its turn (R104), after the reads and the writes to the
row that come before it (12 R297, R299). -/
def State.aopRelease (s : State) (core grp : Nat) (g : Group) (e : Entry) (o : AopOp) (hs : List Half) : State :=
  if !s.jobsOver core grp e.pos || g.readsOut e.pos || !(hs.all fun h => (e.frame h).full && g.rowClear e (e.frame h)) then s
  else
    let ks := e.units hs
    s.takeTurn ks (core, grp, e.pos) (ks.all s.unitFree) fun s =>
      let s := (byFrame hs).foldl (fun s h => s.beginRow core grp e o h) s
      if hs.all fun h => noRow (e.frame h) then
        match s.group core grp with
        | some g =>
          (s.setGroup core grp { g with vtDev := max g.vtDev s.ns,
                                         rob := g.rob.filter fun x => !(x.pos == e.pos && x.place == .m) }).advance core grp
        | none => s
      else s

/-- A sub-wave boundary of a unit: the wave under way ends if its time is over; the next starts, or the instruction ends. -/
def execSubWave (stack pch : Nat) (s : State) : Host.Outcome State Fault Refusal :=
  .next (
    let u := s.munit stack pch
    match u.job with
    | none => s
    | some j =>
      match s.jobFrame j with
      | none => s.nextJob stack pch
      | some (e, h, o) =>
        if !j.now.isEmpty && s.ns < u.ends then s
        else
          let j := { j with now := [] }
          if j.todo.isEmpty then s.endRow stack pch j
          else
            let (row, bs) := e.rowOf o h
            s.setMunit stack pch ({ u with job := some j }.startWave s stack o row bs.length))

/-- A compute bank is refreshed: no all-bank command until tRFCpb ends, and one refresh at most within one instruction
(R102). -/
def execComputeBankRefresh (stack pch bank : Nat) (s : State) : Host.Outcome State Fault Refusal :=
  .next (
    let u := s.munit stack pch
    let again := (u.job.map (·.fresh)).getD false
    if !s.bankSplit stack || bank < 8 || 16 ≤ bank || again || s.ns < u.refresh then s
    else s.setMunit stack pch { u with refresh := s.ns + 160, job := u.job.map fun j => { j with fresh := true } })

/-- An ordinary access that waited for a unit is served at the instruction boundary (R103). -/
def execComputeWindowAccess (k : Nat) (s : State) : Host.Outcome State Fault Refusal :=
  .next (
    let u := s.units.get k MUnit.zero
    match u.job, u.wait, u.direct with
    | none, m :: others, _ => deliver { s with units := s.units.put k { u with wait := others } } m
    | none, [], (core, grp, pos) :: others =>
      let s := { s with units := s.units.put k { u with direct := others } }
      match (s.group core grp).bind fun g => g.entry pos .m with
      | some e => s.startReqs core grp pos .m e.reqs.length
      | none => s
    | _, _, _ => s)

end Sys2Proof.Machine
end

