-- ==== Sys2Proof/Machine/Slots.lean ====
section
/-!
DEFINITION. B-slots (06 R163 to R168): CLAIM, RELS, SLOTQ and LDO, and the end of an LDO.
-/
namespace Sys2Proof.Machine

/-- The issuing stream's slot o. -/
def Ctx.slot (c : Ctx) (s : State) (o : BitVec 6) : Slot := s.slot c.iss.core (partOf c.iss.core c.iss.grp) o.toNat

/-- A matrix pass that names a slot has still to start. -/
def Part.slotWanted (p : Part) (o : Nat) : Bool := p.mtx.any fun x => x.slot == o && x.result.isNone

/-- Nothing of the owner is still to happen to a slot (06 R165, 11 R286). -/
def State.slotIdle (s : State) (core part o : Nat) (copies : Bool) : Bool :=
  !(s.part core part).slotWanted o && (s.slot core part o).present && (!copies || (s.slot core part o).pend == 0)

/-- Waits until the slot is idle. -/
def Ctx.needSlot (c : Ctx) (s : State) (o : Nat) (copies : Bool) : Except Stop Unit :=
  if s.slotIdle c.iss.core (partOf c.iss.core c.iss.grp) o copies then .ok () else .error (.wait (.slotIdle o copies))

/-- A path of the partition waits for a slot, or has its turn. -/
def State.slotWaited (s : State) (core part o : Nat) : Bool :=
  s.groups.any fun x => x.1 / 256 == core && partOf core (x.1 % 256) == part && !x.2.ended && x.2.arch.valid.any fun i =>
    (x.2.arch.path i).inLine == some (.slotFree o)

/-- The slot becomes a group's: zero, present, no tag (R165). -/
def State.grantSlot (s : State) (core grp o : Nat) : State :=
  let k := partOf core grp
  s.setSlot core k o { s.slot core k o with owner := some grp, tile := 0, side := 0, present := true, tag := 3 }

/-! ### CLAIM, RELS, SLOTQ -/

/-- CLAIM: it waits in line for the owner to release the slot, and then, still first in line, for the group's older posts to
retire (R165, R214). -/
def execClaim (q : Quals) (d : BitVec 6) (s : State) : Host.Outcome State Fault Refusal :=
  runThen s <| once q fun c s => do
    let o := c.slot s d
    let k := partOf c.iss.core c.iss.grp
    let turn := (c.g.arch.path c.iss.ent).wait == some (.slotFree d.toNat)
    if o.owner == some c.iss.grp then .ok s
    else if o.owner.isNone && c.g.idle && (turn || !s.slotWaited c.iss.core k d.toNat) then
      .ok (s.grantSlot c.iss.core c.iss.grp d.toNat)
    else .error (.wait (.slotFree d.toNat))

def execRels (q : Quals) (d : BitVec 6) (s : State) : Host.Outcome State Fault Refusal :=
  runThen s <| once q fun c s => do
    require ((c.slot s d).owner == some c.iss.grp) (FaultInfo.ofCause causeSlotOwner)
    c.needIdle
    c.needSlot s d.toNat true
    .ok (s.setSlot c.iss.core (partOf c.iss.core c.iss.grp) d.toNat { c.slot s d with owner := none })

/-- The SLOTQ word (Table 06-11). -/
def slotWord (s : State) (core grp : Nat) (g : Group) (o : Slot) : DWord :=
  let team := match o.owner with
    | some k => g.team.isSome && ((s.group core k).map fun h => h.team == g.team) == some true
    | none => false
  BitVec.ofNat 64 (o.tag.toNat * 2 ^ 14 + bitNat (o.pend != 0) 13 + bitNat o.present 12 + bitNat team 11 +
    bitNat (o.owner == some grp) 10 + bitNat o.owner.isSome 9 + (if team then o.owner.getD 0 % 256 else 0))

def execSlotq (q : Quals) (d a : BitVec 6) (s : State) : Host.Outcome State Fault Refusal :=
  runThen s <| once q fun c s => .ok (c.writeS s d (slotWord s c.iss.core c.iss.grp c.g (c.slot s a)))

/-! ### LDO (R166) -/

/-- n accesses of 16 B, from lane l and byte off of a line on. -/
def unitAccs (l off n : Nat) : List Acc := (List.range n).map fun i => ⟨l + i, 0, off + 16 * i, 0, 0, 0⟩

/-- The requests of an LDO: two lines of the tile, and the sidecar where there is one; or the fault of the first address
that fails. -/
def Ctx.ldoReqs (c : Ctx) (s : State) (ea : DWord) (side : Option DWord) : Except FaultInfo (List LineReq) :=
  let one := fun (a : DWord) (size l : Nat) =>
    match s.locate c.iss.core c.iss.grp c.g false false size .l 0 a with
    | .error e => (Except.error (FaultInfo.withAddr e a) : Except FaultInfo LineReq)
    | .ok (t, off) => .ok ⟨t, unitAccs l off (size / 16), .todo, none, 0, 0⟩
  match one ea 128 0, one (ea + 128) 128 8, side.map fun a => one a 64 16 with
  | .error f, _, _ => .error f
  | _, .error f, _ => .error f
  | _, _, some (.error f) => .error f
  | .ok x, .ok y, some (.ok z) => .ok [x, y, z]
  | .ok x, .ok y, none => .ok [x, y]

/-- LDO of format F into a slot; F = 2 needs feature bit 5 (03 Table 03-17). -/
def ldo (f : Nat) (feat : Option Nat) (q : Quals) (d b : BitVec 6) (s : State) : Host.Outcome State Fault Refusal :=
  runWith feat false s fun c s => do
    if c.active q == 0 then .ok (c.finish s)
    else
      let k := partOf c.iss.core c.iss.grp
      let o := c.slot s d
      require (o.owner == some c.iss.grp) (FaultInfo.ofCause causeSlotOwner)
      let base ← c.s b
      let ea := base + (Quals.memx q).ofs.signExtend 64
      let side ← if f == 2 then (c.s (b + 1)).map some else .ok none
      match c.ldoReqs s ea side with
      | .error e => .error (.trap e)
      | .ok rs =>
        c.acquireOver
        let op : MemOp := ⟨.ldo, 16, false, f, 0, 0, (Quals.memx q).hint⟩
        c.needSlot s d.toNat false
        let mine := [0, 128, 256].map fun x => (Place.l, Target.slot c.iss.core k d.toNat x)
        c.accessWait s op (rs.map (fun r => (Place.l, r.tgt)) ++ mine)
        let h : Half := ⟨c.iss.ent, 1, d.toNat, o.tag.toNat, 0, 0, none, 0, .l⟩
        let e := c.entry .l (.mem op [h] ([(0, ea), (8, ea + 128)] ++ (side.map fun a => (16, a)).toList) rs)
        -- a line of the slot itself is read as it stands
        let s := s.setSlot c.iss.core k d.toNat { o with present := false, tag := BitVec.ofNat 2 f }
        .ok (c.launchMem s op [e])

def execLdoF8 (q : Quals) (d b : BitVec 6) (s : State) : Host.Outcome State Fault Refusal := ldo 0 none q d b s
def execLdoBf16 (q : Quals) (d b : BitVec 6) (s : State) : Host.Outcome State Fault Refusal := ldo 1 none q d b s
def execLdoQ4n (q : Quals) (d b : BitVec 6) (s : State) : Host.Outcome State Fault Refusal := ldo 2 (some 5) q d b s

/-- The bytes of accesses of 16 B, from a lane on, as a number. -/
def unitsOf (rs : List LineReq) (l n : Nat) : Nat :=
  let all := rs.flatMap (·.accs)
  (List.range n).foldl (fun x i => x + (((all.find? fun a => a.lane == l + i).map fun a => a.got.toNat).getD 0) * 2 ^ (128 * i)) 0

/-- The LDO of a group into a slot whose bytes have all arrived. -/
def Group.ldoDone (g : Group) (o : Nat) : Option Entry :=
  g.rob.find? fun e => e.stage == .posted && (match e.op with
    | .mem m (h :: _) _ _ => m.kind == .ldo && h.d == o && e.answered
    | _ => false)

/-- Every byte of an LDO has arrived: the slot is present, or the LDO traps and leaves the slot as it was. -/
def State.endLdo (s : State) (core grp o : Nat) (g : Group) (e : Entry) : State :=
  match e.op with
  | .mem m (h :: _) _ rs =>
    let k := partOf core grp
    let x := s.slot core k o
    let fs := e.memFaults
    let x := if fs.isEmpty then
        { x with tile := BitVec.ofNat 2048 (unitsOf rs 0 16), present := true,
                 side := if m.f == 2 then BitVec.ofNat 512 (unitsOf rs 16 4) else x.side }
      else { x with present := true, tag := BitVec.ofNat 2 h.a }
    let g := g.editEntry e.pos .l fun x => if x.isMem then { x with stage := .reported, fault := fs } else x
    ((s.setSlot core k o x).setGroup core grp g).advance core grp
  | _ => s

def execSlotPresent (core part slot : Nat) (s : State) : Host.Outcome State Fault Refusal :=
  .next (match (s.slot core part slot).owner with
  | none => s
  | some grp =>
    match s.group core grp with
    | none => s
    | some g =>
      match g.ldoDone slot with
      | some e => s.endLdo core grp slot g e
      | none => s)

end Sys2Proof.Machine
end

