-- ==== Sys2Proof/Machine/Copy.lean ====
section
/-!
DEFINITION. Copy channels (06 R150 to R158; 17 R418, R429 to R431): CPY, TWAIT, WPWAIT, TREAD, the pieces of an
operation, stops and aborts.
-/
namespace Sys2Proof.Machine

/-! ### Channels -/

/-- The core's channel that a team calls n (R150); none in a privileged group (15 R475). -/
def Ctx.channel (c : Ctx) (s : State) (n : BitVec 3) : Except Stop Nat :=
  match (s.team c.g).bind fun t => t.chans[n.toNat]? with
  | some k => .ok k
  | none => .error (.trap (FaultInfo.ofCause causeProtection))

/-! ### Endpoints (Table 06-3, R157; 17 R430) -/

inductive Endpoint where
  | global | scratch | slot | peer
  deriving DecidableEq, Repr

def peerLink (a : DWord) : Nat := bitsOf a 47 44
def peerOff (a : DWord) : Nat := a.toNat % 2 ^ 44

/-- The endpoint of n bytes at an address. -/
def Ctx.endpoint (c : Ctx) (s : State) (a : DWord) (n : Nat) : Option Endpoint :=
  let off := a.toNat % 2 ^ 52
  if isUser a then (if a.toNat + n ≤ 2 ^ 56 then some .global else none)
  else if inClass a 0xFF0 then
    (if off + n ≤ (((s.team c.g).map fun t => t.scr.length).getD 0) * 98304 then some .scratch else none)
  else if inClass a 0xFF1 then
    (if off < 0x8000 && off % 0x200 + n ≤ 0x140 then some .slot else none)
  else if inClass a 0xFF2 then
    let k := peerLink a
    if bitsOf a 51 48 == 0 && k < 12 && s.linkUp k && (s.mr (blMaskReg c.g.vi)).getLsbD k &&
        (s.features c.iss.core c.g).getLsbD 9 && peerOff a + n ≤ 2 ^ 44 then some .peer else none
  else none

/-- The first addresses in the 4-KiB pieces that n bytes touch. -/
def pagesOf (a : DWord) (n : Nat) : List DWord :=
  (List.range ((a.toNat % 4096 + n + 4095) / 4096)).map fun i => if i == 0 then a else a - BitVec.ofNat 64 (a.toNat % 4096) +
    BitVec.ofNat 64 (4096 * i)

/-- An address is mapped into an active view, which nothing writes (04 R96). -/
def State.inView (s : State) (core vi : Nat) (a : DWord) : Bool :=
  match s.page core vi a with
  | some pg => isView (pg.dpa a) && (s.viewRange (pg.dpa a)).isSome
  | none => false

/-- The checks of an operation that moves bytes (R156, R157; 04 R96). Where several fail, PROTECTION comes first, then
SLOT_OWNER, then MISALIGNED; 2^40 bytes or more, for which no trap is named, trap PROTECTION (DESIGN CHOICE, log 58). -/
def Ctx.copyFault (c : Ctx) (s : State) (dst src : DWord) (len rows pitch : Nat) (twoD : Bool) : Option (BitVec 8) :=
  let srcs := (List.range rows).map fun r => c.endpoint s (rowAt src pitch r) len
  let from' := srcs.headD none
  let into := c.endpoint s dst (rows * len)
  let mine := fun (a : DWord) => (s.slot c.iss.core (partOf c.iss.core c.iss.grp) (a.toNat % 0x8000 / 0x200)).owner == some c.iss.grp
  let slots := into == some .slot || from' == some .slot
  if rows * len ≥ 2 ^ 40 || into.isNone || from'.isNone || srcs.any (· != from') ||
      src.toNat + (rows - 1) * pitch + len > 2 ^ 64 then some causeProtection
  else if (into == some .peer && from' != some .global) || (from' == some .peer && into != some .global) then some causeProtection
  else if (into == some .slot && !mine dst) ||
      (from' == some .slot && (List.range rows).any fun r => !mine (rowAt src pitch r)) then some causeSlotOwner
  else if into == some .global && (pagesOf dst (rows * len)).any (s.inView c.iss.core c.g.vi) then some causeProtection
  else if (twoD || slots) && (dst.toNat % 16 != 0 || src.toNat % 16 != 0 || len % 16 != 0) then some causeMisaligned
  else none

/-! ### CPY (R156) -/

def Ctx.copy (c : Ctx) (s : State) (act : Mask) (d a b : BitVec 6) (chan : BitVec 3) (shape : Option (Nat × Nat)) :
    Except Stop State := do
  if act == 0 then .ok (c.finish s)
  else
    let k ← c.channel s chan
    let dst ← c.s a
    let src ← c.s b
    let n ← c.s (b + 1)
    let len := n.toNat
    let (rows, pitch) := shape.getD (1, len)
    if len != 0 then
      match c.copyFault s dst src len rows pitch shape.isSome with
      | some x => throw (.trap (FaultInfo.ofCause x))
      | none => pure ()
    c.needIdle
    c.releaseFirst s 2 3
    let x := s.chan c.iss.core k
    if 16 ≤ x.ops.length then .error (.wait (.chanRoom k))
    else
      let num := x.issued + 1
      let op : CopyOp := ⟨num, dst, src, len, rows, pitch, c.iss.core, c.iss.grp, c.g.vi, false, 0⟩
      let s := (s.setChan c.iss.core k { x with issued := num, ops := x.ops ++ [op] }).beginCopy c.iss.core k
      let s := s.pendSlot c.iss.core c.iss.grp dst (rows * len) (· + 1)
      .ok (c.finish (c.writeS s d (BitVec.ofNat 64 num)))

def execCpy (q : Quals) (d a b : BitVec 6) (x : BitVec 3) (s : State) : Host.Outcome State Fault Refusal :=
  run s fun c s => c.copy s (c.active q) d a b x none

def execCpy2d (g : BitVec 3) (d a b : BitVec 6) (x : BitVec 3) (rows : BitVec 12) (pitch : BitVec 13) (s : State) :
    Host.Outcome State Fault Refusal :=
  run s fun c s => c.copy s (c.active (quals g)) d a b x (some (rows.toNat + 1, pitch.toNat * 16))

/-! ### TWAIT, WPWAIT, TREAD (R158) -/

/-- What the instruction waits for as it was when it was dispatched: the path keeps it while it waits. -/
def Ctx.keptWait (c : Ctx) (w : Wait) : Wait :=
  match (c.g.arch.path c.iss.ent).wait, w with
  | some (.copied k n), .copied k' n' => if k == k' then .copied k n else .copied k' n'
  | some (.wrote k n a), .copied k' n' => if k == k' then .wrote k n a else .copied k' n'
  | some (.wrote k n a), .wrote k' n' a' => if k == k' && a == a' then .wrote k n a else .wrote k' n' a'
  | some (.copied k n), .wrote k' n' a' => if k == k' then .copied k n else .wrote k' n' a'
  | _, w => w

/-- A wait on a channel is over. -/
def State.copyOver (s : State) (core : Nat) : Wait → Bool
  | .copied k n => n ≤ (s.chan core k).completed
  | .wrote k n a =>
    let x := s.chan core k
    n ≤ x.completed || (x.completed + 1 == n && a.toNat < x.wp.toNat)
  | _ => true

/-- The operations a wait covers, from 1 on. -/
def Wait.covers : Wait → Nat
  | .copied _ n => n
  | .wrote _ n _ => n
  | _ => 0

/-- An abort that a wait covers is latched, and the wait is to report it (R154). -/
def State.latched (s : State) (core : Nat) (w : Wait) : Bool :=
  match w with
  | .copied k n | .wrote k n _ => match (s.chan core k).latch with
    | some (op, _, _) => op ≤ n
    | none => false
  | _ => false

/-- A wait on channel k, from its dispatch on; an abort that it covers traps, when everything older has retired (R154). -/
def Ctx.copyWait (c : Ctx) (s : State) (k name : Nat) (w : Wait) : Except Stop State := do
  let w := c.keptWait w
  if !s.copyOver c.iss.core w || (s.latched c.iss.core w && !c.g.idle) then .error (.wait w)
  else
    let x := s.chan c.iss.core k
    match x.latch with
    | some (op, cause, more) =>
      if op ≤ w.covers then
        let s := s.setChan c.iss.core k { x with latch := none }
        .ok (c.trapPath s (FaultInfo.withOperand cause (BitVec.ofNat 64 (op % 2 ^ 48 + bitNat more 48))))
      else .ok (c.finish (c.put s { c.g with seen := name :: c.g.seen.filter (· != name) }))
    | none => .ok (c.finish (c.put s { c.g with seen := name :: c.g.seen.filter (· != name) }))

def execTwait (q : Quals) (a : BitVec 6) (x : BitVec 3) (s : State) : Host.Outcome State Fault Refusal :=
  run s fun c s => do
    if c.active q == 0 then .ok (c.finish s)
    else
      let k ← c.channel s x
      let n ← c.s a
      c.copyWait s k x.toNat (.copied k (min n.toNat (s.chan c.iss.core k).issued))

/-- The latest operation of a channel whose destination range contains an address: the queued ones are those that can
still make a wait wait. -/
def Channel.opAt (x : Channel) (a : DWord) : Option CopyOp :=
  (x.ops.reverse).find? fun o => o.dst.toNat ≤ a.toNat && a.toNat < o.dst.toNat + o.rows * o.len

/-- WPWAIT. An operation that has completed is waited for no more; where none of those still in the channel contains the
address, one that did may have (log 39), and then nothing is left to wait for. -/
def execWpwait (q : Quals) (a : BitVec 6) (x : BitVec 3) (s : State) : Host.Outcome State Fault Refusal :=
  run s fun c s => do
    if c.active q == 0 then .ok (c.finish s)
    else
      let k ← c.channel s x
      let n ← c.s a
      let ch := s.chan c.iss.core k
      match ch.opAt n with
      | some o => c.copyWait s k x.toNat (.wrote k o.num n)
      | none => c.copyWait s k x.toNat (match ch.past.find? fun p => p.1.toNat ≤ n.toNat && n.toNat < p.1.toNat + p.2.1 with
        | some p => .copied k p.2.2
        | none => .copied k ch.issued)

/-- TREAD: no wait. -/
def tread (f : Channel → DWord) (q : Quals) (d : BitVec 6) (x : BitVec 3) (s : State) : Host.Outcome State Fault Refusal :=
  runThen s <| once q fun c s => do
    let k ← c.channel s x
    let n := x.toNat
    .ok ({ c with g := { c.g with seen := n :: c.g.seen.filter (· != n) } }.writeS s d (f (s.chan c.iss.core k)))

def execTreadIss (q : Quals) (d : BitVec 6) (x : BitVec 3) (s : State) : Host.Outcome State Fault Refusal :=
  tread (fun k => BitVec.ofNat 64 k.issued) q d x s

def execTreadDone (q : Quals) (d : BitVec 6) (x : BitVec 3) (s : State) : Host.Outcome State Fault Refusal :=
  tread (fun k => BitVec.ofNat 64 k.completed) q d x s

def execTreadWp (q : Quals) (d : BitVec 6) (x : BitVec 3) (s : State) : Host.Outcome State Fault Refusal :=
  tread (·.wp) q d x s

/-! ### Pieces (R151 to R154) -/

/-- What came of an access of an engine: bytes; not now; the operation stops, or is aborted, with a cause. -/
inductive Access where
  | line (l : Line)
  | later
  | stop (c : BitVec 8)
  | abort (c : BitVec 8)
  deriving DecidableEq, Repr

/-- A line of a peer as far as its export goes (17 R430, R429). -/
def State.peerOk (s : State) (a : DWord) (n : Nat) (write : Bool) : Option (BitVec 8) :=
  if !s.linkUp (peerLink a) then some causePoison
  else
    match s.flash.exports.find (peerLink a) with
    | some (size, r, w) => if peerOff a + n ≤ size && (if write then w else r) then none else some causeProtection
    | none => some causeProtection

/-- The engine reads the line at an address: normal memory at its home as NCR, host memory as RdCurr. A slot or scratch bank
that the group has no longer, for which R154 has no word, stops the operation with the cause of the check (DESIGN CHOICE, log
58). -/
def State.engineRead (s : State) (core n : Nat) (o : CopyOp) (a : DWord) : State × Access :=
  if isUser a then
    let s := s.touch core o.vi a
    match s.page core o.vi a with
    | none => (s, .stop causeTranslation)
    | some pg =>
      if !pg.r then (s, .stop causeProtection)
      else if isHostDpa (pg.dpa a) then
        let x := s.chan core n
        let h := pg.dpa a % 2 ^ 51
        match x.got.find? fun p => p.1 == h with
        | some (_, l, p) => (s, if p then .abort causePoison else .line l)
        | none =>
          if x.asked.contains h then (s, .later)
          else
            let r := { s.hostReq (dieOfCore core) o.vi false h 0 0 with chan := some (chanKey core n) }
            (if s.portRoom (dieOfCore core) then (s.setChan core n { x with asked := x.asked ++ [h] }).sendHost r else s, .later)
      else
        match s.syncHome .ncr (s.partOfCore core) (pg.dpa a) (agentOfCore core) fun m => { m with vi := o.vi } with
        | (s, some m) => (s, if m.cls == 5 then .later else if m.poison then .stop causePoison else .line m.data)
        | (s, none) => (s, .later)
  else if inClass a 0xFF2 then
    match s.peerOk a 128 false with
    | some c => (s, .abort c)
    | none => (s, .line (Line.ofBytes (s.readBytes (peerCell (peerLink a) (peerOff a)) 128)))
  else
    match s.group core o.grp with
    | none => (s, .later)
    | some g =>
      match s.locate core o.grp g false false 1 .l 0 a with
      | .ok (t, _) => (s, .line (s.localLine t).1)
      | .error c => (s, .stop c)

/-- A write of an engine reaches the line: copies that its own cluster holds for reading are dropped. -/
def State.afterEngine (s : State) (core line : Nat) : State :=
  let c := clusterOfCore core
  match (s.cluster c).lines.find line with
  | some l => if l.st == .l || l.st == .p then s.setCluster c { s.cluster c with lines := (s.cluster c).lines.drop line } else s
  | none => s

/-- The engine writes n bytes of a line at an address: normal memory at its home as NCW, host memory as WOWrInv. -/
def State.engineWrite (s : State) (core k : Nat) (o : CopyOp) (a : DWord) (n : Nat) (l : Line) : State × Access :=
  let off := a.toNat % 128
  let mask := byteMask off n
  if isUser a then
    let s := s.touch core o.vi a
    match s.page core o.vi a with
    | none => (s, .stop causeTranslation)
    | some pg =>
      if !pg.w then (s, .stop causeProtection)
      else if isHostDpa (pg.dpa a) then
        let x := s.chan core k
        let r := { s.hostReq (dieOfCore core) o.vi true (pg.dpa a % 2 ^ 51 / 128 * 128) l mask with chan := some (chanKey core k) }
        (if s.portRoom (dieOfCore core) then (s.setChan core k { x with out := true }).sendHost r else s, .later)
      else
        let line := pg.dpa a / 128 * 128
        match s.syncHome .ncw (s.partOfCore core) line (agentOfCore core)
          fun m => { m with vi := o.vi, data := l, mask := mask } with
        | (s, some m) =>
          let x := s.chan core k
          let s := s.setChan core k { x with vtDev := max x.vtDev ((m.vt.map fun t => t.2.1).getD s.ns) }
          (s.afterEngine core line, if m.cls == 5 then .later else if m.cls == 6 then .stop causeProtection
            else if m.poison then .stop causePoison else .line 0)
        | (s, none) => (s, .later)
  else if inClass a 0xFF2 then
    match s.peerOk a n true with
    | some c => (s, .abort c)
    | none =>
      let bs := ((Line.toBytes l).drop off).take n
      -- the piece is visible at the peer when a lease there is over: at most 65,535 ns on (R431, 05 R139)
      let (t, s) := s.fresh
      let x := s.chan core k
      let s := s.setChan core k { x with vtDev := max x.vtDev (s.ns + t.toNat % 65536) }
      (s.writeBytes (peerCell (peerLink a) (peerOff a)) bs, .line 0)
  else
    match s.group core o.grp with
    | none => (s, .later)
    | some g =>
      match s.locate core o.grp g true false 1 .l 0 a with
      | .ok (t, _) => (s.setLocalLine t (Line.merge (s.localLine t).1 l mask), .line 0)
      | .error c => (s, .stop c)

/-- The fault record of a channel: KIND 1 (15 Table 15-2, 15-3). -/
def copyRecord (s : State) (core n name : Nat) (o : CopyOp) (team : Nat) (cause : BitVec 8) (a : DWord) : BitVec 512 :=
  BitVec.ofNat 64 s.ns ++ BitVec.ofNat 32 team ++ (0 : BitVec 32) ++ BitVec.ofNat 64 name ++ a ++ BitVec.ofNat 64 o.num ++
    (0 : BitVec 64) ++ selWord core o.grp n ++ (0 : BitVec 16) ++ BitVec.ofNat 8 o.vi ++ (0 : BitVec 8) ++ (0 : BitVec 8) ++
    (0 : BitVec 8) ++ (1 : BitVec 8) ++ cause

/-- The record of an operation that stops or is aborted goes to the fault queue of the die. -/
def State.copyFaulted (s : State) (core n : Nat) (o : CopyOp) (cause : BitVec 8) (a : DWord) : State :=
  let x := s.chan core n
  let team := ((x.team.bind fun k => s.teams.find k).map (·.t)).getD 0
  s.putRecord core 0 (copyRecord s core n x.name o team cause a)

/-- The engine meets a fault at an address. -/
def State.failCopy (s : State) (core n : Nat) (o : CopyOp) (r : Access) (a : DWord) : State :=
  match r with
  | .stop c => (s.setChan core n { s.chan core n with stopped := some c, asked := [], got := [] }).copyFaulted core n o c a
  | .abort c => (s.copyFaulted core n o c a).abortCopy core n c
  | _ => s

/-- n bytes have been written. -/
def State.wrotePiece (s : State) (core k n : Nat) : State :=
  let x := s.chan core k
  match x.ops with
  | [] => s
  | o :: r =>
    let o := { o with done := o.done + n }
    let s := s.setChan core k { x with ops := o :: r, wp := o.dst + BitVec.ofNat 64 o.done, asked := [], got := [], out := false }
    -- bytes that cross a link (18 R453)
    let s := if inClass o.dst 0xFF2 || inClass o.src 0xFF2 then s.count o.vi 6 n else s
    if o.total ≤ o.done then s.endCopy core k o else s

/-- The source lines of a piece, read one after another. -/
def State.readLines (s : State) (core k : Nat) (o : CopyOp) : List DWord → List (DWord × Line) →
    State × Except (Access × DWord) (List (DWord × Line))
  | [], got => (s, .ok got)
  | a :: r, got =>
    match s.engineRead core k o a with
    | (s, .line l) => s.readLines core k o r (got ++ [(a, l)])
    | (s, x) => (s, .error (x, a))

/-- The bytes of the piece in their places of the destination line. -/
def CopyOp.pieceLine (o : CopyOp) (got : List (DWord × Line)) : Line :=
  (List.range o.piece).foldl (fun l i =>
    let a := o.srcAt (o.done + i)
    let b := a - BitVec.ofNat 64 (a.toNat % 128)
    let x := ((got.find? fun p => p.1 == b).map fun p => Line.field p.2 (a.toNat % 128) 1).getD 0
    Line.setField l ((o.dst.toNat + o.done + i) % 128) 1 x) 0

/-- The next piece of a channel's operation; one that moves no byte completes at once. -/
def State.copyPiece (s : State) (core k : Nat) : State :=
  let x := s.chan core k
  match x.ops with
  | [] => s
  | o :: _ =>
    if x.stopped.isSome || x.out then s
    else if !o.begun then s.beginCopy core k
    else if o.total == 0 then s.endCopy core k o
    else
      match s.readLines core k o o.srcLines [] with
      | (s, .error (e, a)) => s.failCopy core k o e a
      | (s, .ok got) =>
        let a := o.dst + BitVec.ofNat 64 o.done
        match s.engineWrite core k o a o.piece (o.pieceLine got) with
        | (s, .line _) => s.wrotePiece core k o.piece
        | (s, e) => s.failCopy core k o e a

def execCopyPiece (core chan : Nat) (s : State) : Host.Outcome State Fault Refusal := .next (s.copyPiece core chan)

/-! ### CH_CTL (R155) -/

def execChCtlResume (core chan : Nat) (s : State) : Host.Outcome State Fault Refusal := .next (s.chanCmd core chan 1)
def execChCtlAbort (core chan : Nat) (s : State) : Host.Outcome State Fault Refusal := .next (s.chanCmd core chan 2)

end Sys2Proof.Machine
end

