-- ==== Sys2Proof/Machine/Queue.lean ====
section
/-!
DEFINITION. Couplings (06 R159 to R162): QINIT, QPUSH, QPOP, QALLOW and QCLOSE.
-/
namespace Sys2Proof.Machine

/-- The coupling a team calls q: an index at or above NQ traps PROTECTION before any other check (R159); a privileged
group has none (15 R475). -/
def Ctx.coupling (c : Ctx) (s : State) (q : BitVec 6) : Except Stop (Team × Coupling) :=
  match s.team c.g, s.launch c.g with
  | some t, some l =>
    if l.hdr.nq ≤ q.toNat then .error (.trap (FaultInfo.ofCause causeProtection))
    else .ok (t, t.qs.getD q.toNat Coupling.zero)
  | _, _ => .error (.trap (FaultInfo.ofCause causeProtection))

/-- The coupling's new state. -/
def Ctx.setCoupling (c : Ctx) (s : State) (q : BitVec 6) (x : Coupling) : State :=
  s.editTeam c.g fun t => { t with qs := t.qs.set q.toNat x }

def queueFault : FaultInfo := FaultInfo.ofCause causeQueue

/-- OCC. -/
def Coupling.occ (x : Coupling) : Nat := x.handles.length

/-- A push (R160). -/
def Coupling.push (x : Coupling) (h : Word) : Coupling := { x with allow := x.allow - 1, handles := x.handles ++ [h] }

/-- A pop (R160): the allowance returns at once, or with a later QALLOW where DEFER is set. -/
def Coupling.pop (x : Coupling) : Coupling :=
  if x.defer then { x with handles := x.handles.drop 1, ret := x.ret + 1 }
  else { x with handles := x.handles.drop 1, allow := x.allow + 1 }

/-- The value a pop gives: the oldest handle zero-extended, or the end marker. -/
def Coupling.front (x : Coupling) : DWord :=
  match x.handles with
  | h :: _ => h.setWidth 64
  | [] => BitVec.allOnes 64

def execQinit (q : Quals) (d a b : BitVec 6) (s : State) : Host.Outcome State Fault Refusal :=
  runThen s <| once q fun c s => do
    let (t, x) ← c.coupling s d
    require (!x.opened || (x.closed && x.occ == 0)) queueFault
    let n ← c.s a
    let w ← c.s b
    let prod := bitsOf w 15 0
    let cons := bitsOf w 31 16
    let gpt := t.groups.length
    require (1 ≤ n.toNat && n.toNat ≤ 1024 && prod < gpt && cons < gpt) queueFault
    require (bitsOf w 63 33 == 0) queueFault
    require (x.stored || (t.qs.filter (·.stored)).length < 24 * t.fifo.length) queueFault
    c.needIdle
    .ok (c.setCoupling s d ⟨true, false, w.getLsbD 32, n.toNat, prod, cons, n.toNat, 0, [], true⟩)

/-- QPUSH: the release at team scope comes before the push (R160). One that waits for allowance while its coupling is closed
wakes, makes its checks again and traps QUEUE (R161 checks only before the wait; DESIGN CHOICE, log 58). -/
def Ctx.pushQ (c : Ctx) (s : State) (d a : BitVec 6) (attempt : Option (BitVec 6 × Mask)) : Except Stop State := do
  let (_, x) ← c.coupling s d
  require (x.opened && !x.closed && x.prod == c.g.gidx) queueFault
  let v ← c.s a
  c.needIdle
  c.releaseFirst s 2 2
  let ok := 0 < x.allow
  match attempt with
  | none => if ok then .ok (c.setCoupling s d (x.push (v.setWidth 32))) else .error (.wait (.qRoom d.toNat))
  | some (b, m) =>
    let s := if ok then c.setCoupling s d (x.push (v.setWidth 32)) else s
    .ok (c.putArch s (c.g.arch.setP b m (if ok then 0xFFFFFFFF else 0)))

def execQpush (q : Quals) (d a : BitVec 6) (s : State) : Host.Outcome State Fault Refusal :=
  runThen s <| once q fun c s => c.pushQ s d a none

def execQpushTry (q : Quals) (d a b : BitVec 6) (s : State) : Host.Outcome State Fault Refusal :=
  runThen s <| once q fun c s => c.pushQ s d a (some (b, c.active q))

/-- QPOP; an empty closed coupling gives the end marker. -/
def Ctx.popQ (c : Ctx) (s : State) (d a : BitVec 6) (attempt : Option (BitVec 6 × Mask)) : Except Stop State := do
  let (_, x) ← c.coupling s a
  require (x.opened && x.cons == c.g.gidx) queueFault
  c.needIdle
  let some' := 0 < x.occ
  let arch := if some' || x.closed then c.g.arch.setS d x.front else c.g.arch
  let s := if some' then c.setCoupling s a x.pop else s
  match attempt with
  | none => if some' || x.closed then .ok (c.putArch s arch) else .error (.wait (.qData a.toNat))
  | some (b, m) => .ok (c.putArch s (arch.setP b m (if some' || x.closed then 0xFFFFFFFF else 0)))

def execQpop (q : Quals) (d a : BitVec 6) (s : State) : Host.Outcome State Fault Refusal :=
  runThen s <| once q fun c s => c.popQ s d a none

def execQpopTry (q : Quals) (d a b : BitVec 6) (s : State) : Host.Outcome State Fault Refusal :=
  runThen s <| once q fun c s => c.popQ s d a (some (b, c.active q))

def execQallow (q : Quals) (d a : BitVec 6) (s : State) : Host.Outcome State Fault Refusal :=
  runThen s <| once q fun c s => do
    let (_, x) ← c.coupling s d
    require (x.opened && x.cons == c.g.gidx && x.defer) queueFault
    let n ← c.s a
    require (n.toNat ≤ x.ret) queueFault
    c.needIdle
    .ok (c.setCoupling s d { x with allow := x.allow + n.toNat, ret := x.ret - n.toNat })

def execQclose (q : Quals) (d : BitVec 6) (s : State) : Host.Outcome State Fault Refusal :=
  runThen s <| once q fun c s => do
    let (_, x) ← c.coupling s d
    require (x.opened && x.prod == c.g.gidx) queueFault
    c.needIdle
    .ok (c.setCoupling s d { x with closed := true })

end Sys2Proof.Machine
end

