-- ==== Sys2Proof/Machine/Barrier.lean ====
section
/-!
DEFINITION. Barriers (14 R364 to R366): BINIT, BARR, BWAIT, BSYNC and BARRN.
-/
namespace Sys2Proof.Machine

/-- The barrier a team calls b: an index at or above NBAR traps PROTECTION (R366); a privileged group has none (15
R475). -/
def Ctx.barrier (c : Ctx) (s : State) (b : BitVec 6) : Except Stop Barrier :=
  match s.team c.g, s.launch c.g with
  | some t, some l =>
    if l.hdr.nbar ≤ b.toNat then .error (.trap (FaultInfo.ofCause causeProtection))
    else .ok (t.bars.getD b.toNat Barrier.zero)
  | _, _ => .error (.trap (FaultInfo.ofCause causeProtection))

/-- The barrier's new state. -/
def Ctx.setBarrier (c : Ctx) (s : State) (b : BitVec 6) (x : Barrier) : State :=
  s.editTeam c.g fun t => { t with bars := t.bars.set b.toNat x }

/-- The mark of a group in a barrier. -/
def groupMark (gidx : Nat) : BitVec 32 := (1 : BitVec 32) <<< gidx

/-- The group waits in the phase of its last arrival: the arrived marks go when that phase completes (R364). -/
def Barrier.waits (x : Barrier) (gidx : Nat) : Bool := x.arrived.getLsbD gidx

/-- w arrivals of a group; with the last one the phase completes. -/
def Barrier.arrive (x : Barrier) (gidx w : Nat) : Barrier :=
  let m := groupMark gidx
  let last := if x.phase then x.last ||| m else x.last &&& ~~~ m
  if x.arr + w == x.count then { x with arr := 0, phase := !x.phase, arrived := 0, last := last }
  else { x with arr := x.arr + w, arrived := x.arrived ||| m, last := last }

/-- The phase of a barrier has completed: the waits of the team's paths on it are over, whatever arrives next (R364). -/
def State.passBarrier (s : State) (g : Group) (b : Nat) : State :=
  match s.team g with
  | none => s
  | some t =>
    let f := fun (p : Path) => if p.state == .blocked && p.wait == some (.barrier b) then { p with wait := some (.passed b) } else p
    t.groups.foldl (fun s n => match s.group t.core n with
      | some h => s.setGroup t.core n (h.mapAll fun a => a.editPaths a.valid f)
      | none => s) s

/-- arrive(w) (R365): it waits for older posts and releases at team scope; with the last arrival the waiters are released. -/
def Ctx.arrive (c : Ctx) (s : State) (b : BitVec 6) (w : Nat) : Except Stop State := do
  c.needIdle
  let x ← c.barrier s b
  require (x.count != 0) (FaultInfo.ofCause causeProtection)
  require (!x.waits c.g.gidx && x.arr + w ≤ x.count) (FaultInfo.ofCause causeBarrierExcess)
  c.releaseFirst s 2 2
  let s := c.setBarrier s b (x.arrive c.g.gidx w)
  .ok (if x.arr + w == x.count then s.passBarrier c.g b.toNat else s)

def execBinit (q : Quals) (d a : BitVec 6) (s : State) : Host.Outcome State Fault Refusal :=
  runThen s <| once q fun c s => do
    let n ← c.s a
    c.needIdle
    let x ← c.barrier s d
    require (x.arr == 0 && 1 ≤ n.toNat && n.toNat ≤ 1024) (FaultInfo.ofCause causeProtection)
    .ok (c.setBarrier s d { x with count := n.toNat })

def execBarr (q : Quals) (d : BitVec 6) (s : State) : Host.Outcome State Fault Refusal :=
  runThen s <| once q fun c s => do
    let _ ← c.barrier s d
    c.arrive s d 1

def execBarrn (q : Quals) (d a : BitVec 6) (s : State) : Host.Outcome State Fault Refusal :=
  runThen s <| once q fun c s => do
    let _ ← c.barrier s d
    let n ← c.s a
    require (1 ≤ n.toNat && n.toNat ≤ 32) (FaultInfo.ofCause causeProtection)
    c.arrive s d n.toNat

/-- The path's wait on the barrier has ended: its phase completed. -/
def Ctx.passed (c : Ctx) (b : BitVec 6) : Bool := (c.g.arch.path c.iss.ent).wait == some (.passed b.toNat)

/-- BWAIT: the acquire at team scope is that of one core, which leases do not concern (12 R303). -/
def execBwait (q : Quals) (d : BitVec 6) (s : State) : Host.Outcome State Fault Refusal :=
  runThen s <| once q fun c s => do
    let x ← c.barrier s d
    if x.waits c.g.gidx && !c.passed d then .error (.wait (.barrier d.toNat)) else .ok s

/-- BSYNC arrives once: its path keeps the wait that began with the arrival. -/
def execBsync (q : Quals) (d : BitVec 6) (s : State) : Host.Outcome State Fault Refusal :=
  run s fun c s => do
    if c.active q == 0 || c.passed d then .ok (c.finish s)
    else
      let _ ← c.barrier s d
      let s ← c.arrive s d 1
      let x ← c.barrier s d
      .ok (if x.waits c.g.gidx then c.block s (.barrier d.toNat) else c.finish s)

end Sys2Proof.Machine
end

