-- ==== Sys2Proof/Machine/Control.lean ====
section
/-!
DEFINITION. Control flow, paths and consists (13), with NOP, LAND, YIELD, EXIT, TRAP, BRK and PROG.
-/
namespace Sys2Proof.Machine

/-! ### Moving paths -/

/-- An entry goes to a target, where a new run starts (R316). -/
def Path.goto (p : Path) (pn : DWord) : Path := { p with pn := pn, slot := 0, run := 0, skip := .none, spil := .none }

/-- An entry goes on with the next word in a new run (R316). -/
def Path.fallThrough (p : Path) (words : Nat) (cut : Bool) : Path := { p.past words cut with run := 0 }

/-- Ends an instruction that has moved its entries itself. -/
def Ctx.moved (c : Ctx) (s : State) (a : Arch) : State := { c with ents := [] }.finish (c.putArch s a)

/-- The lanes of T of an entry become a new path at a target (R315). -/
def Arch.splitTo (a : Arch) (i : Nat) (t : Mask) (pn : DWord) : Arch :=
  match a.freeEntry with
  | none => a
  | some j =>
    let p := a.path i
    let q := { (p.goto pn) with mask := t, em := t, link := .none, wait := .none, state := .ready, lost := 0, spil := .none }
    (a.editPath i fun p => { p with mask := p.mask &&& ~~~ t, em := p.em &&& ~~~ t }).insertPath j q

/-- The lanes of a set, grouped by target, in ascending order of their lowest lane. -/
def groupTargets (t : Mask) (f : Nat → DWord) : List (Mask × DWord) :=
  (Mask.list t).foldl (fun gs l =>
    if gs.any fun g => g.2 == f l then gs.map fun g => if g.2 == f l then (g.1 ||| Mask.one l, g.2) else g
    else gs ++ [(Mask.one l, f l)]) []

/-- R315 and R321 for one entry: `gone` holds lanes that have left for the siding, which count as no lanes of it. -/
def Ctx.branchOne (c : Ctx) (a : Arch) (i : Nat) (t : Mask) (f : Nat → DWord) : Arch :=
  let p := a.path i
  let t := t &&& p.em
  let next := fun (a : Arch) => a.editPath i fun p => p.fallThrough c.iss.words c.iss.cut
  match groupTargets t f with
  | [] => next a
  | g :: rest =>
    if rest.isEmpty && t == p.em then a.editPath i fun p => p.goto g.2
    else if p.mask &&& ~~~ t == 0 then
      -- the group with the lowest lane keeps the entry
      let a := rest.foldl (fun a r => a.splitTo i r.1 r.2) a
      a.editPath i fun p => p.goto g.2
    else next ((g :: rest).foldl (fun a r => a.splitTo i r.1 r.2) a)

/-- A branch of the stream over its taken set (R315, R331): not taken, uniform, or split and, for a consist, broken. -/
def Ctx.branch (c : Ctx) (s : State) (t : Mask) (f : Nat → DWord) : State :=
  let a := c.g.arch
  let em := a.emOf c.ents
  let t := t &&& em
  if t == 0 then c.finish (c.putArch s a)
  else
    let gs := groupTargets t f
    if gs.length == 1 && t == em then
      c.moved s (a.editPaths c.ents fun p => p.goto ((gs.headD (0, 0)).2))
    else
      let a := if c.ents.length == 1 then a else a.editPaths c.ents fun p => { p with link := .none }
      c.moved s (c.ents.foldl (fun a i => c.branchOne a i t f) a)

/-- A direct target (03 R58). -/
def Ctx.target (c : Ctx) (x : BitVec 22) : DWord := c.iss.pn + x.signExtend 64

/-! ### BR, CALL, BRM -/

def execBr (q : Quals) (x : BitVec 22) (s : State) : Host.Outcome State Fault Refusal :=
  run s fun c s => .ok (c.branch s (c.active q) fun _ => c.target x)

/-- CALL links to the next packet in s62 where a lane goes (R318). -/
def execCall (q : Quals) (x : BitVec 22) (s : State) : Host.Outcome State Fault Refusal :=
  run s fun c s =>
    let t := c.active q
    let c := if t == 0 then c else { c with g := { c.g with arch := c.g.arch.setS 62 (c.iss.pn + 1) } }
    .ok (c.branch s t fun _ => c.target x)

/-- BRM: the path becomes a consist at the target (R327). -/
def execBrm (q : Quals) (x : BitVec 22) (s : State) : Host.Outcome State Fault Refusal :=
  runWith (some 4) false s fun c s => do
    let i := c.iss.ent
    let p := c.g.arch.path i
    require (!p.meld && !p.jstack.isEmpty) (FaultInfo.ofCause causeMeld)
    let s1 := p.em &&& c.guard q
    let s0 := p.mask &&& ~~~ s1
    let dst := { (p.goto (c.target x)) with meld := true, map := idMap }
    let a := c.g.arch
    if s1 == 0 then .ok (c.moved s (a.setPath i { dst with side := false }))
    else if s0 == 0 then .ok (c.moved s (a.setPath i { dst with side := true }))
    else
      match a.freeEntry with
      | none => .ok (c.moved s a)
      | some j =>
        let a := a.setPath i { dst with side := false, mask := s0, em := p.em &&& s0, link := some j }
        .ok (c.moved s (a.insertPath j { dst with side := true, mask := s1, em := s1, link := some i, lost := 0 }))

/-! ### Indirect jumps (R319 to R322) -/

/-- The word of LAND in slot 0, chained or not (03 R77). -/
def isLand (w : Word) : Bool := w &&& 0x7FFFFFFF == 1

/-- Rows 2 to 4 of Table 13-3. -/
def State.landing (s : State) (core : Nat) (g : Group) (pn : DWord) : Option (BitVec 8) :=
  match s.codeRaw core g pn with
  | .error c => some c
  | .ok (l, _) => if isLand ((packetOfLine l pn).toList.getD 0 0) then none else some causeBadLanding

/-- The packet a byte address names (R49). -/
def packetAt (a : DWord) : Option DWord :=
  let x := a.toNat % 128
  if x < 120 && x % 12 == 0 then some (BitVec.ofNat 64 (a.toNat / 128 * 10 + x / 12)) else none

/-- An indirect jump: lane l goes to packet `pn l`, none where its byte address `va l` names none. Lanes that fail leave,
the others are resolved by R315 (R320, R321); `link` also writes s62 where every lane passes. -/
def Ctx.jump (c : Ctx) (s : State) (t : Mask) (va : Nat → DWord) (pn : Nat → Option DWord) (link : Bool) :
    Except Stop State := do
  let t := t &&& c.em
  let why := fun (l : Nat) => match pn l with
    | none => some causeMisaligned
    | some p => s.landing c.iss.core c.g p
  let bad := Mask.ofList ((Mask.list t).filter fun l => (why l).isSome)
  let fault := fun (m : Mask) =>
    let l := (Mask.list m).headD 0
    { FaultInfo.withAddr ((why l).getD causeTranslation) (va l) with mask := some m }
  let sides := c.ents.filterMap fun i =>
    let m := bad &&& (c.src.path i).em
    if m == 0 then none else some (i, m)
  match sides with
  | (_, m) :: _ :: _ => .error (.trap { fault m with mask := none })
  | _ =>
    let (s, c) := sides.foldl (fun p x => p.2.trapLanes p.1 x.1 x.2 x.2 (fault x.2)) (s, c)
    let c := { c with ents := c.ents.filter fun i => (c.g.arch.path i).valid && (c.g.arch.path i).state == PState.ready }
    let t := t &&& ~~~ bad
    let c := if link && t != 0 && bad == 0 then { c with g := { c.g with arch := c.g.arch.setS 62 (c.iss.pn + 1) } } else c
    .ok (c.branch s t fun l => (pn l).getD 0)

/-- A jump of every active lane to one packet number. -/
def Ctx.jumpTo (c : Ctx) (s : State) (q : Quals) (a : BitVec 6) (link : Bool) : Except Stop State :=
  if c.active q == 0 then .ok (c.finish s)
  else do
    let x ← c.s a
    c.jump s (c.active q) (fun _ => packetVa c.iss.core x) (fun _ => some x) link

def execJmps (q : Quals) (a : BitVec 6) (s : State) : Host.Outcome State Fault Refusal :=
  run s fun c s => c.jumpTo s q a false

def execCalls (q : Quals) (a : BitVec 6) (s : State) : Host.Outcome State Fault Refusal :=
  run s fun c s => c.jumpTo s q a true

def execRet (q : Quals) (s : State) : Host.Outcome State Fault Refusal :=
  run s fun c s => c.jumpTo s q 62 false

/-- JMPV: each active lane goes to the byte address in its pair of words. -/
def execJmpv (q : Quals) (a : BitVec 6) (s : State) : Host.Outcome State Fault Refusal :=
  run s fun c s =>
    if c.active q == 0 then .ok (c.finish s)
    else do
      let n := a.toNat
      let m := Quals.modx q
      let need := ({ Need.atL with meld := c.isW a }.source m.ta n).source m.ta (n + 1)
      let bad ← c.checkHalves s ((c.halves (c.active q)).map fun h => (h.1, need))
      let (s, c) ← c.leave s bad
      let va := fun (l : Nat) => (c.src.vreg (n + 1)).lane l ++ (c.src.vreg n).lane l
      c.jump s (c.active q) va (fun l => packetAt (va l)) false

/-! ### SPLIT, JOIN and JOINM (R323 to R326, R332) -/

/-- The merge of waiting peers into one entry, at the word after the highest-slot JOIN among them. -/
def Arch.mergeInto (a : Arch) (i : Nat) (peers : List Nat) (words : Path → Path) : Arch :=
  let m := a.maskOf peers
  let e := a.emOf peers
  let others := peers.filter (· != i)
  let a := others.foldl (fun (a : Arch) j => a.setPath j Path.none) a
  a.editPath i fun p => words { p with mask := m, em := e, state := .ready, wait := .none, jstack := p.jstack.drop 1,
                                       link := .none, lost := 0 }

/-- The peers of a waiting entry (R325). -/
def Arch.peers (a : Arch) (i : Nat) : List Nat :=
  let p := a.path i
  a.valid.filter fun j => (a.path j).jstack.head? == p.jstack.head? && (a.path j).meld == p.meld

/-- If entry i waits at a join and all its peers do, they merge; `next` moves the merged path past the JOIN. -/
def Arch.tryMerge (a : Arch) (i : Nat) (next : Path → Path) : Arch :=
  let p := a.path i
  if !p.valid || p.state != .joinWait || p.jstack.isEmpty then a
  else
    let ps := a.peers i
    let here := fun (j : Nat) => (a.path j).state == .joinWait && some (a.path j).pn == p.jstack.head?
    if !ps.all here then a
    else
      let slot := ps.foldl (fun n j => max n (a.path j).slot) 0
      let on := fun (p : Path) => next { p with slot := slot }
      let melds := ps.any fun j => (a.path j).wait == some (.join true)
      let low := ps.headD i
      if !p.meld || melds then a.mergeInto low ps fun p => { on p with meld := false, side := false, map := idMap }
      else
        let zero := ps.filter fun j => !(a.path j).side
        let one := ps.filter fun j => (a.path j).side
        match zero, one with
        | x :: _, y :: _ =>
          let a := (a.mergeInto x zero on).mergeInto y one on
          (a.editPath x fun p => { p with link := some y }).editPath y fun p => { p with link := some x }
        | _, _ => a.mergeInto low ps on

/-- Past a JOIN at which the path has waited: a new run starts (R325). -/
def Path.joined (p : Path) : Path := p.fallThrough 1 false

/-- The peer set a path belongs to: the top of its stack and its MELD (R325). -/
def Path.peerSet (p : Path) : Option DWord × Bool := (p.jstack.head?, p.meld)

/-- Paths of these peer sets have left: a set whose paths all wait merges (R325, R339; log 19). -/
def Arch.mergeJoins (a : Arch) (gone : List (Option DWord × Bool)) : Arch :=
  (List.range 32).foldl (fun (a : Arch) i =>
    if gone.contains (a.path i).peerSet then a.tryMerge i Path.joined else a) a

/-- Entries that lost their last lane are freed, and the peer sets they leave no longer wait for them (R339). -/
def Arch.exitPaths (a : Arch) (is : List Nat) : Arch :=
  let out := is.filter fun i => (a.path i).valid && (a.path i).mask == 0
  (a.dropEmpty is).mergeJoins (out.map fun i => (a.path i).peerSet)

def execSplit (v : BitVec 25) (s : State) : Host.Outcome State Fault Refusal :=
  run s fun c s => do
    let full := c.ents.any fun i => 64 ≤ (c.g.arch.path i).jstack.length
    require (!full) (FaultInfo.withOperand causeQuota 8)
    let j := c.iss.pn + v.signExtend 64
    let a := c.g.arch.editPaths c.ents fun p => { p with jstack := j :: p.jstack }
    .ok (c.moved s (c.advanceArch a))

/-- The stream waits at its JOIN or JOINM; the peers merge when they all wait. One that has no other peer does not wait,
and its run goes on. -/
def Ctx.joinHere (c : Ctx) (s : State) (melds : Bool) : State :=
  let ps := c.g.arch.peers c.iss.ent
  let alone := ps.all fun j => c.ents.contains j
  let a := c.g.arch.editPaths c.ents fun p =>
    { p with state := .joinWait, wait := some (.join melds), run := if alone then p.run else 0 }
  let a := a.tryMerge c.iss.ent fun p => if alone then p.past c.iss.words c.iss.cut else p.joined
  let s := if alone && melds then
      { s with running := s.running.map fun r =>
          if r == (c.iss.core, c.iss.grp, c.iss.ent) then (c.iss.core, c.iss.grp, ps.headD c.iss.ent) else r }
    else s
  c.moved s a

def Ctx.topIsMe (c : Ctx) : Bool := (c.g.arch.path c.iss.ent).jstack.head? == some c.iss.pn

def execJoin (s : State) : Host.Outcome State Fault Refusal :=
  run s fun c s => .ok (if c.topIsMe then c.joinHere s false else c.finish s)

def execJoinm (s : State) : Host.Outcome State Fault Refusal :=
  runWith (some 4) false s fun c s => do
    require (c.meld && c.topIsMe) (FaultInfo.ofCause causeMeld)
    .ok (c.joinHere s true)

/-! ### MAP0, MAP1, SIDE, PATHID -/

/-- MAP[K] of the stream's entry of one side (R333); D is the w-name, 48 to 63. -/
def setMap (side : Bool) (d : BitVec 4) (a : BitVec 6) (c : Ctx) (s : State) : Except Stop State := do
  require c.meld (FaultInfo.ofCause causeMeld)
  .ok (c.finish (c.putArch s (c.g.arch.editPaths c.ents fun p =>
    if p.side == side then { p with map := p.map.set d.toNat a d.isLt } else p)))

def execMap0 (d : BitVec 4) (a : BitVec 6) (s : State) : Host.Outcome State Fault Refusal :=
  runWith (some 4) false s (setMap false d a)

def execMap1 (d : BitVec 4) (a : BitVec 6) (s : State) : Host.Outcome State Fault Refusal :=
  runWith (some 4) false s (setMap true d a)

def execSide (d : BitVec 6) (s : State) : Host.Outcome State Fault Refusal :=
  runWith (some 4) false s fun c s =>
    let m := c.src.maskOf (c.ents.filter fun i => (c.src.path i).meld && (c.src.path i).side)
    .ok (c.finish (c.putArch s (c.g.arch.setP d 0xFFFFFFFF m)))

/-- PATHID (R340, Table 13-4). -/
def execPathid (d : BitVec 6) (s : State) : Host.Outcome State Fault Refusal :=
  runThen s fun c s =>
    let i := c.ents.headD 0
    let p := c.src.path i
    let pair := 2 ≤ c.ents.length
    .ok (c.writeS s d (BitVec.ofNat 64 ((c.src.maskOf c.ents).toNat * 2 ^ 32 + bitNat pair 13 +
      (if pair then c.ents.getD 1 0 * 2 ^ 8 else 0) + bitNat (p.meld && p.side) 6 + bitNat p.meld 5 + i)))

/-! ### NOP, LAND, YIELD, EXIT -/

def execNop (_q : Quals) (s : State) : Host.Outcome State Fault Refusal := runThen s fun _ s => .ok s

def execLand (_q : Quals) (s : State) : Host.Outcome State Fault Refusal := runThen s fun _ s => .ok s

/-- The run of the stream ends after its chain group (R338). -/
def execYield (q : Quals) (s : State) : Host.Outcome State Fault Refusal :=
  run s fun c s =>
    if c.active q == 0 then .ok (c.finish s)
    else .ok (c.moved s ((c.advanceArch c.g.arch).editPaths c.ents fun p => { p with run := 0 }))

/-- EXIT: the stream's lanes whose guard holds leave the group, whatever %em holds (R339). -/
def execExit (q : Quals) (s : State) : Host.Outcome State Fault Refusal :=
  run s fun c s =>
    let out := c.src.maskOf c.ents &&& c.guard q
    let a := c.advanceArch c.g.arch
    let a := a.editPaths c.ents fun p => { p with mask := p.mask &&& ~~~ out, em := p.em &&& ~~~ out }
    let s := c.moved s (a.exitPaths c.ents)
    .ok (s.endGroup c.iss.core c.iss.grp)

/-! ### TRAP, BRK, PROG, WAITF -/

/-- TRAP: the active lanes leave (15 R389). -/
def execTrap (q : Quals) (b : BitVec 6) (s : State) : Host.Outcome State Fault Refusal :=
  run s fun c s =>
    let code := match Quals.imm? q with
      | some v => imm25S v
      | none => b.setWidth 64
    let hs := c.halves (c.active q)
    let f := FaultInfo.withOperand causeTrapInsn code
    match hs with
    | [] => .ok (c.finish s)
    | [(i, m)] =>
      let (s, c) := c.trapLanes s i m m f
      let c := { c with ents := c.ents.filter fun i => (c.g.arch.path i).valid && (c.g.arch.path i).state == PState.ready }
      .ok (c.finish s)
    | _ => .error (.trap f)

/-- BRK: a breakpoint where the interface enables them (15 R389, 19 R461). -/
def execBrk (q : Quals) (b : BitVec 6) (s : State) : Host.Outcome State Fault Refusal :=
  run s fun c s =>
    if c.active q == 0 || isRanene c.iss.core || !(s.ctx c.g.vi).dbgctl.getLsbD 0 then .ok (c.finish s)
    else
      let (s, c) := c.hit s b.toNat
      .ok (if c.ents.isEmpty then s else c.finish s)

/-- The interface's counter of Table 19-2, wrapping. -/
def Context.bump (x : Context) (i n : Nat) : Context :=
  { x with counters := x.counters.put i (x.counters.get i 0 + BitVec.ofNat 64 n) }

/-- PROG: counts when it retires (19 R468). -/
def execProg (q : Quals) (b : BitVec 6) (s : State) : Host.Outcome State Fault Refusal :=
  runWith (some 10) false s fun c s =>
    if c.active q == 0 || isRanene c.iss.core then .ok (c.finish s)
    else do
      c.needIdle
      let x := (s.ctx c.g.vi).bump b.toNat 1
      let data := b.toNat % 256 + (x.counters.get b.toNat 0).toNat / 256 % 2 ^ 24 * 256
      let s := (s.setCtx c.g.vi x).trace c.iss.core c.iss.grp (c.ents.headD 0) 6 data c.iss.pn
      .ok (c.finish s)

/-- WAITF: if any lane is active, it waits until v[D] is full, in a consist until the registers of both sides are; only a
half with an active lane makes the checks (08 R223, 13 R329). -/
def execWaitf (q : Quals) (d : BitVec 6) (s : State) : Host.Outcome State Fault Refusal :=
  run s fun c s => do
    if c.active q == 0 then .ok (c.finish s)
    else
      let bad ← c.checkHalves s ((c.halves (c.active q)).map fun h => (h.1, Need.atL.names [c.rename h.1 d]))
      match c.emptyWait ((c.ents.filter fun i => !(bad.any fun b => b.1 == i)).map fun i => c.rename i d) with
      | some w => .error (.wait w)
      | none =>
        let (s, c) ← c.leave s bad
        .ok (c.finish s)

end Sys2Proof.Machine
end

