-- ==== Sys2Proof/Machine/Engine.lean ====
section
/-!
DEFINITION. Memory accesses of the device itself under an interface: the engine context reading rings and headers, writing
answers, completion bits and records (14 R348, R350; 18 R447; 19 R466). They use the interface's translations, go to the
home as uncached accesses, and are carried through (log 9). Host memory is read with RdCurr and written with WOWrInv (17 R418):
the work that needs it is left until the host has answered, and is then done again from the start with the answers.
-/
namespace Sys2Proof.Machine

/-- What came of a device access: not now, or a failure with its cause. -/
inductive DevStop where
  | later (part line : Nat)
  | fail (c : BitVec 8)
  deriving DecidableEq, Repr

/-- The page of an address for an interface's engine context, which uses the translation cache of its lowest die. -/
def State.viPage (s : State) (v : Nat) (va : DWord) : Option PageMap := s.page (36 * s.viPart v) v va

/-- The translated address of a device access. -/
def State.devAddr (s : State) (v : Nat) (va : DWord) (write : Bool) : Except DevStop Nat :=
  if !isUser va then .error (.fail causeTranslation)
  else
    match s.viPage v va with
    | none => .error (.fail causeTranslation)
    | some pg => if pg.allows (if write then .write else .read) then .ok (pg.dpa va) else .error (.fail causeProtection)

/-- A request of an engine context to the host, unless it is out already or the port is full. -/
def State.askHost (s : State) (v : Nat) (write : Bool) (a : Nat) (l : Line) (mask : BitVec 128) : State :=
  let r := { s.hostReq (s.viPart v) v write a l mask with eng := some v }
  if s.out.reqs.contains r || !s.portRoom (s.viPart v) then s else s.sendHost r

/-- A line of host memory, once the host has sent it. -/
def State.hostRead (s : State) (v a : Nat) : State × Except DevStop Line :=
  match (s.ctx v).hostGot.find? fun x => x.1 == a with
  | some (_, l, p) => (s, if p then .error (.fail causePoison) else .ok l)
  | none => (s.askHost v false a 0 0, .error (.later (s.viPart v) (2 ^ 51 + a)))

/-- A write of host memory, done once the host has observed it. -/
def State.hostWrite (s : State) (v a : Nat) (l : Line) (mask : BitVec 128) : State × Option DevStop :=
  if (s.ctx v).hostDone.contains (a, l, mask) then (s, none)
  else (s.askHost v true a l mask, some (.later (s.viPart v) (2 ^ 51 + a)))

/-- The agent that an engine context's accesses come from: the Ranene core of its partition's lowest die (01 R10; log 61). -/
def State.devAgent (s : State) (v : Nat) : Nat := 72 + s.viPart v

/-- An access of an engine context uses the translation cache of its lowest die (15 R384). -/
def State.devTouch (s : State) (v : Nat) (va : DWord) : State := s.touch (36 * s.viPart v) v va

/-- Reads a line at its home. -/
def State.devLine (s : State) (v : Nat) (va : DWord) : State × Except DevStop Line :=
  let s := s.devTouch v va
  match s.devAddr v va false with
  | .error e => (s, .error e)
  | .ok a =>
    let a := a / 128 * 128
    if isHostDpa a then s.hostRead v (a % 2 ^ 51)
    else
      let part := s.viPart v
      match s.syncHome .ncr part a (s.devAgent v) fun m => { m with vi := v } with
      | (s, some m) => (s, if m.cls == 5 then .error (.later part a) else if m.poison then .error (.fail causePoison) else .ok m.data)
      | (s, none) => (s, .error (.later part a))

/-- The addresses of the lines that n bytes touch. -/
def linesOf (va : DWord) (n : Nat) : List DWord :=
  (List.range ((va.toNat % 128 + n + 127) / 128)).map fun i => va - BitVec.ofNat 64 (va.toNat % 128) + BitVec.ofNat 64 (128 * i)

/-- Reads n bytes. -/
def State.devRead (s : State) (v : Nat) (va : DWord) (n : Nat) : State × Except DevStop (List Byte) :=
  let (s, r) := (linesOf va n).foldl (fun (p : State × Except DevStop (List Byte)) a =>
    match p with
    | (s, .error e) => (s, .error e)
    | (s, .ok bs) => match s.devLine v a with
      | (s, .error e) => (s, .error e)
      | (s, .ok l) => (s, .ok (bs ++ Line.toBytes l))) (s, .ok [])
  (s, r.map fun bs => (bs.drop (va.toNat % 128)).take n)

/-- Writes some bytes of one line at its home. -/
def State.devPut (s : State) (v : Nat) (va : DWord) (bs : List Byte) : State × Option DevStop :=
  let s := s.devTouch v va
  match s.devAddr v va true with
  | .error e => (s, some e)
  | .ok a =>
    let line := a / 128 * 128
    let off := a % 128
    let data := Line.ofBytes (List.replicate off 0 ++ bs)
    let mask := byteMask off bs.length
    if isHostDpa a then s.hostWrite v (line % 2 ^ 51) data mask
    else
      let part := s.viPart v
      match s.syncHome .ncw part line (s.devAgent v) fun m => { m with vi := v, data := data, mask := mask } with
      | (s, some m) => (s, if m.cls == 5 then some (.later part line) else if m.cls == 6 then some (.fail causeProtection)
          else if m.poison then some (.fail causePoison) else none)
      | (s, none) => (s, some (.later part line))

/-- Writes bytes, line by line, up to the first that does not succeed. -/
def State.devWrite : Nat → State → Nat → DWord → List Byte → State × Option DevStop
  | 0, s, _, _, _ => (s, none)
  | n + 1, s, v, va, bs =>
    if bs.isEmpty then (s, none)
    else
      let k := min bs.length (128 - va.toNat % 128)
      match s.devPut v va (bs.take k) with
      | (s, none) => State.devWrite n s v (va + BitVec.ofNat 64 k) (bs.drop k)
      | r => r

def State.devStore (s : State) (v : Nat) (va : DWord) (bs : List Byte) : State × Option DevStop :=
  State.devWrite (bs.length + 1) s v va bs

/-- Work of an engine context that used some byte ranges is over: the host's answers about them are spent. -/
def State.devDone (s : State) (v : Nat) (rs : List (DWord × Nat)) : State :=
  let x := s.ctx v
  if x.hostGot.isEmpty && x.hostDone.isEmpty then s
  else
    let ls := (rs.flatMap fun r => linesOf r.1 r.2).filterMap fun a => (s.viPage v a).map fun p => p.dpa a / 128 * 128 % 2 ^ 51
    s.setCtx v { x with hostGot := x.hostGot.filter (fun y => !ls.contains y.1),
                        hostDone := x.hostDone.filter fun y => !ls.contains y.1 }

/-- An atomic AND or OR of one byte at its home, at dev scope (05 R126, 14 R350). -/
def State.devAtomic (s : State) (v : Nat) (va : DWord) (f x : Nat) : State × Option DevStop :=
  let s := s.devTouch v va
  match s.devAddr v va true with
  | .error e => (s, some e)
  | .ok a =>
    if isHostDpa a then (s, some (.fail causeProtection))
    else
      let part := s.viPart v
      let line := a / 128 * 128
      let op : MemOp := ⟨.red, 4, false, f, 0, 5, 0⟩
      let word := if f == 6 then 0xFFFFFFFF - (255 - x) * 2 ^ (8 * (a % 4)) else x * 2 ^ (8 * (a % 4))
      let acc : Acc := ⟨0, 0, a % 128 / 4 * 4, BitVec.ofNat 128 word, 0, 0⟩
      match s.syncHome .atom part line (s.devAgent v) fun m => { m with vi := v, mop := some op, accs := [acc] } with
      | (s, some m) => (s, if m.cls == 5 then some (.later part line) else if m.cls == 6 then some (.fail causeProtection)
          else if m.poison then some (.fail causePoison) else none)
      | (s, none) => (s, some (.later part line))

/-- n bytes of management memory, none where a line is poisoned. -/
def State.mgmtBytes (s : State) (off n : Nat) : Option (List Byte) :=
  let lines := (List.range ((off % 128 + n + 127) / 128)).map fun i => s.cellLine (mgmtCell (off / 128 * 128 + 128 * i))
  if lines.any (·.2) then none else some (s.readBytes (mgmtCell off) n)

/-- An address in management memory names an offset there. -/
def mgmtOff (a : DWord) (n : Nat) : Option Nat :=
  let off := a.toNat % 2 ^ 52
  if addrClass a == 0xFF3 && isMgmtMem off && off + n ≤ 0x9000000 then some off else none

/-! ### Trace records (19 R466) -/

/-- The oldest waiting trace record of an interface is written, or dropped where its write fails. -/
def State.writeTrace (s : State) (v : Nat) : State :=
  let x := s.ctx v
  match x.trace with
  | [] => s
  | (_, r) :: rest =>
    let n := x.trcbase.toNat % 32
    let gone := fun (s : State) (k : Nat) =>
      let x := s.ctx v
      s.setCtx v { x with trace := x.trace.drop 1, counters := x.counters.put k (x.counters.get k 0 + 1) }
    if n == 0 then s.setCtx v { x with trace := rest }
    else
      let cnt := (x.counters.get 19 0).toNat
      let base := bitsOf x.trcbase 56 12 * 4096
      let a := BitVec.ofNat 64 (base + 32 * (cnt % 2 ^ n))
      match s.devStore v a (bytesOfNat 32 r.toNat) with
      | (s, none) => gone (s.devDone v [(a, 32)]) 19
      | (s, some (.fail _)) => gone (s.devDone v [(a, 32)]) 21
      | (s, some (.later ..)) => s

/-! ### Event records (18 R451) -/

/-- The oldest waiting event record of a die is written to its ring once there is room; a record that waits sets OVF. -/
def State.writeEvent (s : State) (d : Nat) : State :=
  match s.mgmt.evWait.get d [] with
  | [] => s
  | r :: rest =>
    let base := evqReg d 0
    if s.ringRoom base then
      let s := s.ringPut base 32 (bytesOfNat 32 r.toNat)
      { s with mgmt := { s.mgmt with evWait := s.mgmt.evWait.put d rest } }
    else if (s.mr (base + 8)).getLsbD 8 then s
    else s.setMr (base + 8) (s.mr (base + 8) ||| 0x100)

end Sys2Proof.Machine
end

