-- ==== Sys2Proof/Machine/Upkeep.lean ====
section
/-!
DEFINITION. Cache maintenance (07 R194), SPILL and FILL (07 R195 to R197), BANKM and the draining of banks
(06 R143, R146).
-/
namespace Sys2Proof.Machine

/-! ### PREF, CWB, CINV, CZERO, CEVT (R194) -/

/-- The address of a maintenance form. -/
def Ctx.lineAddr (c : Ctx) (q : Quals) (b : BitVec 6) : Except Stop DWord := do
  let base ← c.s b
  .ok (base + (Quals.memx q).ofs.signExtend 64)

/-- The line of a form that acts on it now, with its checks for reading; none where the form does nothing. -/
def Ctx.lineToKeep (c : Ctx) (s : State) (a : DWord) : Except Stop (Option (Nat × Nat)) :=
  let fault := fun (x : BitVec 8) => Except.error (Stop.trap (FaultInfo.withAddr x a))
  -- the slot window answers nothing but CZERO
  if inClass a 0xFF1 then .ok none
  else
    match s.locate c.iss.core c.iss.grp c.g false false 1 .l 0 a with
    | .error x => fault x
    | .ok (.line part line, _) => if (s.latest part line).2 then fault causePoison else .ok (some (part, line))
    | .ok _ => .ok none

/-- The line can be reached now; if not, it is called back and the group waits. -/
def Ctx.needLine (c : Ctx) (s : State) (part line : Nat) : Except Stop State :=
  let _ := c
  let s := s.settleLine part line
  if s.reachable part line then .ok s else .error (.wait (.reach part line))

/-- The cluster ends with the line clean in E, if it held it dirty (CWB). -/
def State.writeBack (s : State) (c part line vi : Nat) : State :=
  match (s.cluster c).lines.find line with
  | some l =>
    if l.st == .m then
      let s := (s.dropLine c line).settleLine part line
      (s.sendHome .getm part line c fun m => { m with vi := vi }).settleLine part line
    else s
  | none => s

/-- A maintenance form counts as a store of the line: it acts when everything older has performed, and a release waits
for it. -/
def keepLine (q : Quals) (b : BitVec 6) (f : Ctx → State → Nat → Nat → Except Stop State) (c : Ctx) (s : State) :
    Except Stop State := do
  if c.active q == 0 then .ok (c.finish s)
  else
    let a ← c.lineAddr q b
    match ← c.lineToKeep s a with
    | none => .ok (c.finish s)
    | some (part, line) =>
      c.needIdle
      let s ← c.needLine (s.touchAll c.iss.core c.g [a]) part line
      let s ← f c s part line
      match s.group c.iss.core c.iss.grp with
      | some g => .ok (c.finish (c.put s (g.performedAt s.ns)))
      | none => .ok s

def execCwb (q : Quals) (b : BitVec 6) (s : State) : Host.Outcome State Fault Refusal :=
  run s (keepLine q b fun c s part line => .ok (s.writeBack (clusterOfCore c.iss.core) part line c.g.vi))

/-- CEVT: CWB, and then the cluster's copy goes. -/
def execCevt (q : Quals) (b : BitVec 6) (s : State) : Host.Outcome State Fault Refusal :=
  run s (keepLine q b fun c s part line =>
    let k := clusterOfCore c.iss.core
    .ok (((s.writeBack k part line c.g.vi).dropLine k line).settleLine part line))

/-- CINV: RECALL at the home; every copy, replica and lease goes, and the home's copy is written back and dropped. -/
def execCinv (q : Quals) (b : BitVec 6) (s : State) : Host.Outcome State Fault Refusal :=
  runWith none true s (keepLine q b fun _ s part line =>
    match s.emptyLines part [line] with
    | (s, []) => .ok s
    | (_, _) => .error (.wait (.reach part line)))

/-- PREF asks for the line and goes on; a failing check drops it. -/
def execPref (q : Quals) (b : BitVec 6) (s : State) : Host.Outcome State Fault Refusal :=
  runThen s <| once q fun c s => do
    let a ← c.lineAddr q b
    let hint := (Quals.memx q).hint
    let k := clusterOfCore c.iss.core
    match s.locate c.iss.core c.iss.grp c.g false false 1 .l 0 a with
    | .ok (.line _ line, _) =>
      if s.uncached c.iss.core line .l hint || (s.cached k line).isSome || (s.cluster k).pending line then .ok s
      else
        let s := s.touchAll c.iss.core c.g [a]
        let x := s.cluster k
        let s := s.setCluster k { x with mshr := x.mshr ++ [⟨line, .gets⟩] }
        .ok (s.sendGets k line c.g.floor fun m =>
          { m with vi := c.g.vi, mop := some ⟨.load, 1, false, 0, 0, 0, hint⟩ })
    | _ => .ok s

/-- CZERO: a store of 128 B of zero that clears poison. -/
def execCzero (q : Quals) (b : BitVec 6) (s : State) : Host.Outcome State Fault Refusal :=
  run s fun c s => do
    if c.active q == 0 then .ok (c.finish s)
    else
      c.acquireOver
      let a ← c.lineAddr q b
      match s.locate c.iss.core c.iss.grp c.g true true 128 .l 0 a with
      | .error x => .error (.trap (FaultInfo.withAddr x a))
      | .ok (t, _) =>
        let op : MemOp := ⟨.czero, 16, false, 0, 0, 0, (Quals.memx q).hint⟩
        c.accessWait s op [(.l, t)]
        let accs : List Acc := (List.range 8).map fun i => ⟨i, 0, 16 * i, 0, 0, 0⟩
        let h : Half := ⟨c.iss.ent, 1, 0, 0, 0, 0, none, 0, .l⟩
        .ok (c.launchMem s op [c.entry .l (.mem op [h] [(0, a)] [⟨t, accs, .todo, none, 0, 0⟩])])

/-! ### SPILL and FILL (R195 to R197) -/

/-- The index at which the instruction starts: 0, or the one its path came back with. -/
def Ctx.firstIndex (c : Ctx) : Nat := ((c.src.path (c.ents.headD 0)).spil).getD 0

/-- The request of one register of the span: the words of the active lanes, or the failed check. -/
def Ctx.moveReq (c : Ctx) (s : State) (write : Bool) (base : DWord) (hs : List Half) (i : Nat) : LineReq :=
  let accs : List Acc := (List.range 32).flatMap fun l => (hs.filter fun h => h.act.getLsbD l).map fun h =>
    { lane := l, reg := h.d + i, off := 4 * l,
      val := if write then ((c.src.vreg (h.d + i)).lane l).setWidth 128 else 0, cmp := 0, got := 0 }
  match s.locate c.iss.core c.iss.grp c.g write false 128 .l 0 (base + BitVec.ofNat 64 (128 * i)) with
  | .ok (t, _) => ⟨t, accs, .todo, none, 0, 0⟩
  | .error x => ⟨.host 0, accs, .done, some x, 0, 0⟩

/-- SPILL or FILL of n registers from D on. -/
def moveSpan (kind : MKind) (q : Quals) (d a b : BitVec 6) (s : State) : Host.Outcome State Fault Refusal :=
  run s fun c s => do
    let act := c.active q
    if act == 0 then .ok (c.finish s)
    else
      c.acquireOver
      let n := a.toNat
      let base ← c.lineAddr q b
      let hs := (c.halves act).map fun h => c.half h.1 h.2 d 0 0 0 none 0
      let bad ← c.checkHalves s (hs.map fun h =>
        let regs := span h.d n
        (h.ent, { named := regs, place := .l, placeOk := regs.all fun r => (c.src.vreg r).place == .l, meld := false,
                  marked := [], waits := if kind == .spill then regs else [] }))
      let good := hs.filter fun h => !(bad.any fun b => b.1 == h.ent)
      let first := c.firstIndex
      let op : MemOp := ⟨kind, 4, false, first, 0, 0, (Quals.memx q).hint⟩
      let idx := (List.range n).filter (first ≤ ·)
      let rs := idx.map fun i => c.moveReq s (kind == .spill) base good i
      c.accessWait s op ((rs.filter fun r => r.fail.isNone).map fun r => (.l, r.tgt))
      let (s, c) ← c.leave s bad
      if good.isEmpty then .ok (c.finish s)
      else
        let eas := idx.zipIdx.map fun i => (i.2, base + BitVec.ofNat 64 (128 * i.1))
        .ok (c.launchMem s op [c.entry .l (.mem op good eas rs)])

def execSpill (q : Quals) (d a b : BitVec 6) (s : State) : Host.Outcome State Fault Refusal := moveSpan .spill q d a b s
def execFill (q : Quals) (d a b : BitVec 6) (s : State) : Host.Outcome State Fault Refusal := moveSpan .fill q d a b s

/-! ### Banks (06 R143, R146) -/

/-- The banks of a cluster with one changed. -/
def State.editBank (s : State) (c b : Nat) (f : Bank → Bank) : State :=
  let x := s.cluster c
  s.setCluster c { x with banks := x.banks.set b (f (x.banks.getD b Bank.zero)) }

/-- Writes back and invalidates the lines of a bank; lines with a GETU outstanding stay (06 R142). True where none is
left. -/
def State.emptyBank (s : State) (c b : Nat) : State × Bool :=
  let x := s.cluster c
  let mine := x.lines.filter fun p => p.2.bank == b
  let stay := fun (l : Nat) => x.mshr.any fun r => r.line == l && r.ev == .getu
  let s := (mine.filter fun p => !stay p.1).foldl (fun s p => (s.dropLine c p.1).settleLine (s.partOfCluster c) p.1) s
  (s, !((s.cluster c).lines.any fun p => p.2.bank == b))

/-- 96 KiB of zeros. -/
def State.clearBank (s : State) (c b : Nat) : State :=
  let lo := scratchCell c b 0
  { s with mem := s.mem.filter fun x => !(lo ≤ x.1 && x.1 < lo + 2 ^ 17) }

/-- A frame at K of a group of the cluster lies in the bank. -/
def State.frameIn (s : State) (c b : Nat) : Bool :=
  s.groups.any fun x => clusterOfCore (x.1 / 256) == c && !isRanene (x.1 / 256) && !x.2.ended &&
    (Group.framesAt x.2 .k).any fun r => r.anchor.toNat / 2 ^ 16 == b

/-- A BANKM of a group of the cluster is in progress on a bank: it waits for the bank, or has its turn (R146). -/
def State.bankAwaited (s : State) (k b : Nat) : Bool :=
  s.groups.any fun x => clusterOfCore (x.1 / 256) == k && !isRanene (x.1 / 256) && !x.2.ended && x.2.arch.valid.any fun i =>
    (x.2.arch.path i).inLine == some (.bank k b)

/-- BANKM (R146): while lines of the bank cannot leave yet it takes no new ones, and the group waits; others come after it. A
privileged group has no cluster (15 R475). -/
def execBankm (q : Quals) (a b : BitVec 6) (s : State) : Host.Outcome State Fault Refusal :=
  run s fun c s => do
    if c.active q == 0 then .ok (c.finish s)
    else
      require (!privMode c) (FaultInfo.ofCause causeProtection)
      let x ← c.s b
      let bank := x.toNat % 32
      let k := clusterOfCore c.iss.core
      let m := BankMode.ofCode a.toNat
      c.needIdle
      let turn := (c.g.arch.path c.iss.ent).wait == some (.bank k bank)
      let old := (s.cluster k).banks.getD bank Bank.zero
      require old.holder.isNone (FaultInfo.ofCause causeProtection)
      if !turn && s.bankAwaited k bank then .error (.wait (.bank k bank))
      else if old.mode == m then .ok (c.finish (s.editBank k bank fun b => { b with drain := false }))
      else
        let (s, clear) := if old.mode == .cache then s.emptyBank k bank else (s, true)
        if !clear then .ok (c.block (s.editBank k bank fun b => { b with drain := true }) (.bank k bank))
        else
          require (!(old.mode == .frame && s.frameIn k bank)) (FaultInfo.ofCause causeProtection)
          .ok (c.finish ((s.editBank k bank fun b => { b with mode := m, drain := false }).clearBank k bank))

/-- A bank that was taken from CACHE for a team is written back and invalidated (R143), and so is one that a BANKM gave up. -/
def execBankDrain (clus bank : Nat) (s : State) : Host.Outcome State Fault Refusal :=
  .next (if ((s.cluster clus).banks.getD bank Bank.zero).drain && !s.bankAwaited clus bank then
    let (s, clear) := s.emptyBank clus bank
    if clear then (s.editBank clus bank fun b => { b with drain := false }).clearBank clus bank else s
  else s)

end Sys2Proof.Machine
end

