-- ==== Sys2Proof/Machine/Launch.lean ====
section
/-!
DEFINITION. Launches and teams (14 R341 to R357, R362; 06 R143, R144): the header and its checks, acceptance, dependences,
placement, dispatch, retirement, killing, and the launch instructions.
-/
namespace Sys2Proof.Machine

/-! ### The header (Table 14-1) -/

def Header.ofBytes (bs : List Byte) : Header :=
  let f := fieldOf bs
  let sgn := fun (o : Nat) => signedOf 32 (f o 4)
  { ser := f 6 2 % 2 == 1
    entry := BitVec.ofNat 64 (f 0x08 8)
    features := BitVec.ofNat 128 (f 0x10 16)
    width := (List.range 6).map fun i => f (0x20 + i) 1
    aff := (List.range 4).map fun i => f (0x26 + i) 1
    gpt := f 0x2A 1, prio := f 0x2B 1, budget := f 0x2C 2
    kq := f 0x2E 1, hq := f 0x2F 1, mq := f 0x30 1
    scrb := f 0x31 1, fifob := f 0x32 1, frmb := f 0x33 1
    nch := f 0x34 1, nq := f 0x35 1, nbar := f 0x36 1
    extent := (List.range 4).map fun i => f (0x38 + 4 * i) 4
    pmap := BitVec.ofNat 128 (f 0x48 16)
    lq := (List.range 32).map fun i => f (0x58 + i) 1
    depId := BitVec.ofNat 64 (f 0x78 8)
    depKind := f 0x80 1, depK := f 0x81 1, depJ := f 0x82 1
    depA := sgn 0x84, depB := sgn 0x88, depC := sgn 0x8C
    param := BitVec.ofNat 64 (f 0x90 8)
    cbmap := BitVec.ofNat 64 (f 0x98 8)
    evwait := BitVec.ofNat 256 (f 0xA0 32)
    evset := BitVec.ofNat 256 (f 0xC0 32)
    res := (bs.drop 0x20).take 64 }

/-- The code of a v name in PMAP. -/
def Header.place (h : Header) (n : Nat) : Nat := h.pmap.toNat / 4 ^ n % 4

/-- Names that PMAP places at K, ascending. -/
def Header.kNames (h : Header) : List Nat := (List.range 64).filter fun n => h.place n == 1

/-- The number of teams (R344). -/
def Header.teams (h : Header) : Nat := h.extent.foldl (· * ·) 1

def log2Up (n : Nat) : Nat := if n ≤ 1 then 0 else Nat.log2 (n - 1) + 1

/-- The checks of Table 14-2 after the header has been read, in its order. -/
def State.headerCode (s : State) (v : Nat) (bs : List Byte) : Nat :=
  let h := Header.ofBytes bs
  let f := fieldOf bs
  let x := s.ctx v
  let zeros := f 6 2 / 2 != 0 || f 0x37 1 != 0 || f 0x83 1 != 0 || f 0xE0 32 != 0
  let w := fun (k : Nat) => h.width.getD k 0
  let ext := fun (k : Nat) => h.extent.getD (k - 2) 0
  let aff := fun (k : Nat) => h.aff.getD (k - 2) 0
  let ks := [2, 3, 4, 5]
  let badWid := w 0 != 5 || w 1 < log2Up h.gpt || 64 < h.width.foldl (· + ·) 0 ||
    ks.any (fun k => ext k == 0 || 2 ^ w k < ext k) || 2 ^ 32 - 1 < h.teams || ks.any (fun k => 2 < aff k) ||
    ks.any fun k => aff k == 2 && ks.any fun j => aff j == 1 && k ≤ j
  let lq := fun (g : Nat) => h.lq.getD g 0
  let names := h.kNames.length
  let badRes := h.gpt < 1 || 32 < h.gpt ||
    (List.range 32).any (fun g => lq g % 8 != 0 || 64 < lq g || (h.gpt ≤ g && lq g != 0)) ||
    h.budget < h.lq.foldl (· + ·) 0 || h.budget < 8 || 64 * h.gpt < h.budget || 64 < h.kq || 64 < h.hq || 64 < h.mq ||
    32 < h.scrb + h.fifob + h.frmb || 8 < h.nch || 16 < h.nq || 16 < h.nbar || 384 * h.frmb < h.gpt * names || h.kq < names
  let badPlace := (List.range 64).any (fun n => 2 ≤ h.place n) || (names != 0 && !h.features.getLsbD 1)
  let known := x.launches.any fun l => BitVec.ofNat 64 l.id == h.depId
  let badDep := 4 < h.depKind || (h.depId != 0 && (h.depKind == 0 || !known)) || (h.depId == 0 && h.depKind != 0) ||
    (h.depKind == 2 && (h.depK < 2 || 5 < h.depK || h.depJ < 2 || 5 < h.depJ)) || (h.depKind == 3 && h.depA == 0)
  if f 0 4 != 0x31484C59 || f 4 2 != 1 || zeros || 3 < h.prio then 0x40
  else if h.features &&& ~~~ s.caps v != 0 then 0x18
  else if badWid then 0x41
  else if badRes then 0x42
  else if badPlace then 0x43
  else if badDep then 0x44
  else if 4096 ≤ (x.launches.filter fun l => l.incomplete).length then 0x48
  else 0

/-! ### Launches of a context -/

def State.editLaunch (s : State) (v id : Nat) (f : Launch → Launch) : State :=
  let x := s.ctx v
  s.setCtx v { x with launches := x.launches.map fun l => if l.id == id then f l else l }

def Context.launch (x : Context) (id : Nat) : Option Launch := x.launches.find? fun l => l.id == id

/-- A wait for events that is met stays met (R354). -/
def Context.seeEvents (x : Context) : Context :=
  { x with launches := x.launches.map fun l =>
      if l.incomplete && !l.evOk && l.hdr.evwait &&& ~~~ x.events == 0 then { l with evOk := true } else l }

/-- The event vector changes. -/
def State.setEvents (s : State) (v : Nat) (f : BitVec 256 → BitVec 256) : State :=
  let x := s.ctx v
  s.setCtx v { x with events := f x.events }.seeEvents

/-- Team t's completion bit is set; a complete launch has every bit set (R352). -/
def Launch.bit (l : Launch) (t : Nat) : Bool := l.state == .complete || l.done.contains t

/-- Team t's bit can never be set (R353). -/
def Launch.never (l : Launch) (t : Nat) : Bool :=
  !l.bit t && (l.killed.contains t || (l.state == .failed && (!l.sent.contains t || l.retired.contains t)))

/-- The producer teams that consumer team t needs (Table 14-6). -/
def Header.needs (h : Header) (p : Launch) (t : Nat) : List Nat :=
  let n := p.hdr.teams
  match h.depKind with
  | 1 => if t < n then [t] else []
  | 2 =>
    let want := (coordsOf h.extent t).getD (h.depJ - 2) 0
    (List.range n).filter fun u => (coordsOf p.hdr.extent u).getD (h.depK - 2) 0 == want
  | 3 => (List.range n).filter fun u =>
      h.depA * Int.ofNat t + h.depB ≤ Int.ofNat u && Int.ofNat u ≤ h.depA * Int.ofNat t + h.depC
  | 4 => List.range n
  | _ => []

/-- Every bit that a team needs is set. -/
def Context.depsMet (x : Context) (l : Launch) (t : Nat) : Bool :=
  match x.launch l.hdr.depId.toNat with
  | some p => (l.hdr.needs p t).all p.bit
  | none => true

/-- A team that is still to be sent needs a bit that can never be set. -/
def Context.depLost (x : Context) (l : Launch) : Bool :=
  match x.launch l.hdr.depId.toNat with
  | some p => (List.range l.hdr.teams).any fun t => !l.sent.contains t && (l.hdr.needs p t).any p.never
  | none => false

/-- Launches that can no longer go on fail, one after another (R353). -/
def State.failDeps : Nat → State → Nat → State
  | 0, s, _ => s
  | n + 1, s, v =>
    match (s.ctx v).launches.find? fun l => l.incomplete && (s.ctx v).depLost l with
    | none => s
    | some l =>
      let s := s.editLaunch v l.id fun l => { l with state := .failed, status := 0x47 }
      (s.adminEvent v 0x80 (BitVec.ofNat 64 l.id)).failDeps n v

def State.checkDeps (s : State) (v : Nat) : State := s.failDeps (s.ctx v).launches.length v

/-! ### Acceptance (R342, R343, R349) -/

/-- n zero bytes are written line by line; a line whose write fails is passed over. -/
def State.devZero : Nat → State → Nat → DWord → Nat → State × Option DevStop
  | 0, s, _, _, _ => (s, none)
  | fuel + 1, s, v, va, n =>
    if n == 0 then (s, none)
    else
      let k := min n (128 - va.toNat % 128)
      match s.devPut v va (List.replicate k 0) with
      | (s, some (.later p l)) => (s, some (.later p l))
      | (s, _) => State.devZero fuel s v (va + BitVec.ofNat 64 k) (n - k)

/-- The completion bitmap's bits of a launch's teams are zeroed; a write that fails is dropped (R343, R350). -/
def State.clearBitmap (s : State) (v : Nat) (h : Header) : State × Option DevStop :=
  let n := h.teams
  match s.devZero (n / 8 + 1) v h.cbmap (n / 8) with
  | (s, some e) => (s, some e)
  | (s, none) =>
    if n % 8 == 0 then (s, none)
    else
      match s.devAtomic v (h.cbmap + BitVec.ofNat 64 (n / 8)) 6 (255 - (2 ^ (n % 8) - 1)) with
      | (s, some (.later p l)) => (s, some (.later p l))
      | (s, _) => (s, none)

/-- A launch is accepted into a queue. -/
def State.accept (s : State) (v q : Nat) (h : Header) : State :=
  let x := s.ctx v
  let l : Launch := { id := x.nextId, hdr := h, queue := q, status := 0, state := .waiting, done := [], sent := [],
                      retired := [], killed := [], evOk := false, affs := [], caps := s.caps v, stamp := s.clk }
  (s.setCtx v { x with nextId := x.nextId + 1, launches := x.launches ++ [l] }.seeEvents).checkDeps v

/-- The answer to a submitter: the id, or 2^63 and the status. -/
def launchAnswer (code id : Nat) : DWord := BitVec.ofNat 64 (if code == 0 then id else 2 ^ 63 + code)

/-- A header is checked, and the bitmap of one that passes zeroed: the code of Table 14-2, none where it cannot be done now. -/
def State.judge (s : State) (v : Nat) (bs : List Byte) : State × Except DevStop Nat :=
  let code := s.headerCode v bs
  if code != 0 then (s, .ok code)
  else
    match s.clearBitmap v (Header.ofBytes bs) with
    | (s, some e) => (s, .error e)
    | (s, none) => (s, .ok 0)

/-- What a submission reads and writes: the header at an address, and its bitmap. -/
def submitRanges (hdr : DWord) (bs : List Byte) : List (DWord × Nat) :=
  let h := Header.ofBytes bs
  [(hdr, 256), (h.cbmap, h.teams / 8 + 1)]

/-- A launch is accepted where its code is 0: the machine. -/
def State.acceptOne (s : State) (v q code : Nat) (bs : List Byte) : State :=
  if code == 0 then s.accept v q (Header.ofBytes bs) else s

/-- The next entry of a launch queue is consumed (R348). -/
def State.launchAccept (s : State) (v q : Nat) : State :=
  let head := (s.mr (lnqReg v q 2)).toNat
  let base := s.mr (lnqReg v q 0)
  if !s.consuming v || !base.getLsbD 0 || BitVec.ofNat 64 head == s.mr (lnqReg v q 3) then s
  else
    let n := bitsOf (s.mr (lnqReg v q 1)) 3 0
    let ent := BitVec.ofNat 64 (bitsOf base 56 12 * 4096 + 16 * (head % 2 ^ n))
    -- the answer is written, the launch accepted or refused, and HEAD moves on
    let consumed := fun (s : State) (code : Nat) (bs : List Byte) (used : List (DWord × Nat)) =>
      match s.devStore v (ent + 8) (bytesOfNat 8 (launchAnswer code (s.ctx v).nextId).toNat) with
      | (s, some (.later ..)) => s
      | (s, e) =>
        let s := ((s.acceptOne v q code bs).devDone v ((ent, 16) :: used)).setMr (lnqReg v q 2) (BitVec.ofNat 64 ((head + 1) % 0x10000))
        if e.isSome then s.disableQueue v q true else s
    match s.devRead v ent 16 with
    | (s, .error (.later ..)) => s
    | (s, .error (.fail _)) => (s.devDone v [(ent, 16)]).disableQueue v q true
    | (s, .ok bs) =>
      let a := BitVec.ofNat 64 (fieldOf bs 0 8 / 64 * 64)
      match s.devRead v a 256 with
      | (s, .error (.later ..)) => s
      | (s, .error (.fail _)) => consumed s 0x45 [] [(a, 256)]
      | (s, .ok hdr) =>
        match s.judge v hdr with
        | (s, .ok code) => consumed s code hdr (submitRanges a hdr)
        | (s, .error _) => s

def execLaunchAccept (vi q : Nat) (s : State) : Host.Outcome State Fault Refusal := .next (s.launchAccept vi q)

/-- Doorbells and queue registers (R347, R348). -/
def execLnqTailWrite (vi q : Nat) (value : BitVec 64) (s : State) : Host.Outcome State Fault Refusal :=
  .next (s.writeBar vi (0x100 * (q % 16) + 0x18) value (BitVec.allOnes 64))

def execLnqCfgWrite (vi q : Nat) (value : BitVec 64) (s : State) : Host.Outcome State Fault Refusal :=
  .next (s.writeBar vi (0x100 * (q % 16) + 8) value (BitVec.allOnes 64))

def execLnqBaseWrite (vi q : Nat) (value : BitVec 64) (s : State) : Host.Outcome State Fault Refusal :=
  .next (s.writeBar vi (0x100 * (q % 16)) value (BitVec.allOnes 64))

/-! ### Placement (R355, R356) -/

/-- Group numbers of a core that hold no group. -/
def State.freeGroups (s : State) (core : Nat) : List Nat :=
  (List.range 256).filter fun n => (s.group core n).isNone

/-- The group numbers for groups 0 to GPT - 1: the lowest free number on partition g mod 8. -/
def State.pickGroups (s : State) (core gpt : Nat) : Option (List Nat) :=
  ((List.range gpt).foldl (fun (p : List Nat × List Nat) g =>
    match p.1.find? fun n => n % 8 == g % 8 with
    | some n => (p.1.filter (· != n), p.2 ++ [n])
    | none => p) (s.freeGroups core, [])) |> fun p => if p.2.length == gpt then some p.2 else none

/-- Teams resident on a core. -/
def State.teamsOn (s : State) (core : Nat) : List Team := (s.teams.filter fun t => t.2.core == core).map (·.2)

/-- Registers of the core's lane files that are not reserved (01 R8: 64 for each of 256 groups). -/
def State.freeRegs (s : State) (core : Nat) : Nat :=
  16384 - (s.teamsOn core).foldl (fun n t => n + ((((s.ctx t.vi).launch t.launch).map fun l => l.hdr.budget).getD 0)) 0

/-- Free channels of a core, ascending. -/
def State.freeChans (s : State) (core : Nat) : List Nat := (List.range 8).filter fun n => (s.chan core n).team.isNone

/-- Banks for a mode: unheld ones in that mode first, then the lowest unheld CACHE banks (06 R143). -/
def pickBanks (banks : List (Nat × Bank)) (m : BankMode) (n : Nat) : Option (List Nat) :=
  let own := (banks.filter fun b => b.2.holder.isNone && b.2.mode == m).map (·.1)
  let lent := (banks.filter fun b => b.2.holder.isNone && b.2.mode == .cache).map (·.1)
  let all := (own ++ lent).take n
  if all.length == n then some all else none

/-- The reserved banks of a team: SCRATCH, then FIFO, then FRAME pick from those that are left, an order the spec does not
give (DESIGN CHOICE, log 58). -/
def State.chooseBanks (s : State) (c : Nat) (h : Header) : Option (List Nat × List Nat × List Nat) :=
  let banks := (s.cluster c).banks.zipIdx.map fun b => (b.2, b.1)
  let less := fun (bs : List Nat) (xs : List (Nat × Bank)) => xs.filter fun b => !bs.contains b.1
  match pickBanks banks .scratch h.scrb with
  | none => none
  | some a =>
    match pickBanks (less a banks) .fifo h.fifob with
    | none => none
    | some b =>
      match pickBanks (less b (less a banks)) .frame h.frmb with
      | none => none
      | some d => some (a, b, d)

/-- As `chooseBanks`, once no BANKM is in progress on a bank of the choice (06 R146). -/
def State.pickAllBanks (s : State) (c : Nat) (h : Header) : Option (List Nat × List Nat × List Nat) :=
  match s.chooseBanks c h with
  | some x => if (x.1 ++ x.2.1 ++ x.2.2).any fun b => ((s.cluster c).banks.getD b Bank.zero).drain || s.bankAwaited c b then none
      else some x
  | none => none

/-- The core can supply at once what a team needs (R355). -/
def State.coreFits (s : State) (core : Nat) (h : Header) : Bool :=
  (s.pickGroups core h.gpt).isSome && h.budget ≤ s.freeRegs core && h.nch ≤ (s.freeChans core).length &&
    (s.pickAllBanks (clusterOfCore core) h).isSome

/-- The sets with affinity a team belongs to, widest first: field, the coordinates above it, and whether it is a die. -/
def Header.affSets (h : Header) (t : Nat) : List (Nat × List Nat × Bool) :=
  [5, 4, 3, 2].filterMap fun k =>
    let a := h.aff.getD (k - 2) 0
    if a == 0 then none else some (k, (coordsOf h.extent t).drop (k - 1), a == 2)

/-- The cores of an interface's partition. -/
def State.coresOf (s : State) (v : Nat) : List Nat := (List.range 144).filter fun c => (s.viDies v).getLsbD (dieOfCore c)

/-- The cluster or die of a core. -/
def siteOf (die : Bool) (core : Nat) : Nat := if die then dieOfCore core else clusterOfCore core

/-- The cores where a team may go, and the choices it makes (R356): the first of a set takes the site with the most free
group slots, the lowest winning ties. -/
def State.mayGo (s : State) (v : Nat) (l : Launch) (t : Nat) : List Nat × List (Nat × List Nat × Nat) :=
  (l.hdr.affSets t).foldl (fun p (x : Nat × List Nat × Bool) =>
    let (k, above, die) := x
    match l.affs.find? fun a => a.1 == k && a.2.1 == above with
    | some a => (p.1.filter fun c => siteOf die c == a.2.2, p.2)
    | none =>
      let free := fun (i : Nat) => (p.1.filter fun c => siteOf die c == i).foldl (fun n c => n + (s.freeGroups c).length) 0
      let sites := (p.1.map (siteOf die)).eraseDups
      let best := sites.foldl (fun (b : Nat) i => if free b < free i then i else b) (sites.headD 0)
      (p.1.filter fun c => siteOf die c == best, p.2 ++ [(k, above, best)])) (s.coresOf v, [])

/-- The launch that came before in the same queue is over (R349): complete, or failed with no team resident. -/
def Context.serialOk (x : Context) (l : Launch) : Bool :=
  let before := x.launches.filter fun m => m.queue == l.queue && m.id < l.id
  !l.hdr.ser || match before.getLast? with
    | some m => m.state == .complete || (m.state == .failed && m.sent.all fun t => m.retired.contains t || m.killed.contains t)
    | none => true

/-- Team t may be dispatched as far as its launch goes (R349, R352, R354). -/
def Context.eligible (x : Context) (l : Launch) (t : Nat) : Bool :=
  l.incomplete && t < l.hdr.teams && !l.sent.contains t && l.evOk && x.serialOk l && x.depsMet l t

/-- A team can become resident on a core now. -/
def State.canPlace (s : State) (v : Nat) (l : Launch) (t core : Nat) : Bool :=
  (s.ctx v).eligible l t && (s.mayGo v l t).1.contains core && s.coreFits core l.hdr

/-! ### Dispatch (R357, 06 R143, R150, 08 R199, R203) -/

/-- A number no team has. -/
def State.newTeam (s : State) : Nat := (s.teams.foldl (fun n t => max n t.1) 0) + 1

/-- A reserved bank takes its mode: taken from CACHE, it is drained first; SCRATCH and FRAME start as zero. -/
def State.reserveBank (s : State) (c team : Nat) (m : BankMode) (b : Nat) : State :=
  let old := (s.cluster c).banks.getD b Bank.zero
  let s := s.editBank c b fun x => { x with mode := m, holder := some team, drain := old.mode == .cache }
  if old.mode == .cache then s else s.clearBank c b

/-- The registers of a group at residency: PMAP names at K have the team's frames in ascending name order (08 R203). -/
def startArch (h : Header) (frames : List DWord) : Arch :=
  let a := Arch.start h.entry
  (h.kNames.zip frames).foldl (fun a x => a.setV x.1 { VReg.zero with place := .k, anchor := x.2 }) a

/-- The team's frame anchors, bank by bank. -/
def frameList (banks : List Nat) : List DWord := banks.flatMap fun b => (List.range 384).map fun f => frameAnchor b f

/-- A group at task start. The dispatch of a team that waited for others or for events has acquired from them, at time `ns`
(R352, R354; 12 R303). -/
def startGroup (h : Header) (team v g ns : Nat) : Group :=
  { team := some team, gidx := g, vi := v, arch := Arch.start h.entry, rob := [], lates := [], seq := 0, lq := h.lq.getD g 0, kq := h.kq,
    hq := h.hq, mq := h.mq, vtClu := 0, vtDev := 0, vtSys := 0,
    floor := if h.depId != 0 || h.evwait != 0 then ns else 0, acq := none, seen := [], dbgsel := 0, wsel := 0,
    werr := 0, hold := false, held := false, ended := false, stopped := false }

/-- The team becomes resident: the machine with its resources reserved, and the team's number. -/
def State.reserve (s : State) (v : Nat) (l : Launch) (t core : Nat) (gs : List Nat) (bs : List Nat × List Nat × List Nat) :
    State × Nat :=
  let h := l.hdr
  let k := s.newTeam
  let c := clusterOfCore core
  let chans := (s.freeChans core).take h.nch
  let pool := h.budget - h.lq.foldl (· + ·) 0
  let scr := (List.range 32).filter fun b => bs.1.contains b
  let tm : Team := { vi := v, launch := l.id, t := t, core := core, groups := gs, scr := scr, fifo := bs.2.1, frm := bs.2.2,
                     chans := chans, pool := pool, qs := List.replicate 16 Coupling.zero,
                     bars := List.replicate 16 Barrier.zero }
  let s := { s with teams := s.teams.put k tm }
  let s := bs.1.foldl (fun s b => s.reserveBank c k .scratch b) s
  let s := bs.2.1.foldl (fun s b => s.reserveBank c k .fifo b) s
  let s := bs.2.2.foldl (fun s b => s.reserveBank c k .frame b) s
  (chans.zipIdx.foldl (fun s x => s.setChan core x.1 { Channel.zero with team := some k, name := x.2 }) s, k)

/-- The launch has sent team t. -/
def State.markSent (s : State) (v id t : Nat) (affs : List (Nat × List Nat × Nat)) : State :=
  s.editLaunch v id fun l => { l with sent := l.sent ++ [t], state := if l.state == .waiting then .running else l.state,
                                      affs := l.affs ++ affs }

def State.teamDispatch (s : State) (v id t core : Nat) : State :=
  match (s.ctx v).launch id with
  | none => s
  | some l =>
    if !s.viEnabled v || !s.canPlace v l t core then s
    else
      match s.pickGroups core l.hdr.gpt, s.pickAllBanks (clusterOfCore core) l.hdr with
      | some gs, some bs =>
        let affs := (s.mayGo v l t).2
        let (s, k) := s.reserve v l t core gs bs
        let names := l.hdr.kNames.length
        let frames := frameList bs.2.2
        let s := gs.zipIdx.foldl (fun s x =>
          s.setGroup core x.1 { startGroup l.hdr k v x.2 s.ns with
            arch := startArch l.hdr ((frames.drop (x.2 * names)).take names) }) s
        s.markSent v id t affs
      | _, _ => s

def execTeamDispatch (vi id team core : Nat) (s : State) : Host.Outcome State Fault Refusal :=
  .next (s.teamDispatch vi id team core)

/-- Every reserved bank of a team is drained: its groups may run (06 R143). -/
def State.teamReady (s : State) (t : Team) : Bool :=
  (t.scr ++ t.fifo ++ t.frm).all fun b => !((s.cluster (clusterOfCore t.core)).banks.getD b Bank.zero).drain

/-! ### Retirement and killing (R350, R353, R354; 06 R144) -/

/-- A team's bank is released: CACHE, empty, unheld. -/
def State.releaseBank (s : State) (c b : Nat) : State :=
  (s.editBank c b fun x => { x with mode := .cache, holder := none, drain := false }).clearBank c b

/-- Window holds of a group that leaves a core end; HELD reads 0 (15 R377, R378). -/
def State.dropHolds (s : State) (core grp : Nat) : State :=
  { s with groups := s.groups.map fun x =>
      if isRanene (x.1 / 256) && x.2.hold && bitsOf x.2.wsel 15 8 == core && bitsOf x.2.wsel 7 0 == grp then
        (x.1, { x.2 with hold := false, held := false })
      else x }

/-- The rows under the team's frames at M close (04 R108). -/
def State.closeTeamRows (s : State) (t : Team) : State :=
  t.groups.foldl (fun s n => match s.group t.core n with
    | some g => (Group.framesAt g .m).foldl (fun s r => s.closeRows r) s
    | none => s) s

/-- Everything a team holds is freed. -/
def State.freeTeam (s : State) (k : Nat) (t : Team) : State :=
  let s := s.closeTeamRows t
  let c := clusterOfCore t.core
  let s := (t.scr ++ t.fifo ++ t.frm).foldl (fun s b => s.releaseBank c b) s
  let s := t.chans.foldl (fun s n => s.setChan t.core n Channel.zero) s
  let s := t.groups.foldl (fun s n =>
    let p := partOf t.core n
    let s := (s.setPart t.core p ((s.part t.core p).releaseSlots n)).dropHolds t.core n
    { s with groups := s.groups.drop (groupKey t.core n),
             running := s.running.filter fun r => !(r.1 == t.core && r.2.1 == n) }) s
  { s with teams := s.teams.drop k }.updateAcct t.vi

/-- A team's completion bit is set, and mirrored (R350); a mirror write that fails is dropped. -/
def State.setBit (s : State) (v id t : Nat) : State × Option DevStop :=
  match (s.ctx v).launch id with
  | none => (s, none)
  | some l =>
    if l.done.contains t then (s, none)
    else
      match s.devAtomic v (l.hdr.cbmap + BitVec.ofNat 64 (t / 8)) 7 (2 ^ (t % 8)) with
      | (s, some (.later p a)) => (s, some (.later p a))
      | (s, _) => (s.editLaunch v id fun l => { l with done := l.done ++ [t] }, none)

/-- Every team of a launch has ended: it is complete, or ends as killed (R353, R354). -/
def State.endLaunch (s : State) (v id : Nat) : State :=
  match (s.ctx v).launch id with
  | none => s
  | some l =>
    if l.state == .failed || l.retired.length + l.killed.length < l.hdr.teams then s
    else if l.killed.isEmpty then
      let s := s.editLaunch v id fun l => { l with state := .complete }
      (s.setEvents v fun e => e ||| l.hdr.evset).raiseMsix v (1 + l.queue)
    else
      (s.editLaunch v id fun l => { l with state := .failed, status := 0x46 }).adminEvent v 0x80 (BitVec.ofNat 64 id)

/-- The team's groups have ended and its channels hold no incomplete operation (R350). -/
def State.teamOver (s : State) (t : Team) : Bool :=
  t.groups.all (fun n => match s.group t.core n with
    | some g => g.ended && g.rob.isEmpty
    | none => true) && t.chans.all fun n => (s.chan t.core n).ops.isEmpty

/-- The team retires: its bit with a release at dev scope, then its resources. -/
def State.teamRetire (s : State) (v id t : Nat) : State :=
  match s.teams.find? fun x => x.2.vi == v && x.2.launch == id && x.2.t == t with
  | none => s
  | some (k, tm) =>
    if !s.teamOver tm || !(tm.groups.all fun n => match s.group tm.core n with
      | some g => g.vtDev < s.ns
      | none => true) then s
    else
      match s.setBit v id t with
      | (s, some _) => s
      | (s, none) =>
        let s := (s.freeTeam k tm).editLaunch v id fun l => { l with retired := l.retired ++ [t] }
        (s.endLaunch v id).checkDeps v

def execTeamRetire (vi id team : Nat) (s : State) : Host.Outcome State Fault Refusal := .next (s.teamRetire vi id team)

/-- A team is killed: its groups are cancelled, what it holds is freed, its bit is never set (15 R391). -/
def State.killTeam (s : State) (k : Nat) (t : Team) : State :=
  let s := t.groups.foldl (fun s n => match s.group t.core n with
    | some g => s.undoPart t.core n 0 g.rob
    | none => s) s
  let s := (s.freeTeam k t).editLaunch t.vi t.launch fun l => { l with killed := l.killed ++ [t.t], status := 0x46 }
  (s.endLaunch t.vi t.launch).checkDeps t.vi

/-! ### The launch instructions (R362) -/

/-- The context of an unprivileged group, its team and its launch (15 R475). -/
def Ctx.ownLaunch (c : Ctx) (s : State) : Except Stop (Team × Launch) :=
  match s.team c.g, s.launch c.g with
  | some t, some l => .ok (t, l)
  | _, _ => .error (.trap (FaultInfo.ofCause causeProtection))

/-- What an instruction does with a device access that does not succeed. -/
def DevStop.stop : DevStop → Stop
  | .later p l => .wait (.reach p l)
  | .fail c => .trap (FaultInfo.ofCause c)

/-- LAUNCH: the launch id, or 2^63 and the code of a refusal. -/
def execLaunch (q : Quals) (d a : BitVec 6) (s : State) : Host.Outcome State Fault Refusal :=
  run s fun c s => do
    if c.active q == 0 then .ok (c.finish s)
    else
      let (_, l) ← c.ownLaunch s
      let x ← c.s a
      require (x.toNat % 64 == 0) (FaultInfo.ofCause causeMisaligned)
      c.needIdle
      c.releaseFirst s 2 5
      let v := c.g.vi
      match s.devRead v x 256 with
      | (s, .error (.later p l)) => .ok (c.block s (.reach p l))
      | (_, .error (.fail e)) => .error (.trap (FaultInfo.ofCause e))
      | (s, .ok bs) =>
        match s.judge v bs with
        | (s, .error (.later p l)) => .ok (c.block s (.reach p l))
        | (_, .error (.fail e)) => .error (.trap (FaultInfo.ofCause e))
        | (s, .ok code) =>
          let r := launchAnswer code (s.ctx v).nextId
          .ok (c.finish (c.writeS ((s.acceptOne v l.queue code bs).devDone v (submitRanges x bs)) d r))

def execTsig (q : Quals) (s : State) : Host.Outcome State Fault Refusal :=
  runThen s <| once q fun c s => do
    let (t, l) ← c.ownLaunch s
    c.needIdle
    c.releaseFirst s 2 5
    match s.setBit t.vi l.id t.t with
    | (_, some e) => .error e.stop
    | (s, none) => .ok s

def execEvset (q : Quals) (a : BitVec 6) (s : State) : Host.Outcome State Fault Refusal :=
  runThen s <| once q fun c s => do
    let _ ← c.ownLaunch s
    let x ← c.s a
    c.needIdle
    c.releaseFirst s 2 5
    let m : BitVec 256 := (1 : BitVec 256) <<< (x.toNat % 256)
    .ok (s.setEvents c.g.vi fun e => if x.getLsbD 8 then e &&& ~~~ m else e ||| m)

/-- EVWAIT; a privileged group has no vector, and so waits for a bit that is never set (15 R475; log 48). -/
def execEvwait (q : Quals) (a : BitVec 6) (s : State) : Host.Outcome State Fault Refusal :=
  runThen s <| once q fun c s => do
    let x ← c.s a
    let n := x.toNat % 256
    if !privMode c && (s.ctx c.g.vi).events.getLsbD n then .ok (c.put s (c.g.raiseFloor s.ns))
    else .error (.wait (.event n))

/-- LSTAT (Table 14-9). -/
def State.lstatWord (s : State) (v : Nat) (id : DWord) : DWord :=
  match (s.ctx v).launch id.toNat with
  | none => 0
  | some l =>
    let st := match l.state with
      | .waiting => 1
      | .running => 2
      | .complete => 3
      | .failed => 4
    BitVec.ofNat 64 (l.retired.length * 2 ^ 32 + st * 2 ^ 8 + l.status.toNat)

def execLstat (q : Quals) (d a : BitVec 6) (s : State) : Host.Outcome State Fault Refusal :=
  runThen s <| once q fun c s => do
    let x ← c.s a
    .ok (c.writeS s d (if privMode c then 0 else s.lstatWord c.g.vi x))

end Sys2Proof.Machine
end

