-- ==== Sys2Proof/Machine/System.lean ====
section
/-!
DEFINITION. System registers, time and the window (15 R375 to R380, R386 to R392; 13 R313, 14 R344 to R346, 18 R434,
19 R459 to R464): MFS, MTS, DTIME, TLBI, WINRD, WINWR, RESUME, and a window hold that takes effect.
-/
namespace Sys2Proof.Machine

/-! ### Registers of a group as words -/

/-- %quota (08 Table 08-3). -/
def quotaWord (g : Group) : DWord :=
  BitVec.ofNat 64 (g.lq + g.kq * 2 ^ 8 + g.hq * 2 ^ 16 + g.mq * 2 ^ 24 + Group.count g .k * 2 ^ 32 +
    Group.count g .h * 2 ^ 40 + Group.count g .m * 2 ^ 48)

/-- %npath (13 Table 13-2). -/
def npathWord (a : Arch) : DWord :=
  let n := fun (p : Path → Bool) => (a.valid.filter fun i => p (a.path i)).length
  BitVec.ofNat 64 (n (fun _ => true) + n (fun p => !p.away) * 2 ^ 8 + n (fun p => p.state == .siding) * 2 ^ 16)

/-- A place-map entry in the layout of Table 08-7 with PEND = 0. -/
def mapWord (a : Arch) (n : Nat) : DWord :=
  let r := a.vreg n
  let anchor := match r.place with
    | .l => 0
    | .k => r.anchor.toNat % 2 ^ 21 / 2 ^ 7 * 2 ^ 7
    | _ => r.anchor.toNat % 2 ^ 56 / 2 ^ 7 * 2 ^ 7
  BitVec.ofNat 64 (anchor + bitNat (a.dirty.getLsbD n) 6 + bitNat r.full 5 + r.place.code)

/-- STATE of a path entry (13 Table 13-1). -/
def PState.code : PState → Nat
  | .ready => 0 | .blocked => 1 | .joinWait => 2 | .siding => 3 | .held => 4

/-- MAP as one number: wk in bits [6k + 5 : 6k]. -/
def Path.mapNat (p : Path) : Nat := (List.range 16).foldl (fun n k => n + ((p.map[k]?).getD 0).toNat * 2 ^ (6 * k)) 0

def mapOfNat (x : Nat) : Vector (BitVec 6) 16 := Vector.ofFn fun k => BitVec.ofNat 6 (x / 2 ^ (6 * k.val))

/-- Word w of a path entry (15 Table 15-7). -/
def Path.word (p : Path) (i w : Nat) : DWord :=
  if !p.valid then 0
  else match w with
    | 0 => BitVec.ofNat 64 (p.run * 2 ^ 26 + i * 2 ^ 21 + p.slot * 2 ^ 19 + p.jstack.length * 2 ^ 12 +
        (match p.link with
         | some j => (32 + j) * 2 ^ 6
         | .none => 0) + bitNat p.side 5 + bitNat p.meld 4 + p.state.code * 2 + 1)
    | 1 => p.pn
    | 2 => p.em ++ p.mask
    | 3 => BitVec.ofNat 64 p.mapNat
    | 4 => BitVec.ofNat 64 (p.mapNat / 2 ^ 64)
    | 5 => BitVec.ofNat 64 ((match p.spil with
        | some k => 2 ^ 12 + k % 16 * 2 ^ 8
        | .none => 0) + if p.state == .siding then p.cause.toNat else 0)
    | 6 | 7 => 0
    | w => (p.jstack.reverse)[w - 8]?.getD 0

/-! ### The selected group (R377) -/

/-- The group that a privileged group's %wsel names: resident, of the caller's partition. -/
def State.selected (s : State) (core : Nat) (g : Group) : Option (Nat × Nat × Group) :=
  let c := bitsOf g.wsel 15 8
  if Config.clusterCores ≤ c || !(s.diesOf (s.partOfCore core)).getLsbD (dieOfCore c) then none
  else
    match s.group c (bitsOf g.wsel 7 0) with
    | some h => if h.ended then none else some (c, bitsOf g.wsel 7 0, h)
    | none => none

/-- The Ranene groups whose %wsel holds a group. -/
def State.holders (s : State) (core grp : Nat) : List (Nat × Group) :=
  s.groups.filter fun x => isRanene (x.1 / 256) && x.2.hold && !x.2.ended && bitsOf x.2.wsel 15 8 == core &&
    bitsOf x.2.wsel 7 0 == grp

def State.isHeld (s : State) (core grp : Nat) : Bool := !(s.holders core grp).isEmpty

/-- %wstat (Table 15-5). -/
def State.wstat (s : State) (core : Nat) (g : Group) : DWord :=
  let valid := (s.selected core g).isSome
  BitVec.ofNat 64 (g.werr.toNat * 2 ^ 8 + bitNat valid 1 + bitNat (valid && g.held) 0)

/-- The hold of a %wsel ends; HOLD itself is cleared where `clear` says so. -/
def Group.dropHold (g : Group) (clear : Bool) : Group :=
  { g with hold := false, held := false, wsel := if clear then g.wsel &&& ~~~ 0x1000000 else g.wsel }

/-- A write of %wsel (R378). -/
def State.setWsel (s : State) (core : Nat) (g : Group) (x : DWord) : Group :=
  let g := { g.dropHold false with wsel := x &&& 0x11FFFFF }
  { g with hold := x.getLsbD 24 && (s.selected core g).isSome }

/-- A group has nothing under way: no run, every older instruction performed, every register full (08 R224). -/
def State.quiet (s : State) (core grp : Nat) (g : Group) : Bool :=
  !(s.running.any fun r => r.1 == core && r.2.1 == grp) && g.idle && g.arch.allFull && g.arch.sPend.isEmpty

/-- A window hold's drain is complete: HELD becomes 1 for every group that holds. -/
def execGroupHeld (core grp : Nat) (s : State) : Host.Outcome State Fault Refusal :=
  .next (match s.group core grp with
  | none => s
  | some g =>
    if s.quiet core grp g then
      (s.holders core grp).foldl (fun s x => { s with groups := s.groups.put x.1 { x.2 with held := true } }) s
    else s)

/-! ### Debug registers (19 R459, R460, R464) -/

/-- Entries of an interface in state HELD: core, group, entry. -/
def State.heldEntries (s : State) (vi : Nat) : List (Nat × Nat × Nat) :=
  (s.groups.filter fun x => !isRanene (x.1 / 256) && x.2.vi == vi).flatMap fun x =>
    (x.2.arch.valid.filter fun i => (x.2.arch.path i).state == .held).map fun i => (x.1 / 256, x.1 % 256, i)

/-- A counter of Table 19-2. -/
def State.counter (s : State) (vi sel : Nat) : DWord :=
  if sel == 20 then BitVec.ofNat 64 (s.heldEntries vi).length
  else if sel ≤ 21 then (s.ctx vi).counters.get sel 0 else 0

def State.debugRead (s : State) (g : Group) (b : Nat) : DWord :=
  let x := s.ctx g.vi
  match b with
  | 0x18 => x.dbgctl
  | 0x19 => x.bkpc
  | 0x1B => x.trcbase
  | 0x1C => s.counter g.vi g.dbgsel.toNat
  | 0x1D => x.cxLo
  | 0x1E => x.cxHi
  | 0x1F => x.cxDelay.setWidth 64
  | _ => 0

/-- An entry that is let go at the PC breakpoint skips it once (R461). -/
def Context.skips (x : Context) (p : Path) : Option DWord :=
  if x.dbgctl.getLsbD 0 && x.dbgctl.getLsbD 1 && p.slot == 0 && p.pn == x.bkpc then some p.pn else none

/-- An entry becomes READY at its resume point, with a new run to start. -/
def Path.letGo (p : Path) (skip : Option DWord) : Path :=
  { p with state := .ready, run := 0, wait := .none, lost := 0, skip := skip }

/-- A HELD entry is released. One released alone from a consist that is held whole runs as a consist of one, and the other side
stays HELD (R464; DEDUCED, log 58). -/
def State.releaseEntry (s : State) (alone : Bool) (x : Nat × Nat × Nat) : State :=
  match s.group x.1 x.2.1 with
  | none => s
  | some g =>
    let p := g.arch.path x.2.2
    if p.state != .held then s
    else
      let c := s.ctx g.vi
      let off := fun (a : Arch) => match p.link with
        | some j => if alone then a.editPaths [x.2.2, j] fun p => { p with link := none } else a
        | none => a
      let f := fun (a : Arch) => (off a).editPath x.2.2 fun p => if p.valid && p.state == .held then p.letGo (c.skips p) else p
      (s.setGroup x.1 x.2.1 (g.mapAll f)).trace x.1 x.2.1 x.2.2 3 0 p.pn

/-- MTS to a debug register of an unprivileged group. -/
def State.debugWrite (s : State) (core grp : Nat) (g : Group) (b : Nat) (v : DWord) : State :=
  let x := s.ctx g.vi
  let cx := (s.features core g).getLsbD 10
  match b with
  | 0x18 => s.setCtx g.vi { x with dbgctl := v &&& 0x3F3F }
  | 0x19 => s.setCtx g.vi { x with bkpc := v }
  | 0x1A =>
    let all := s.heldEntries g.vi
    (if v.getLsbD 24 then all else all.filter fun e => e == (bitsOf v 15 8, bitsOf v 7 0, bitsOf v 20 16)).foldl
      (fun s e => s.releaseEntry (!v.getLsbD 24) e) s
  | 0x1B =>
    let n := bitsOf v 4 0
    if n != 0 && (n < 7 || 20 < n) then s else s.setCtx g.vi { x with trcbase := v &&& 0x1FFFFFFFFFFF01F }
  | 0x1C =>
    let sel := bitsOf v 7 0
    let s := s.setGroup core grp { g with dbgsel := BitVec.ofNat 8 sel }
    if v.getLsbD 63 && sel ≤ 21 && sel != 20 then s.setCtx g.vi { x with counters := x.counters.put sel 0 } else s
  | 0x1D => if cx then s.setCtx g.vi { x with cxLo := v } else s
  | 0x1E => if cx then s.setCtx g.vi { x with cxHi := v } else s
  | 0x1F => if cx then s.setCtx g.vi { x with cxDelay := v.setWidth 16 } else s
  | _ => s

/-! ### MFS, MTS, DTIME (R387, R388) -/

/-- A privileged number (03 R75). -/
def sysPriv (b : BitVec 6) : Bool := b.toNat / 16 == 2

/-- The capability a group sees: all in privileged mode, else its interface's when its launch was accepted (14 R346, 18 R445). -/
def State.capsOf (s : State) (core : Nat) (g : Group) : BitVec 128 :=
  if isRanene core then Config.features else ((s.launch g).map (·.caps)).getD (s.caps g.vi)

/-- What MFS reads (Table 15-11). -/
def Ctx.sysRead (c : Ctx) (s : State) (b : Nat) : DWord :=
  let g := c.g
  let core := c.iss.core
  let priv := isRanene core
  let die := dieOfCore core
  match b with
  | 0x00 => (s.capsOf core g).setWidth 64
  | 0x01 => (s.capsOf core g >>> 64).setWidth 64
  | 0x02 => s.wid g
  | 0x03 => c.src.fcr
  | 0x04 => g.arch.fsr
  | 0x05 => c.src.dph.setWidth 64
  | 0x06 => BitVec.ofNat 64 g.vtClu
  | 0x07 => BitVec.ofNat 64 g.vtDev
  | 0x08 => BitVec.ofNat 64 g.vtSys
  | 0x09 => BitVec.ofNat 64 s.ns
  | 0x0A => BitVec.ofNat 64 c.iss.grp
  | 0x0B => BitVec.ofNat 64 (s.teamNumber g)
  | 0x0C => partReg core c.iss.grp
  | 0x0D => quotaWord g
  | 0x0E => g.arch.dirty
  | 0x0F => npathWord g.arch
  | 0x10 => if priv then g.wsel else 0
  | 0x11 => if priv then s.wstat core g else 0
  | 0x12 => BitVec.ofNat 64 (bitNat priv 0)
  | 0x13 => BitVec.ofNat 64 g.floor
  | 0x20 => BitVec.ofNat 64 die
  | 0x21 => (s.diesOf die).setWidth 64
  | 0x22 => s.mr (fqReg die 3)
  | 0x23 => s.mr (evqReg die 3)
  | 0x24 => s.mgmtStatus
  | b => if 0x18 ≤ b && b < 0x20 && !priv then s.debugRead g b else 0

/-- An MFS that acquires: of TRCN at dev scope (19 R466), and of the TAIL of the own die's fault or event queue (18 R434). -/
def Ctx.sysAcquires (c : Ctx) (b : BitVec 6) : Bool :=
  (b == 0x1C && c.g.dbgsel == 19 && !privMode c) || b == 0x22 || b == 0x23

/-- MFS of %fsr and %dirty waits for older posts. -/
def execMfs (q : Quals) (d b : BitVec 6) (s : State) : Host.Outcome State Fault Refusal :=
  runWith none (sysPriv b) s fun c s => (once q (fun c s => do
    if b == 0x04 || b == 0x0E then c.needIdle
    let x := c.sysRead s b.toNat
    let g := if c.sysAcquires b then c.g.raiseFloor s.ns else c.g
    .ok ({ c with g := g }.writeS s d x)) c s).map c.finish

/-- MTS writes fcr, fsr and dph of the group, %wsel, and the debug registers; it is ignored elsewhere but for the reserved
numbers, which trap. -/
def Ctx.sysWrite (c : Ctx) (s : State) (b : Nat) (x : DWord) : Except Stop State :=
  let a := c.g.arch
  let word := (c.iss.word.setWidth 64 : DWord)
  match b with
  | 0x03 =>
    if 5 ≤ bitsOf x 2 0 then .error (.trap (FaultInfo.withOperand causeIllegalEncoding word))
    else .ok (c.putArch s { a with fcr := x &&& 0x1F7 })
  | 0x04 => do
    c.needIdle
    .ok (c.putArch s { a with fsr := x &&& 0x1F0 })
  | 0x05 => .ok (c.putArch s { a with dph := x.setWidth 16 })
  | 0x10 => do
    if privMode c then
      c.needIdle
      .ok (c.put s (s.setWsel c.iss.core c.g x))
    else .ok s
  | b =>
    if 0x30 ≤ b then .error (.trap (FaultInfo.withOperand causePrivilege word))
    else if 0x18 ≤ b && b < 0x20 && !privMode c then do
      c.needIdle
      .ok (s.debugWrite c.iss.core c.iss.grp c.g b x)
    else .ok s

def execMts (q : Quals) (a b : BitVec 6) (s : State) : Host.Outcome State Fault Refusal :=
  runWith none (sysPriv b) s fun c s => (once q (fun c s => do
    let x ← c.s a
    c.sysWrite s b.toNat x) c s).map c.finish

/-- DTIME reads device time when everything older has retired and performed. -/
def execDtime (q : Quals) (d : BitVec 6) (s : State) : Host.Outcome State Fault Refusal :=
  runThen s <| once q fun c s => do
    c.needIdle
    .ok (c.writeS s d (BitVec.ofNat 64 s.ns))

/-! ### TLBI (R386) -/

/-- Accesses under an interface that are under way on some dies: translated, and not performed. A privileged group's are those
of the interface it translates under (15 R474). -/
def State.accessing (s : State) (dies : BitVec 4) (vi : Option Nat) : Bool :=
  let mine := fun (core v : Nat) => dies.getLsbD (dieOfCore core) && (vi.getD v == v)
  (s.groups.any fun x => mine (x.1 / 256) ((s.xltVi (x.1 / 256) x.2).getD x.2.vi) && x.2.rob.any fun e => e.reqs.any fun q =>
    q.stat != .done && (match q.tgt with
     | .line .. => true
     | .host _ => true
     | _ => false)) ||
  s.chans.any fun x => (x.2.out || !x.2.asked.isEmpty) && (match x.2.ops with
    | o :: _ => mine (x.1 / 8) o.vi
    | [] => false)

/-- A frame at H or M loses its translation where its page is covered: the next use walks again (R385). -/
def Arch.dropPages (a : Arch) (covers : PageMap → Bool) : Arch :=
  { a with v := a.v.map fun r => match r.page with
      | some pg => if covers pg then { r with page := none } else r
      | none => r }

/-- Matching translations of the caches of some dies are dropped, and those that frames hold. -/
def State.invalidate (s : State) (dies : BitVec 4) (hit : Tlb → Bool) (vi : Option Nat) (covers : PageMap → Bool) : State :=
  let dieOf := fun (p : Nat) => if 256 ≤ p then p - 256 else dieOfCore p
  let s := { s with tlb := s.tlb.filter fun t => !(dies.getLsbD (dieOf t.place) && hit t) }
  { s with groups := s.groups.map fun x =>
      let core := x.1 / 256
      if dies.getLsbD (dieOfCore core) && !isRanene core && vi.getD x.2.vi == x.2.vi then
        (x.1, x.2.mapAll fun a => a.dropPages covers)
      else x }

/-- The dies a TLBI covers: the caller's, or those of its partition and, where its die is quiesced, every quiesced one (R386, 18
R441). -/
def State.tlbiDies (s : State) (core : Nat) (sc : BitVec 3) : BitVec 4 :=
  let d := dieOfCore core
  if sc.toNat == 4 then oneDie d
  else s.diesOf (s.partOfCore core) ||| (if s.mgmt.qdies.getLsbD d then s.mgmt.qdies else 0)

def execTlbi (g : BitVec 3) (a b : BitVec 6) (m : MemX) (s : State) : Host.Outcome State Fault Refusal :=
  runWith none true s fun c s => do
    if c.active (quals g) == 0 then .ok (c.finish s)
    else
      let va ← c.s a
      let sel ← c.s b
      require (bitsOf sel 63 10 == 0 && bitsOf sel 7 6 == 0)
        (FaultInfo.withOperand causeIllegalEncoding (c.iss.word.setWidth 64))
      c.needIdle
      c.releaseFirst s 2 m.sc
      let v := bitsOf sel 5 0
      let dies := s.tlbiDies c.iss.core m.sc
      let all := sel.getLsbD 9
      let one := !all && !sel.getLsbD 8
      let page := va.toNat / 4096 * 4096
      let holds := fun (first size : Nat) => !one || (first ≤ page && page < first + size)
      let hit := fun (t : Tlb) => all || (t.vi == v && holds t.va t.size)
      let vi := if all then none else some v
      let s := s.invalidate dies hit vi fun p => holds p.va p.size
      .ok (if s.accessing dies vi then c.block s (.flushed dies vi) else c.finish s)

/-! ### The window (R379, R380, R390) -/

/-- An item of the selected group: the error code and its value. -/
def winItem (h : Group) (i : Nat) : BitVec 4 × DWord :=
  let a := h.arch
  if i < 0x40 then (0, a.sreg (BitVec.ofNat 6 i))
  else if i < 0x80 then (0, (a.preg (BitVec.ofNat 6 (i - 0x40))).setWidth 64)
  else if i < 0x880 then (0, ((a.vreg ((i - 0x80) / 32)).lane ((i - 0x80) % 32)).setWidth 64)
  else if i < 0x8C0 then (0, mapWord a (i - 0x880))
  else match i with
    | 0x8C0 => (0, a.fcr)
    | 0x8C1 => (0, a.fsr)
    | 0x8C2 => (0, a.dph.setWidth 64)
    | 0x8C3 => (0, a.dirty)
    | 0x8C4 => (0, quotaWord h)
    | 0x8C5 => (0, npathWord a)
    | 0x8C6 => (0, BitVec.ofNat 64 h.floor)
    | i => if 0x1000 ≤ i && i < 0x2000 then (0, (a.path ((i - 0x1000) / 0x80)).word ((i - 0x1000) / 0x80) (i % 0x80)) else (1, 0)

/-- A write of a v word through the window (R380). -/
def Group.winWriteV (h : Group) (n l : Nat) (x : DWord) : BitVec 4 × Group :=
  let r := h.arch.vreg n
  if h.lq ≤ n && r.place == .l then (4, h)
  else
    let old := if h.arch.dirty.getLsbD n then r.lanes else Vector.replicate 32 0
    let a := h.arch.setV n { r with lanes := old.setIfInBounds l (x.setWidth 32), prods := [] }
    (0, { h with arch := { a with dirty := a.dirty ||| ((1 : BitVec 64) <<< n) } })

/-- A write of a word of a path entry: words 1, 3, 4, 5 and EM while it is SIDING. -/
def Group.winWritePath (h : Group) (e w : Nat) (x : DWord) : BitVec 4 × Group :=
  let p := h.arch.path e
  let put := fun (p : Path) => ((0 : BitVec 4), { h with arch := h.arch.setPath e p })
  if !p.valid || p.state != .siding then (2, h)
  else match w with
    | 1 => put { p with pn := x, slot := 0 }
    | 2 =>
      let em : Mask := x.extractLsb' 32 32
      if em &&& ~~~ p.mask != 0 then (7, h) else put { p with em := em }
    | 3 => put { p with map := mapOfNat (p.mapNat / 2 ^ 64 * 2 ^ 64 + x.toNat) }
    | 4 => put { p with map := mapOfNat (p.mapNat % 2 ^ 64 + x.toNat % 2 ^ 32 * 2 ^ 64) }
    | 5 => put { p with spil := if x.getLsbD 12 then some (bitsOf x 11 8) else none, cause := x.setWidth 8 }
    | _ => (2, h)

/-- A write of an item: the error code and the group. -/
def Group.winWrite (h : Group) (i : Nat) (x : DWord) : BitVec 4 × Group :=
  let a := h.arch
  if i < 0x40 then (0, { h with arch := a.setS (BitVec.ofNat 6 i) x })
  else if i < 0x80 then
    (if i == 0x40 then (2, h) else (0, { h with arch := a.setP (BitVec.ofNat 6 (i - 0x40)) 0xFFFFFFFF (x.setWidth 32) }))
  else if i < 0x880 then h.winWriteV ((i - 0x80) / 32) ((i - 0x80) % 32) x
  else match i with
    | 0x8C0 => if 5 ≤ bitsOf x 2 0 then (7, h) else (0, { h with arch := { a with fcr := x &&& 0x1F7 } })
    | 0x8C1 => (0, { h with arch := { a with fsr := x &&& 0x1F0 } })
    | 0x8C2 => (0, { h with arch := { a with dph := x.setWidth 16 } })
    | i =>
      if i < 0x8C7 then (2, h)
      else if 0x1000 ≤ i && i < 0x2000 then h.winWritePath ((i - 0x1000) / 0x80) (i % 0x80) x
      else (1, h)

def execWinrd (q : Quals) (d a : BitVec 6) (s : State) : Host.Outcome State Fault Refusal :=
  runPriv s <| once q fun c s => do
    let i ← c.s a
    c.needIdle
    let (e, x) := match s.selected c.iss.core c.g with
      | none => ((6 : BitVec 4), (0 : DWord))
      | some (_, _, h) => if c.g.held then winItem h i.toNat else (3, 0)
    .ok ({ c with g := { c.g with werr := e } }.writeS s d x)

def execWinwr (q : Quals) (a b : BitVec 6) (s : State) : Host.Outcome State Fault Refusal :=
  runPriv s <| once q fun c s => do
    let i ← c.s a
    let x ← c.s b
    c.needIdle
    match s.selected c.iss.core c.g with
    | none => .ok (c.put s { c.g with werr := 6 })
    | some (core, grp, h) =>
      if !c.g.held then .ok (c.put s { c.g with werr := 3 })
      else
        let (e, h) := h.winWrite i.toNat x
        .ok (c.put (s.setGroup core grp h) { c.g with werr := e })

/-! ### RESUME (R391) -/

/-- How many words the instruction at a resume point has, and whether its packet ends the run; one where it cannot be
read. -/
def State.wordsAt (s : State) (core : Nat) (g : Group) (pn : DWord) (slot : Nat) : Nat × Bool :=
  match s.codeRaw core g pn with
  | .error _ => (1, false)
  | .ok (l, _) =>
    let w := fun (j : Nat) => (packetOfLine l pn).toList.getD j 0
    (if slot < 2 && (w slot).getLsbD 31 && isExt (w (slot + 1)) then 2 else 1, (w 2).getLsbD 31)

/-- The entries of a SIDING stream become READY at, or past, their resume point. -/
def State.letResume (s : State) (core grp : Nat) (h : Group) (es : List Nat) (skip : Bool) : State :=
  let x := s.ctx h.vi
  let go := fun (p : Path) =>
    if !(p.valid && p.state == .siding) then p
    else if skip then
      let (n, cut) := s.wordsAt core h p.pn p.slot
      (p.past n cut).letGo .none
    else { p.letGo (x.skips p) with spil := p.spil }
  s.setGroup core grp (h.mapAll fun a => a.editPaths es go)

/-- The lanes of a SIDING stream exit (R339). -/
def State.killEntries (s : State) (core grp : Nat) (h : Group) (es : List Nat) : State :=
  let f := fun (a : Arch) =>
    let out := es.filter fun i => (a.path i).valid && (a.path i).state == .siding
    (out.foldl (fun (a : Arch) i => a.freePath i) a).mergeJoins (out.map fun i => (a.path i).peerSet)
  (s.setGroup core grp (h.mapAll f)).endGroup core grp

def execResume (q : Quals) (a : BitVec 6) (s : State) : Host.Outcome State Fault Refusal :=
  runPriv s <| once q fun c s => do
    let x ← c.s a
    c.needIdle
    let fail := fun (e : BitVec 4) => (Except.ok (c.put s { c.g with werr := e }) : Except Stop State)
    let done := fun (s : State) => (c.put s { c.g.dropHold true with werr := 0 })
    match s.selected c.iss.core c.g with
    | none => fail 6
    | some (core, grp, h) =>
      let mode := x.toNat % 4
      if mode == 3 then
        match h.team, s.team h with
        | some k, some t => .ok (done (s.killTeam k t))
        | _, _ => fail 6
      else
        let i := bitsOf c.g.wsel 20 16
        let p := h.arch.path i
        if !p.valid || p.state != .siding then fail 5
        else
          let es := h.arch.stream i
          let s := s.trace core grp i 5 mode p.pn
          let h := (s.group core grp).getD h
          .ok (done (if mode == 2 then s.killEntries core grp h es else s.letResume core grp h es (mode == 1)))

end Sys2Proof.Machine
end

