-- ==== Sys2Proof/Machine/Protocol.lean ====
section
/-!
DEFINITION. PTLOAD (05 R127 to R129) and BIAS (17 R427).
-/
namespace Sys2Proof.Machine

/-- n bytes of the management window from an offset on, registers and memory alike; none where a memory line is
poisoned. -/
def State.windowBytes (s : State) (off n : Nat) : Option (List Byte) :=
  let lines := (List.range (n / 128 + 2)).map fun i => off / 128 * 128 + 128 * i
  if lines.any fun l => isMgmtMem l && l < off + n && (s.cellLine (mgmtCell l)).2 then none
  else some ((List.range (n / 8)).flatMap fun i =>
    let o := off + 8 * i
    if isMgmtMem o then s.readBytes (mgmtCell o) 8 else bytesOfNat 8 (s.regRead o).toNat)

/-- The image bytes at an address. -/
def State.imageAt (s : State) (a : DWord) : Option (List Byte) :=
  if a.toNat % 64 != 0 || addrClass a != 0xFF3 || 2 ^ 52 < a.toNat % 2 ^ 52 + imageBytes then none
  else s.windowBytes (a.toNat % 2 ^ 52) imageBytes

/-- PTLOAD into a slot: the machine and the result; loads into slots 6 and 7 are measured (18 R457). -/
def State.loadImage (s : State) (slot : Nat) (bytes : Option (List Byte)) : State × Nat :=
  match bytes with
  | none => (s, 12)
  | some bs =>
    let code := s.checkImage slot bs
    if code != 0 then (s, code)
    else
      let s := s.installImage slot bs
      (if 6 ≤ slot then s.measure 3 (BitVec.ofNat 8 slot :: bs) else s, 0)

def execPtload (q : Quals) (d a b : BitVec 6) (s : State) : Host.Outcome State Fault Refusal :=
  runPriv s <| once q fun c s => do
    let x ← c.s a
    c.needIdle
    let (s, code) := s.loadImage (b.toNat % 8) (s.imageAt x)
    .ok (c.writeS s d (BitVec.ofNat 64 code))

/-- BIAS: it waits for a flip of the page, and for the end of the one it starts. -/
def execBias (q : Quals) (d a : BitVec 6) (s : State) : Host.Outcome State Fault Refusal :=
  runWith none true s fun c s => do
    if c.active q == 0 then .ok (c.finish s)
    else
      let x ← c.s a
      let part := s.partOfCore c.iss.core
      let page := bitsOf x 40 12
      let result := fun (s : State) (n : Nat) => (Except.ok (c.finish (c.writeS s d (BitVec.ofNat 64 n))) : Except Stop State)
      c.needIdle
      if bitsOf x 63 41 != 0 || (s.windowOf part page).isNone then result s 1
      else if !s.lineHcoh (page * 4096) then result s 2
      else
        let b := s.bias part page
        let mine := (c.g.arch.path c.iss.ent).wait == some (.flip part page true)
        if (s.flipOf part page).isSome then .error (.wait (.flip part page mine))
        else if mine then result s 0
        else if 2 ≤ b then .ok (c.block (s.startFlip part page (b == 2)) (.flip part page false))
        else if b == bitNat (x.getLsbD 1) 0 then result s 0
        else .ok (c.block (s.startFlip part page (x.getLsbD 1)) (.flip part page true))

end Sys2Proof.Machine
end

