-- ==== Sys2Proof/Machine/Gather.lean ====
section
/-!
DEFINITION. Pre-emption: the context gather and the restore (15 R393 to R396), CTXSV and CTXRS.
-/
namespace Sys2Proof.Machine

/-! ### The image (R394) -/

/-- A little-endian field. -/
def le (n x : Nat) : List Byte := bytesOfNat n x

/-- Zeros. -/
def pad (n : Nat) : List Byte := List.replicate n 0

/-- OP, F and D of the word at a resume point; zero where it cannot be read. -/
def State.wordAt (s : State) (core : Nat) (g : Group) (pn : DWord) (slot : Nat) : Word :=
  match s.codeRaw core g pn with
  | .error _ => 0
  | .ok (l, _) => (packetOfLine l pn).toList.getD slot 0

/-- The bits of %fcr and %fsr that are not zero fields (02 R39, R40). -/
def fcrMask : DWord := 0x1F7
def fsrMask : DWord := 0x1F0

/-- BSYNC of a barrier (14 Table 14-10). -/
def bsyncOf (w : Word) : Option Nat :=
  if w.extractLsb' 25 6 == 0x37 && w.extractLsb' 0 4 == 3 then some (w.extractLsb' 16 6).toNat else none

/-- A path entry as it is saved: one whose barrier wait has ended, its BSYNC or BWAIT not having moved on yet, is past
the instruction. -/
def Path.atSave (p : Path) (s : State) (core : Nat) (g : Group) : Path :=
  match p.wait with
  | some (.passed _) =>
    let (n, cut) := s.wordsAt core g p.pn p.slot
    { p.past n cut with state := .ready }
  | _ => p

/-- A path entry's bytes (Table 15-7). -/
def Path.bytes (p : Path) (i : Nat) : List Byte :=
  (List.range (8 + p.jstack.length)).flatMap fun w => le 8 (p.word i w).toNat

/-- A register's bytes, with its tags where it is at M. -/
def VReg.bytes (r : VReg) : List Byte :=
  ((List.range 32).flatMap fun l => le 4 (r.lane l).toNat) ++
    if r.place == .m then (List.range 8).flatMap fun j => le 32 ((r.tags.getD j 0).toNat) else []

/-- The names whose %dirty bit is set. -/
def dirtyNames (d : BitVec 64) : List Nat := (List.range 64).filter fun n => d.getLsbD n

/-- A group image (Table 15-13). -/
def State.groupImage (s : State) (core : Nat) (g : Group) : List Byte :=
  let a := g.arch
  let head := fun (np nr size : Nat) => le 2 g.gidx ++ le 1 np ++ le 1 nr ++ le 4 size ++ le 8 (quotaWord g).toNat ++
    le 8 a.fcr.toNat ++ le 8 a.fsr.toNat ++ le 8 a.dph.toNat ++ le 8 a.dirty.toNat ++ le 8 (bitNat g.ended 0) ++
    le 8 (max g.vtClu (max g.vtDev g.vtSys))
  if g.ended then head 0 0 0x40
  else
    let paths := a.valid.flatMap fun i => ((a.path i).atSave s core g).bytes i
    let regs := (dirtyNames a.dirty).flatMap fun n => (a.vreg n).bytes
    let body := ((List.range 64).flatMap fun n => le 8 (a.sreg (BitVec.ofNat 6 n)).toNat) ++
      ((List.range 64).flatMap fun n => le 4 (a.preg (BitVec.ofNat 6 n)).toNat) ++
      ((List.range 64).flatMap fun n => le 8 (mapWord a n).toNat) ++ paths ++ regs
    head a.valid.length (dirtyNames a.dirty).length (0x40 + body.length) ++ body

def Coupling.bytes (x : Coupling) : List Byte :=
  le 1 (bitNat x.opened 0 + bitNat x.closed 1 + bitNat x.defer 2) ++ le 1 x.prod ++ le 1 x.cons ++ le 1 0 ++
    le 2 x.depth ++ le 2 x.allow ++ le 2 x.occ ++ le 2 x.ret ++ pad 4

def Barrier.bytes (x : Barrier) : List Byte :=
  le 2 x.count ++ le 2 x.arr ++ le 1 (bitNat x.phase 0) ++ pad 3 ++ le 4 x.arrived.toNat ++ le 4 x.last.toNat

def Channel.bytes (x : Channel) : List Byte :=
  le 8 x.issued ++ le 8 x.completed ++ le 8 x.wp.toNat ++ le 8 (match x.latch with
    | some (op, c, more) => op % 2 ^ 48 + c.toNat * 2 ^ 48 + bitNat more 56
    | none => 0)

/-- The slots that groups of a team own: partition, slot, group index. -/
def State.teamSlots (s : State) (t : Team) : List (Nat × Nat × Nat) :=
  (List.range 8).flatMap fun p => (List.range 64).filterMap fun o =>
    match (s.slot t.core p o).owner with
    | some n => if partOf t.core n == p then (t.groups.findIdx? (· == n)).map fun i => (p, o, i) else none
    | none => none

def Slot.bytes (x : Slot) : List Byte :=
  le 256 x.tile.toNat ++ le 64 x.side.toNat ++ le 1 x.tag.toNat ++ le 1 (bitNat x.present 0) ++ pad 62

/-- The bytes of a SCRATCH bank. -/
def bankBytes : Nat := 98304

/-- The team state (Table 15-14). -/
def State.teamState (s : State) (t : Team) : List Byte :=
  let own := s.teamSlots t
  let owner := fun (p o : Nat) => match own.find? fun x => x.1 == p && x.2.1 == o with
    | some x => x.2.2 + 1
    | none => 0
  let chans := (List.range 8).flatMap fun k => match t.chans[k]? with
    | some n => (s.chan t.core n).bytes
    | none => pad 32
  let handles := t.qs.flatMap fun x =>
    if x.opened then (x.handles.flatMap fun h => le 4 h.toNat) ++ pad ((16 - 4 * x.occ % 16) % 16) else []
  t.qs.flatMap Coupling.bytes ++ t.bars.flatMap Barrier.bytes ++ chans ++
    ((List.range 8).flatMap fun p => (List.range 64).map fun o => BitVec.ofNat 8 (owner p o)) ++ handles ++
    (own.flatMap fun x => (s.slot t.core x.1 x.2.1).bytes) ++
    t.scr.flatMap fun b => s.readBytes (scratchCell (clusterOfCore t.core) b 0) bankBytes

/-- The image of a team (Table 15-12). -/
def State.teamImage (s : State) (t : Team) (h : Header) : List Byte :=
  let gs := t.groups.flatMap fun n => match s.group t.core n with
    | some g => s.groupImage t.core g
    | none => []
  let st := s.teamState t
  le 4 0x47435459 ++ le 2 1 ++ le 2 t.groups.length ++ le 8 (0x100 + gs.length + st.length) ++ le 8 t.launch ++
    le 4 t.t ++ le 1 t.vi ++ pad 3 ++ le 8 t.core ++ le 8 0x100 ++ le 8 (0x100 + gs.length) ++ le 8 s.ns ++ h.res ++
    pad 128 ++ gs ++ st

/-! ### The gather (R393) -/

/-- Every group is drained, every LDO, pass and copy of the team is over, and what its copies wrote is visible (12 R309: the
image has no place for the times of a channel; log 58). -/
def State.teamSettled (s : State) (t : Team) : Bool :=
  (t.groups.all fun n => match s.group t.core n with
    | some g => (if g.ended then g.idle else s.quiet t.core n g) &&
        !((s.part t.core (partOf t.core n)).mtx.any fun x => x.grp == n)
    | none => true) && t.chans.all fun n => (s.chan t.core n).ops.isEmpty && (s.chan t.core n).vtDev ≤ s.ns

/-- A channel of the team holds an operation stopped by a fault. -/
def State.teamStopped (s : State) (t : Team) : Bool := t.chans.any fun n => (s.chan t.core n).stopped.isSome

/-- A stream of a Ranene group gathers this team. -/
def State.gathering (s : State) (k : Nat) : Bool :=
  s.groups.any fun x => isRanene (x.1 / 256) && !x.2.ended &&
    x.2.arch.valid.any fun i => (x.2.arch.path i).wait == some (.gathered k)

/-- A Ranene group other than this one holds a group of the team. -/
def State.heldByOthers (s : State) (t : Team) (self : Nat) : Bool :=
  t.groups.any fun n => (s.holders t.core n).any fun x => x.1 != self

/-- Stopped operations are aborted (R154). -/
def State.abortStopped (s : State) (t : Team) : State :=
  t.chans.foldl (fun s n => match (s.chan t.core n).stopped with
    | some c => s.abortCopy t.core n c
    | none => s) s

/-- Management memory is written; the lines it covers whole are no longer poisoned. -/
def State.mgmtPut (s : State) (off : Nat) (bs : List Byte) : State :=
  let s := s.writeBytes (mgmtCell off) bs
  { s with poison := s.poison.filter fun c => !(mgmtCell off ≤ c && c + 128 ≤ mgmtCell (off + bs.length)) }

/-- The answer of a failure. -/
def gatherFail (code : Nat) : DWord := BitVec.ofNat 64 (2 ^ 63 + code)

/-- The image is written and the team's resources are freed, or the team goes on (R396). -/
def State.saveTeam (s : State) (k : Nat) (t : Team) (h : Header) (a cap : DWord) : State × DWord :=
  let img := s.teamImage t h
  if cap.toNat < img.length then (s, gatherFail 4)
  else
    match mgmtOff a img.length with
    | none => (s, gatherFail 3)
    | some off => ((s.mgmtPut off img).freeTeam k t, BitVec.ofNat 64 img.length)

def execCtxsv (q : Quals) (d a b : BitVec 6) (s : State) : Host.Outcome State Fault Refusal :=
  runWith none true s fun c s => do
    if c.active q == 0 then .ok (c.finish s)
    else
      let x ← c.s a
      let cap ← c.s b
      c.needIdle
      let self := groupKey c.iss.core c.iss.grp
      let memo := match (c.g.arch.path c.iss.ent).wait with
        | some (.gathered k) => some k
        | _ => none
      let answer := fun (c : Ctx) (s : State) (r : DWord) => (Except.ok (c.finish (c.writeS s d r)) : Except Stop State)
      match memo with
      | none =>
        match (s.selected c.iss.core c.g).bind fun x => x.2.2.team.bind fun k => (s.teams.find k).map fun t => (k, t) with
        | none => answer c s (gatherFail 1)
        | some (k, t) =>
          if s.teamStopped t then answer c s (gatherFail 2)
          else if x.toNat % 128 != 0 || (mgmtOff x 1).isNone then answer c s (gatherFail 3)
          else
            let c := { c with g := c.g.dropHold true }
            let s := c.put s c.g
            .ok (c.block s (if s.heldByOthers t self || s.gathering k then .unheld k else .gathered k))
      | some k =>
        match s.teams.find k with
        | none => answer c s (gatherFail 1)
        | some t =>
          let s := s.abortStopped t
          match (s.ctx t.vi).launch t.launch with
          | none => answer c s (gatherFail 1)
          | some l =>
            if !s.teamSettled t then .ok (c.block s (.gathered k))
            else
              let (s, r) := s.saveTeam k t l.hdr x cap
              answer c s r

/-! ### The restore (R395) -/

/-- What a restore reads from the header of an image. -/
structure ImageHead where
  ngrp : Nat
  size : Nat
  launch : Nat
  t : Nat
  vi : Nat
  soff : Nat
  time : Nat
  deriving DecidableEq, Repr

/-- The header, where MAGIC, VERSION and GOFF are right. -/
def ImageHead.ofBytes (bs : List Byte) : Option ImageHead :=
  let f := fieldOf bs
  if f 0 4 != 0x47435459 || f 4 2 != 1 || f 0x28 8 != 0x100 then none
  else some ⟨f 6 2, f 8 8, f 0x10 8, f 0x18 4, f 0x1C 1, f 0x30 8, f 0x38 8⟩

/-- The group images of an image, by their SIZE. -/
def groupImages : Nat → List Byte → List (List Byte)
  | 0, _ => []
  | n + 1, bs => let k := fieldOf bs 4 4; bs.take k :: groupImages n (bs.drop k)

/-- The bytes a group image should have. -/
def groupLength (bs : List Byte) : Nat :=
  let f := fieldOf bs
  if f 0x30 8 % 2 == 1 then 0x40
  else
    let paths := (List.range (f 2 1)).foldl (fun o _ => o + 64 + 8 * (f o 8 / 2 ^ 12 % 128)) 0x540
    (dirtyNames (BitVec.ofNat 64 (f 0x28 8))).foldl (fun o n => o + if f (0x340 + 8 * n) 8 % 4 == 3 then 384 else 128) paths

def Coupling.ofBytes (bs : List Byte) (handles : List Word) : Coupling :=
  let f := fieldOf bs
  { opened := f 0 1 % 2 == 1, closed := f 0 1 / 2 % 2 == 1, defer := f 0 1 / 4 % 2 == 1, prod := f 1 1, cons := f 2 1,
    depth := f 4 2, allow := f 6 2, ret := f 10 2, handles := handles, stored := f 0 1 % 2 == 1 }

def Barrier.ofBytes (bs : List Byte) : Barrier :=
  let f := fieldOf bs
  ⟨f 0 2, f 2 2, f 4 1 % 2 == 1, BitVec.ofNat 32 (f 8 4), BitVec.ofNat 32 (f 12 4)⟩

/-- Entry i of a table of equal records. -/
def record (bs : List Byte) (off size i : Nat) : List Byte := (bs.drop (off + size * i)).take size

/-- The handles of each coupling, and where they end. -/
def handlesOf (st : List Byte) : List (List Word) × Nat :=
  (List.range 16).foldl (fun (p : List (List Word) × Nat) i =>
    let r := record st 0 16 i
    let n := if fieldOf r 0 1 % 2 == 1 then fieldOf r 8 2 else 0
    (p.1 ++ [(List.range n).map fun j => BitVec.ofNat 32 (fieldOf st (p.2 + 4 * j) 4)], p.2 + (4 * n + 15) / 16 * 16))
    ([], 0x500)

/-- The slots of a team state: partition, slot, owning group index. -/
def slotsOf (st : List Byte) : List (Nat × Nat × Nat) :=
  (List.range 8).flatMap fun p => (List.range 64).filterMap fun o =>
    match fieldOf st (0x300 + 64 * p + o) 1 with
    | 0 => none
    | i + 1 => some (p, o, i)

def stateLength (st : List Byte) (scrb : Nat) : Nat := (handlesOf st).2 + 384 * (slotsOf st).length + bankBytes * scrb

/-- SIZE agrees with what the image holds. -/
def ImageHead.sized (h : ImageHead) (bs : List Byte) (scrb : Nat) : Bool :=
  let gs := groupImages h.ngrp (bs.drop 0x100)
  (gs.all fun g => 0x40 ≤ g.length && g.length == groupLength g) && h.soff == 0x100 + (gs.map List.length).foldl (· + ·) 0 &&
    h.size == h.soff + stateLength (bs.drop h.soff) scrb

/-- A path entry of an image; IDX is its index. -/
def Path.ofBytes (bs : List Byte) (clk : Nat) : Nat × Path :=
  let f := fieldOf bs
  let w := f 0 8
  let n := w / 2 ^ 12 % 128
  let st : PState := match w / 2 % 8 with
    | 0 => .ready | 1 => .blocked | 2 => .joinWait | 3 => .siding | _ => .held
  (w / 2 ^ 21 % 32,
   { Path.none with
     valid := true, state := st, pn := BitVec.ofNat 64 (f 8 8), slot := w / 2 ^ 19 % 4,
     mask := BitVec.ofNat 32 (f 16 4), em := BitVec.ofNat 32 (f 20 4),
     jstack := ((List.range n).map fun i => BitVec.ofNat 64 (f (64 + 8 * i) 8)).reverse,
     meld := w / 16 % 2 == 1, side := w / 32 % 2 == 1,
     link := if w / 2 ^ 11 % 2 == 1 then some (w / 2 ^ 6 % 32) else .none,
     map := mapOfNat (f 24 16), run := w / 2 ^ 26 % 16, cause := BitVec.ofNat 8 (f 40 1),
     spil := if f 40 8 / 2 ^ 12 % 2 == 1 then some (f 40 8 / 2 ^ 8 % 16) else .none, since := clk, used := clk })

/-- The saved entry becomes issuable in its state: a BLOCKED one waits again at its instruction, a BSYNC that has
arrived without arriving again; a JOINWAIT one at the JOIN or JOINM it is at. -/
def Path.again (p : Path) (s : State) (core : Nat) (g : Group) (bars : List Barrier) : Path :=
  let w := s.wordAt core g p.pn p.slot
  match p.state with
  | .blocked =>
    match bsyncOf w with
    | some b => if (bars.getD b Barrier.zero).arrived.getLsbD g.gidx then { p with wait := some (Wait.barrier b) }
      else { p with state := .ready }
    | .none => { p with state := .ready }
  | .joinWait => { p with wait := some (Wait.join (w.extractLsb' 25 6 == 5 && w.extractLsb' 0 4 == 1)) }
  | _ => p

/-- Where each dirty register's value lies in a group image. -/
def regOffsets (bs : List Byte) : List (Nat × Nat) :=
  let f := fieldOf bs
  let start := (List.range (f 2 1)).foldl (fun o _ => o + 64 + 8 * (f o 8 / 2 ^ 12 % 128)) 0x540
  ((dirtyNames (BitVec.ofNat 64 (f 0x28 8))).foldl (fun (p : List (Nat × Nat) × Nat) n =>
    (p.1 ++ [(n, p.2)], p.2 + if f (0x340 + 8 * n) 8 % 4 == 3 then 384 else 128)) ([], start)).1

/-- A register of a group image, still at L. -/
def VReg.ofImage (bs : List Byte) (atM : Bool) (o : Option Nat) : VReg :=
  match o with
  | none => { VReg.zero with tags := if atM then List.replicate 8 0 else [] }
  | some o =>
    { VReg.zero with
      lanes := Vector.ofFn fun l => BitVec.ofNat 32 (fieldOf bs (o + 4 * l.val) 4)
      tags := if atM then (List.range 8).map fun j => BitVec.ofNat 256 (fieldOf bs (o + 128 + 32 * j) 32) else [] }

/-- A group of an image, its registers still at L, its paths as saved; the core holds eight of its entries (13 R312). -/
def Group.ofImage (bs : List Byte) (k vi time clk : Nat) : Group :=
  let f := fieldOf bs
  let vt := max time (f 0x38 8)
  let quota := f 8 8
  let ended := f 0x30 8 % 2 == 1
  let g : Group :=
    { Group.priv 0 with team := some k, gidx := f 0 2, vi := vi, lq := quota % 256, kq := quota / 2 ^ 8 % 256,
                        hq := quota / 2 ^ 16 % 256, mq := quota / 2 ^ 24 % 256, vtClu := vt, vtDev := vt, vtSys := vt,
                        floor := time, ended := ended }
  let none' : Arch := { Arch.start 0 with paths := Vector.replicate 32 Path.none }
  if ended then { g with arch := none' }
  else
    let offs := regOffsets bs
    let paths := ((List.range (f 2 1)).foldl (fun (p : Arch × Nat) _ =>
      let n := 64 + 8 * (f p.2 8 / 2 ^ 12 % 128)
      let (i, e) := Path.ofBytes ((bs.drop p.2).take n) clk
      (p.1.insertPath i e, p.2 + n)) (none', 0x540)).1.paths
    { g with arch :=
        { v := Vector.ofFn fun n => VReg.ofImage bs (f (0x340 + 8 * n.val) 8 % 4 == 3) ((offs.find? fun x => x.1 == n.val).map (·.2))
          s := Vector.ofFn fun n => if n.val == 0 then 0 else BitVec.ofNat 64 (f (0x40 + 8 * n.val) 8)
          sPend := []
          p := Vector.ofFn fun n => if n.val == 0 then 0xFFFFFFFF else BitVec.ofNat 32 (f (0x240 + 4 * n.val) 4)
          fcr := BitVec.ofNat 64 (f 0x10 8) &&& fcrMask, fsr := BitVec.ofNat 64 (f 0x18 8) &&& fsrMask, dph := BitVec.ofNat 16 (f 0x20 8)
          dirty := BitVec.ofNat 64 (f 0x28 8)
          paths := paths } }

/-- Register n of a restored group goes to its saved place: a new frame at K, the anchor's at H and M. -/
def State.placeReg (s : State) (core grp : Nat) (w : DWord) (n : Nat) : Except Nat State :=
  match s.group core grp with
  | none => .ok s
  | some g =>
    let r := g.arch.vreg n
    let full := Except.error (7 + n * 2 ^ 8)
    let put := fun (p : Place) (a : DWord) (dpa : Nat) (pg : Option PageMap) =>
      (Except.ok (s.setGroup core grp
        { g with arch := g.arch.setV n { r with place := p, anchor := a, dpa := dpa, page := pg } }) : Except Nat State)
    let far := fun (p : Place) (most : Nat) =>
      let a := BitVec.ofNat 64 (w.toNat % 2 ^ 56 / 2 ^ 7 * 2 ^ 7)
      match s.anchor core g p a with
      | .error _ => .error (8 + n * 2 ^ 8)
      | .ok (dpa, pg) =>
        if g.quotaOf p ≤ Group.count g p || most ≤ s.framesUsed p (s.anchorSite (s.partOfCore core) p dpa) then full
        else put p a dpa (some pg)
    match w.toNat % 4 with
    | 0 => .ok s
    | 1 =>
      if g.quotaOf .k ≤ Group.count g .k then full
      else match s.freeFrame g with
        | some a => put .k a 0 none
        | none => full
    | 2 => far .h 4096
    | _ => far .m 16

/-- The groups become resident with the numbers picked, each register at its place. -/
def State.placeGroups (s : State) (core k vi time : Nat) (gs : List (Nat × List Byte)) : Except Nat State :=
  gs.foldlM (fun s (x : Nat × List Byte) => do
    let g := Group.ofImage x.2 k vi time s.clk
    let s := s.setGroup core x.1 g
    if g.ended then .ok s
    else (List.range 64).foldlM (fun s n => s.placeReg core x.1 (BitVec.ofNat 64 (fieldOf x.2 (0x340 + 8 * n) 8)) n) s) s

/-- The team's own state is restored: channels, slots, SCRATCH banks. -/
def State.restoreTeam (s : State) (k : Nat) (t : Team) (st : List Byte) : State :=
  let (hs, at') := handlesOf st
  let own := slotsOf st
  let t := { t with qs := (List.range 16).map fun i => Coupling.ofBytes (record st 0 16 i) (hs.getD i [])
                    bars := (List.range 16).map fun i => Barrier.ofBytes (record st 0x100 16 i) }
  let s := { s with teams := s.teams.put k t }
  let s := t.chans.zipIdx.foldl (fun s x =>
    let r := fieldOf (record st 0x200 32 x.2)
    s.setChan t.core x.1 { Channel.zero with
      team := some k, name := x.2, issued := r 0 8, completed := r 8 8, wp := BitVec.ofNat 64 (r 16 8),
      latch := if r 24 8 == 0 then none else some (r 24 6, BitVec.ofNat 8 (r 30 1), r 31 1 % 2 == 1) }) s
  let s := own.zipIdx.foldl (fun s (x : (Nat × Nat × Nat) × Nat) =>
    let r := fieldOf (record st at' 384 x.2)
    s.setSlot t.core x.1.1 x.1.2.1
      { tile := BitVec.ofNat 2048 (r 0 256), side := BitVec.ofNat 512 (r 256 64), owner := t.groups[x.1.2.2]?,
        present := r 321 1 % 2 == 1, tag := BitVec.ofNat 2 (r 320 1), pend := 0 }) s
  t.scr.zipIdx.foldl (fun s x =>
    s.writeBytes (scratchCell (clusterOfCore t.core) x.1 0) (record st (at' + 384 * own.length) bankBytes x.2)) s

/-- The restored paths wait again, and each sided entry posts a new record. -/
def State.wakeGroup (s : State) (core grp : Nat) (bars : List Barrier) : State :=
  match s.group core grp with
  | none => s
  | some g =>
    let a := g.arch.editPaths g.arch.valid fun p => p.again s core g bars
    let a := a.mergeJoins (a.valid.map fun i => (a.path i).peerSet)
    let g := { g with arch := a }
    (a.valid.filter fun i => (a.path i).state == .siding).foldl (fun s i =>
      let p := a.path i
      s.putRecord core grp (faultRecord s core grp g (FaultInfo.ofCause p.cause) i p false true 0 p.pn p.slot))
      (s.setGroup core grp g)

/-- The banks that a residency would take from CACHE are emptied first: the first one that cannot be yet. -/
def State.emptyBanks (s : State) (c : Nat) (bs : List Nat) : State × Option Nat :=
  bs.foldl (fun (p : State × Option Nat) b =>
    if p.2.isSome || ((p.1.cluster c).banks.getD b Bank.zero).mode != .cache then p
    else
      let (s, clear) := p.1.emptyBank c b
      (s, if clear then none else some b)) (s, none)

/-- The image at an address, with its header and its launch, or the code of its refusal. -/
def State.readImage (s : State) (a : DWord) : Except Nat (ImageHead × Launch × List Byte) :=
  if a.toNat % 128 != 0 then .error 3
  else
    match mgmtOff a 0x100 with
    | none => .error 3
    | some off =>
      match (s.mgmtBytes off 0x100).bind ImageHead.ofBytes with
      | none => .error 5
      | some h =>
        if (mgmtOff a h.size).isNone then .error 3
        else
          match s.mgmtBytes off h.size, (s.ctx h.vi).launch h.launch with
          | some bs, some l =>
            let away : Bool := l.sent.contains h.t && !l.retired.contains h.t && !l.killed.contains h.t &&
              !(s.teams.any fun x => x.2.vi == h.vi && x.2.launch == h.launch && x.2.t == h.t)
            if 64 ≤ h.vi || !away || h.ngrp != l.hdr.gpt || h.size < h.soff || !h.sized bs l.hdr.scrb then .error 5
            else .ok (h, l, bs)
          | _, _ => .error 5

/-- The team becomes resident on a core with everything that was saved: the machine, or the code and index of what
fails. -/
def State.restore (s : State) (core : Nat) (h : ImageHead) (l : Launch) (bs : List Byte) : Except Nat State := do
  match s.pickGroups core l.hdr.gpt, s.pickAllBanks (clusterOfCore core) l.hdr with
  | some gs, some banks =>
    let (s, k) := s.reserve h.vi l h.t core gs banks
    let all := banks.1 ++ banks.2.1 ++ banks.2.2
    let s := all.foldl (fun s b =>
      (s.editBank (clusterOfCore core) b fun x => { x with drain := false }).clearBank (clusterOfCore core) b) s
    let s ← s.placeGroups core k h.vi h.time (gs.zip (groupImages h.ngrp (bs.drop 0x100)))
    match s.teams.find k with
    | none => .ok s
    | some t =>
      let lqs := gs.foldl (fun n g => match s.group core g with
        | some x => if x.ended then n else n + x.lq
        | none => n) 0
      let s := s.restoreTeam k { t with pool := l.hdr.budget - lqs } (bs.drop h.soff)
      let bars := ((s.teams.find k).map (·.bars)).getD []
      .ok ((gs.foldl (fun s g => s.wakeGroup core g bars) s).updateAcct h.vi)
  | _, _ => .error 6

/-- The core has the resources and the slot numbers (R395). -/
def State.hasRoom (s : State) (core : Nat) (h : ImageHead) (l : Launch) (bs : List Byte) : Bool :=
  core < Config.clusterCores && (s.viDies h.vi).getLsbD (dieOfCore core) && s.coreFits core l.hdr &&
    (slotsOf (bs.drop h.soff)).all fun x => (s.slot core x.1 x.2.1).owner.isNone

def execCtxrs (q : Quals) (d a : BitVec 6) (s : State) : Host.Outcome State Fault Refusal :=
  runWith none true s fun c s => do
    if c.active q == 0 then .ok (c.finish s)
    else
      let x ← c.s a
      c.needIdle
      let answer := fun (s : State) (r : DWord) => (Except.ok (c.finish (c.writeS s d r)) : Except Stop State)
      let core := bitsOf c.g.wsel 15 8
      match s.readImage x with
      | .error e => answer s (gatherFail e)
      | .ok (h, l, bs) =>
        if !s.hasRoom core h l bs then answer s (gatherFail 6)
        else
          let banks := match s.pickAllBanks (clusterOfCore core) l.hdr with
            | some b => b.1 ++ b.2.1 ++ b.2.2
            | none => []
          match s.emptyBanks (clusterOfCore core) banks with
          | (s, some b) => .ok (c.block s (.bank (clusterOfCore core) b))
          | (s, none) =>
            match s.restore core h l bs with
            | .error e => answer s (gatherFail e)
            | .ok s => answer s 0

end Sys2Proof.Machine
end

