-- ==== Sys2Proof/Machine/Events.lean ====
section
/-!
DEFINITION. Events of the machine that no instruction word names: the network's messages at homes, clusters, replica
slices and host ports (05), slice evictions and leases (05 R111, R471, R472), walks (15 R382 to R384), fault records (15
R374), writes of the range, format and bank registers, and the scheduler's run starts and the ends of waits (14 R358, R359,
19 R467).
-/
namespace Sys2Proof.Machine

/-! ### Messages (05 R113, R120, R121) -/

/-- Message k of the network arrives, if it is of the kind and may be delivered. -/
def State.arrives (s : State) (k : Nat) (p : MsgKind → Bool) : Host.Outcome State Fault Refusal :=
  .next (match s.net[k]? with
    | some m => if p m.kind then s.deliverAt k else s
    | none => s)

def execGets (k : Nat) (s : State) : Host.Outcome State Fault Refusal := s.arrives k fun x => x == .home .gets
def execGetm (k : Nat) (s : State) : Host.Outcome State Fault Refusal := s.arrives k fun x => x == .home .getm
def execGetu (k : Nat) (s : State) : Host.Outcome State Fault Refusal := s.arrives k fun x => x == .home .getu
def execPuts (k : Nat) (s : State) : Host.Outcome State Fault Refusal := s.arrives k fun x => x == .home .puts
def execPutm (k : Nat) (s : State) : Host.Outcome State Fault Refusal := s.arrives k fun x => x == .home .putm
def execAck (k : Nat) (s : State) : Host.Outcome State Fault Refusal := s.arrives k fun x => x == .home .ack
def execData (k : Nat) (s : State) : Host.Outcome State Fault Refusal := s.arrives k fun x => x == .home .data
def execAtom (k : Nat) (s : State) : Host.Outcome State Fault Refusal := s.arrives k fun x => x == .home .atom
def execHsnp (k : Nat) (s : State) : Host.Outcome State Fault Refusal := s.arrives k fun x => x == .home .hsnp
def execHget (k : Nat) (s : State) : Host.Outcome State Fault Refusal := s.arrives k fun x => x == .home .hget
def execHput (k : Nat) (s : State) : Host.Outcome State Fault Refusal := s.arrives k fun x => x == .home .hput
def execNcr (k : Nat) (s : State) : Host.Outcome State Fault Refusal := s.arrives k fun x => x == .home .ncr
def execNcw (k : Nat) (s : State) : Host.Outcome State Fault Refusal := s.arrives k fun x => x == .home .ncw
def execInvalidation (k : Nat) (s : State) : Host.Outcome State Fault Refusal := s.arrives k fun x => x == .inv
def execUpdate (k : Nat) (s : State) : Host.Outcome State Fault Refusal := s.arrives k fun x => x == .upd
def execForward (k : Nat) (s : State) : Host.Outcome State Fault Refusal :=
  s.arrives k fun x => match x with
    | .fwd _ => true
    | _ => false
def execReply (k : Nat) (s : State) : Host.Outcome State Fault Refusal :=
  s.arrives k fun x => match x with
    | .reply _ => true
    | _ => false
def execReplicaFill (k : Nat) (s : State) : Host.Outcome State Fault Refusal :=
  s.arrives k fun x => match x with
    | .fill _ => true
    | _ => false
def execBackInvalidation (k : Nat) (s : State) : Host.Outcome State Fault Refusal := s.arrives k fun x => x == .bisnp

/-- An event that the line's home raised itself and that had to wait comes back (05 R122, QUEUE). -/
def State.homeOwn (s : State) (part line : Nat) (p : Event → Bool) : Option Nat :=
  s.net.findIdx? fun m => m.part == part && m.line == line && match m.kind with
    | .home e => p e
    | _ => false

/-- RECALL of a line: one that waited at the home comes back, or, where none did, it is raised. -/
def State.recallNow (s : State) (part line : Nat) : State :=
  match s.homeOwn part line fun e => e == .recall || e == .ue with
  | some k => s.deliverAt k
  | none => s.recallLine part line

def execRecall (part line : Nat) (s : State) : Host.Outcome State Fault Refusal :=
  .next (s.recallNow part (line / 128 * 128))

/-! ### Leases and evictions (05 R111, R471, R472) -/

/-- Device time has passed a line's recorded expiry. -/
def State.leaseOver (s : State) (part line : Nat) : Bool :=
  match (s.home part line).lease with
  | some t => t < s.ns
  | none => false

/-- LEASEX is looked up, under an image that leaves it undefined too (R125; log 55), and the record is cleared. One that waited
at the home comes back first. -/
def State.leasex (s : State) (part line : Nat) : State :=
  match s.homeOwn part line fun e => e == .leasex with
  | some k => s.deliverAt k
  | none =>
    if !s.leaseOver part line then s
    else
      let s := homeLookup s .leasex (Msg.blank (.home .leasex) part line (s.homeAgent part line))
      s.setHome part line { s.home part line with lease := none }

def execLeasex (part line : Nat) (s : State) : Host.Outcome State Fault Refusal :=
  .next (s.leasex part (line / 128 * 128))

def execSliceEviction (part line : Nat) (s : State) : Host.Outcome State Fault Refusal :=
  .next (s.sliceEvict part (line / 128 * 128))

/-! ### Walks (15 R382 to R384) -/

/-- A walk of an address for a core: a page found is cached at the core and at its die; a fault is that of the access. -/
def execTranslationWalk (vi core : Nat) (va : BitVec 64) (s : State) : Host.Outcome State Fault Refusal :=
  .next (if isUser va then s.walkFor core vi va else s)

/-! ### Fault records (15 R374) and halt records (18 R452) -/

/-- A record of the die waits. -/
def State.recordWaits (s : State) (d : Nat) : Bool := !(s.mgmt.fqWait.get d []).isEmpty

/-- The next fault record is written where there is room; where there is none OVF is set. A halt record that waits is
written to its registers. -/
def State.writeFault (s : State) (d : Nat) : State :=
  let s := s.writeHalt d
  match s.mgmt.fqWait.get d [] with
  | [] => s
  | r :: rest =>
    let base := fqReg d 0
    if s.ringRoom base then
      let s := s.ringPut base 64 (bytesOfNat 64 r.toNat)
      { s with mgmt := { s.mgmt with fqWait := if rest.isEmpty then s.mgmt.fqWait.drop d else s.mgmt.fqWait.put d rest } }
    else if (s.mr (base + 8)).getLsbD 8 then s
    else s.setMr (base + 8) (s.mr (base + 8) ||| 0x100)

def execFaultRecordWrite (die : Nat) (s : State) : Host.Outcome State Fault Refusal := .next (s.writeFault (die % 4))

/-! ### Configuration writes (05 R115, R116, 04 R92 to R95) -/

/-- A 64-bit write of a management-window register. -/
def State.write64 (s : State) (off : Nat) (x : DWord) : State := (s.regWrite off x (BitVec.allOnes 64)).1

def execPrangeWrite (k r : Nat) (value : BitVec 64) (s : State) : Host.Outcome State Fault Refusal :=
  .next (if k < 64 && r < 4 then s.write64 (rangeReg k r) value else s)

def execFmtWrite (k r : Nat) (value : BitVec 64) (s : State) : Host.Outcome State Fault Refusal :=
  .next (if k < 16 && r < 5 then s.write64 (fmtReg k r) value else s)

def execBankpartWrite (stack : Nat) (value : BitVec 64) (s : State) : Host.Outcome State Fault Refusal :=
  .next (if stack < 8 then s.write64 (bankpartReg stack) value else s)

def execMirmetCfgWrite (stack : Nat) (value : BitVec 64) (s : State) : Host.Outcome State Fault Refusal :=
  .next (if stack < 8 then s.write64 (mirmetReg stack) value else s)

/-! ### Waits (14 R358) -/

/-- The path is first in line: the earliest of the waits of a kind among some groups, by core and number, then the lowest
group and entry. One whose turn has come stays in line until it has taken what it waited for. -/
def State.firstFor (s : State) (core grp ent : Nat) (among : Nat → Group → Bool) (w : Wait → Bool) : Bool :=
  let line := (s.groups.filter fun x => !x.2.ended && among x.1 x.2).flatMap fun x =>
    (x.2.arch.valid.filter fun i => (x.2.arch.stream i).headD i == i && match (x.2.arch.path i).inLine with
      | some y => w y
      | none => false).map fun i => ((x.2.arch.path i).since, x.1, i)
  let first := line.foldl (fun (b : Option (Nat × Nat × Nat)) y => match b with
    | some z => if y.1 < z.1 || (y.1 == z.1 && (y.2.1 < z.2.1 || (y.2.1 == z.2.1 && y.2.2 < z.2.2))) then some y else b
    | none => some y) none
  match first, s.group core grp with
  | some y, some g => y.2.1 == groupKey core grp && (g.arch.stream ent).contains y.2.2
  | _, _ => false

/-- A host holds the line and it can be called back now. -/
def State.callable (s : State) (part line : Nat) : Bool :=
  let d := Dir.ofBits (s.home part line).dir
  d.h && !(s.imageOf line).inTransient d.state

/-- Matrix instructions of a group that have not retired. -/
def Group.matrixUnretired (g : Group) : Nat :=
  (g.rob.filter fun (e : Entry) => match e.op with
    | .mma .. => true
    | _ => false).length

/-- What a path waits for is there. -/
def State.waitOver (s : State) (core grp : Nat) (g : Group) (ent : Nat) (w : Wait) : Bool :=
  let team := (s.team g).map fun t => (t.qs, t.bars)
  let q := fun (i : Nat) => (team.map fun t => t.1.getD i Coupling.zero).getD Coupling.zero
  match w with
  | .full rs => rs.all fun r => (g.arch.vreg r).full
  | .sFull r => !(g.arch.sPend.any fun x => x.1 == r)
  | .window => g.rob.isEmpty || Group.posts g + (g.arch.stream ent).length ≤ 32
  | .drained => g.idle
  | .release cls => s.released g cls
  | .loaded cls => s.loaded g cls
  | .time t => t < s.ns
  | .acquire => g.acq.isNone
  | .lines ls home => !g.conflict ls home
  | .copied .. | .wrote .. => s.copyOver core w && (!s.latched core w || g.idle)
  | .chanRoom k => (s.chan core k).ops.length < 16
  | .qRoom i => 0 < (q i).allow || (q i).closed
  | .qData i => !(q i).handles.isEmpty || (q i).closed
  | .slotFree o => g.idle && (s.slot core (partOf core grp) o).owner.isNone &&
    s.firstFor core grp ent (fun k _ => k / 256 == core && partOf core (k % 256) == partOf core grp) fun x => x == .slotFree o
  | .slotIdle o copies => s.slotIdle core (partOf core grp) o copies
  | .slotPresent o => (s.slot core (partOf core grp) o).present
  | .mtxRoom => Group.matrixUnretired g < 4
  | .barrier b => match team with
    | some (_, bars) => !(bars.getD b Barrier.zero).waits g.gidx
    | none => true
  | .passed _ => true
  | .event n => !isRanene core && (s.ctx g.vi).events.getLsbD n
  | .pool n => match s.team g with
    | some t => g.idle && g.arch.allFull && n - g.lq ≤ t.pool && s.firstFor core grp ent (fun _ h => h.team == g.team) fun x => match x with
      | .pool _ => true
      | _ => false
    | none => true
  | .flip part page _ => (s.flipOf part page).isNone
  | .unheld k => match s.teams.find k with
    | some t => !s.heldByOthers t (groupKey core grp) && !s.gathering k
    | none => true
  | .gathered k => match s.teams.find k with
    | some t => s.teamSettled t || s.teamStopped t
    | none => true
  | .flushed dies vi => !s.accessing dies vi
  | .causal _ => false
  | .reach part line =>
    if isHostDpa line then !(s.out.reqs.any fun r => r.eng.isSome && r.addr == line % 2 ^ 51)
    else s.reachable part line || s.callable part line
  | .bank c b => !((s.cluster c).lines.any fun l => l.2.bank == b && (s.cluster c).mshr.any fun r => r.line == l.1 && r.ev == .getu) &&
    (isRanene core || s.firstFor core grp ent (fun k _ => !isRanene (k / 256) && clusterOfCore (k / 256) == c) fun x => x == .bank c b)
  | .join _ => false

/-- The wait goes on being remembered when its instruction runs again: what it waits for was fixed when it was dispatched, or
it keeps its place in a line. -/
def Wait.kept : Wait → Bool
  | .copied .. | .wrote .. | .passed _ | .gathered _ | .slotFree _ | .pool _ | .bank .. => true
  | .flip _ _ own => own
  | _ => false

/-- The entries of a stream become READY at their resume point. -/
def State.wake (s : State) (core grp ent : Nat) : State :=
  match s.group core grp with
  | none => s
  | some g => s.setGroup core grp { g with arch := g.arch.editPaths (g.arch.stream ent) fun p =>
      { p with state := .ready, lost := 0, wait := match p.wait with
        | some w => if w.kept then some w else none
        | none => none } }

/-- A blocking wait ends, unless the group is held (15 R378): its instruction runs again. A line in a host's hands is called
back first. -/
def State.waitEnd (s : State) (core grp ent : Nat) : State :=
  match s.group core grp with
  | none => s
  | some g =>
    let p := g.arch.path ent
    match p.wait with
    | none => s
    | some w =>
      if !p.valid || p.state != .blocked || g.ended || g.stopped || s.isHeld core grp || !s.waitOver core grp g ent w then s
      else
        match w with
        | .reach part line =>
          if isHostDpa line || s.reachable part line then s.wake core grp ent else (s.callHome part line).settleLine part line
        | _ => s.wake core grp ent

def execWaitEnd (core grp ent : Nat) (s : State) : Host.Outcome State Fault Refusal := .next (s.waitEnd core grp ent)

/-- A causal delay runs out (19 R467), unless the group is held (15 R378). -/
def State.causalOver (s : State) (core grp ent : Nat) : Bool :=
  match s.group core grp with
  | none => false
  | some g =>
    let p := g.arch.path ent
    match p.wait with
    | some (.causal t) => p.valid && p.state == .blocked && !s.isHeld core grp && t ≤ s.clk
    | _ => false

def execCausalDelayEnd (core grp ent : Nat) (s : State) : Host.Outcome State Fault Refusal :=
  .next (if s.causalOver core grp ent then s.wake core grp ent else s)

/-! ### Run starts (14 R359) -/

/-- A group's streams may start runs: it is live, not held or halted, its banks are drained, its team not being
gathered. -/
def State.mayRun (s : State) (core grp : Nat) (g : Group) : Bool :=
  !g.ended && !g.stopped && !s.isHeld core grp && (match g.team, s.team g with
    | some k, some t => s.teamReady t && !s.gathering k
    | _, _ => true)

/-- The READY streams of a partition: group, entry, wait count. -/
def State.readyStreams (s : State) (core part : Nat) : List (Nat × Nat × Nat) :=
  (s.groups.filter fun x => x.1 / 256 == core && partOf core (x.1 % 256) == part && s.mayRun core (x.1 % 256) x.2).flatMap fun x =>
    (x.2.arch.valid.filter fun i => (x.2.arch.stream i).headD i == i &&
      (x.2.arch.stream i).all fun j => (x.2.arch.path j).state == .ready).map fun i => (x.1 % 256, i, (x.2.arch.path i).lost)

/-- A partition issues nothing now. -/
def State.partIdle (s : State) (core part : Nat) : Bool :=
  !(s.running.any fun r => r.1 == core && partOf core r.2.1 == part)

/-- PRIO of a group's launch; 0 for a privileged group. -/
def State.prio (s : State) (core grp : Nat) : Nat :=
  (((s.group core grp).bind s.launch).map (·.hdr.prio)).getD 0

/-- Round-robin order: group number, then entry index. -/
def streamCode (x : Nat × Nat × Nat) : Nat := x.1 * 32 + x.2.1

/-- The winner of a round (R359): the stream, and the level it won at where it is not aged. -/
def State.winner (s : State) (core part : Nat) (xs : List (Nat × Nat × Nat)) : Option ((Nat × Nat × Nat) × Option Nat) :=
  let least := fun (ys : List (Nat × Nat × Nat)) => ys.foldl (fun (b : Option (Nat × Nat × Nat)) y => match b with
    | some z => if streamCode y < streamCode z then some y else b
    | none => some y) none
  let aged := xs.filter fun x => 192 ≤ x.2.2
  if !aged.isEmpty then
    let w := aged.foldl (fun n x => max n x.2.2) 0
    (least (aged.filter fun x => x.2.2 == w)).map fun x => (x, none)
  else
    let level := fun (x : Nat × Nat × Nat) => min 3 (s.prio core x.1 + x.2.2 / 64)
    let top := xs.foldl (fun n x => max n (level x)) 0
    let ys := xs.filter fun x => level x == top
    let last := (s.part core part).last.find? fun p => p.1 == top
    let after := ys.filter fun y => match last with
      | some p => p.2 < streamCode y
      | none => true
    (least (if after.isEmpty then ys else after)).map fun x => (x, some top)

/-- What tracing and a causal experiment make of a run start with packet count 1 (19 R465, R467): the machine, and the clocks
of delay. -/
def State.newRun (s : State) (core grp ent w : Nat) (g : Group) : State × Nat :=
  let pn := (g.arch.path ent).pn
  let s := s.trace core grp ent 1 (min w 0xFFFFFFFF) pn
  let x := s.ctx g.vi
  if isRanene core || !x.dbgctl.getLsbD 3 || !(s.features core g).getLsbD 10 then (s, 0)
  else if x.cxLo.toNat ≤ pn.toNat && pn.toNat < x.cxHi.toNat then (s.setCtx g.vi (x.bump 17 1), 0)
  else (s.setCtx g.vi ((x.bump 18 1).bump 16 x.cxDelay.toNat), x.cxDelay.toNat)

/-- One arbitration round of an idle partition. -/
def State.runStart (s : State) (core part : Nat) : State :=
  let xs := s.readyStreams core part
  if !s.partIdle core part then s
  else
    match s.winner core part xs with
    | none => s
    | some ((grp, ent, w), level) =>
      -- the losers wait one round more
      let s := xs.foldl (fun s x => match s.group core x.1 with
        | some g =>
          let won := x.1 == grp && x.2.1 == ent
          s.setGroup core x.1 { g with arch := g.arch.editPaths (g.arch.stream x.2.1) fun p =>
            { p with lost := if won then 0 else p.lost + 1 } }
        | none => s) s
      let s := match level with
        | some n =>
          let p := s.part core part
          s.setPart core part { p with last := (n, streamCode (grp, ent, w)) :: p.last.filter fun y => y.1 != n }
        | none => s
      match s.group core grp with
      | none => s
      | some g =>
        let (s, d) := if (g.arch.path ent).run == 0 then s.newRun core grp ent w g else (s, 0)
        let a := (g.arch.stream ent).foldl (fun (a : Arch) i =>
          a.insertPath i { a.path i with run := max 1 (a.path i).run, used := s.clk }) g.arch
        if d == 0 then
          { s.setGroup core grp { g with arch := a } with running := s.running ++ [(core, grp, ent)] }
        else
          s.setGroup core grp { g with arch := a.editPaths (a.stream ent) fun p =>
            { p with state := .blocked, wait := some (.causal (s.clk + d)), since := s.clk } }

def execRunStart (core part : Nat) (s : State) : Host.Outcome State Fault Refusal := .next (s.runStart core part)

end Sys2Proof.Machine
end

