-- ==== Sys2Proof/Machine/Host.lean ====
section
/-!
DEFINITION. What the host and the peers do to the device (17): reads and writes of device memory through host windows, the
answers to back-invalidations and to the device's own host requests, bias requests, the time dialogue, flits of Buith
links, and configuration requests.

The last answer of the device stands in `State.out.answer`. Its kinds: 1 a half line read by the host, 2 a configuration
request (its first byte 0 where it completes, 2 for Request Retry Status), 3 a snoop response, 4 the answer to a peer's access
(its first byte 1 where it is refused), 5 an MSI-X message, 6 an accounting block, 7 a sensor, 8 an SPDM response, 9 an AER
Uncorrectable Internal Error at a port.
-/
namespace Sys2Proof.Machine

/-! ### Host windows (R420) -/

/-- The byte mask of the half of a line that holds an address. -/
def halfMask (a : Nat) : BitVec 128 := byteMask (a % 128 / 64 * 64) 64

/-- The partition and DPA of an offset in a decoder of a port, where the request is served. -/
def State.hostDpa (s : State) (port dec off : Nat) : Option (Nat × Nat) :=
  let j := port % 2 * 2 + dec % 2
  let a := (s.mr (hwReg j 1)).toNat + off
  match s.windowDies j with
  | some p =>
    if (s.mr (hwReg j 0)).getLsbD 0 && off < (s.mr (hwReg j 2)).toNat && s.lineHcoh (a / 128 * 128) then some (s.partOfDie p, a) else none
  | none => none

/-- A host request outside what its window serves: the event (18 Table 18-9a, 0x04) at the port's die. -/
def State.hostMiss (s : State) (port dec off : Nat) : State :=
  s.event (port % 2 * 2) 0x04 0 (s.mr (hwReg (port % 2 * 2 + dec % 2) 1) + BitVec.ofNat 64 off) 0

/-- MemRd of the half at an offset. -/
def State.memRead (s : State) (port dec off : Nat) : State :=
  let off := off / 64 * 64
  match s.hostDpa port dec off with
  | none => (s.hostMiss port dec off).answerHost 1 off true (List.replicate 64 0)
  | some (part, a) =>
    (s.sendHome .hget part (a / 128 * 128) (76 + port % 2) fun m => { m with mask := halfMask a }).count 0 7 64

def execMemrd (port dec off : Nat) (s : State) : Host.Outcome State Fault Refusal := .next (s.memRead port dec off)

/-- MemWr of the half at an offset. -/
def State.memWrite (s : State) (port dec off : Nat) (x : BitVec 512) : State :=
  let off := off / 64 * 64
  match s.hostDpa port dec off with
  | none => s.hostMiss port dec off
  | some (part, a) =>
    (s.sendHome .hput part (a / 128 * 128) (76 + port % 2) fun m =>
      { m with data := x.setWidth 1024 <<< (8 * (a % 128)), mask := halfMask a }).count 0 7 64

def execMemwr (port dec off : Nat) (value : BitVec 512) (s : State) : Host.Outcome State Fault Refusal :=
  .next (s.memWrite port dec off value)

/-! ### Back-invalidations (R421) -/

/-- The port's host writes of a line that are still on their way reach the home. -/
def State.flushHputs (s : State) (port part line : Nat) : State :=
  let mine := fun (m : Msg) => m.kind == .home .hput && m.part == part && m.line == line && m.peer == 76 + port
  (s.net.filter mine).foldl deliver { s with net := s.net.filter fun m => !mine m }

/-- BIRsp for one half; with both, the port answers the home with one HSNP. -/
def State.biRsp (s : State) (port part line half : Nat) : State :=
  match s.out.snoops.find? fun x => x.port == port && x.part == part && x.line == line with
  | none => s
  | some x =>
    let y := if half % 2 == 0 then { x with low := true } else { x with high := true }
    let rest := s.out.snoops.erase x
    if y.low && y.high then
      ({ s with out := { s.out with snoops := rest } }.flushHputs port part line).sendHome .hsnp part line (76 + port)
        fun m => { m with tag := y.tag }
    else { s with out := { s.out with snoops := s.out.snoops.map fun z => if z == x then y else z } }

def execBirsp (port part line half : Nat) (s : State) : Host.Outcome State Fault Refusal := .next (s.biRsp port part line half)

/-- An H2D snoop: the device never holds a host line, and answers RspIHitI (R413). -/
def execH2dSnoop (port addr : Nat) (s : State) : Host.Outcome State Fault Refusal :=
  .next (s.answerHost 3 addr false [BitVec.ofNat 8 (port % 2)])

/-! ### The device's own host requests (R418) -/

/-- The host memory that the device knows of is as its last transfer left it. -/
def State.hostLine (s : State) (r : HostReq) (l : Line) (mask : BitVec 128) : State :=
  let c := hostCell r.pasid r.addr
  s.writeBytes c (Line.toBytes (Line.merge (s.cellLine c).1 l mask))

/-- Bytes of an interface's host-memory accesses (18 R453). -/
def State.hostBytes (s : State) (r : Ref) (n : Nat) : State :=
  match s.group r.core r.grp with
  | some g => if isRanene r.core then s else s.count g.vi 7 n
  | none => s

/-- The bytes a mask names. -/
def maskBytes (m : BitVec 128) : Nat := ((List.range 128).filter fun i => m.getLsbD i).length

/-- The data of a RdCurr arrives: the load performs, and raises the lease floor; work of an engine context can go on. -/
def State.hostData (s : State) (k : Nat) (l : Line) (poison : Bool) : State :=
  match s.out.reqs[k]? with
  | none => s
  | some r =>
    if r.write then s
    else
      let s := ({ s with out := { s.out with reqs := s.out.reqs.eraseIdx k } }.hostLine r l (BitVec.allOnes 128))
      match r.ref, r.chan with
      | some f, _ =>
        match s.reqOf f with
        | none => s
        | some (op, q) =>
          let s := s.answer f (readAccs op l q.accs) (if poison then some causePoison else none) 0
          (s.editReq f fun g _ q => (g.raiseFloor s.ns, q)).hostBytes f (op.size * q.accs.length)
      | none, some c =>
        let x := s.chans.get c Channel.zero
        if x.asked.contains r.addr then
          let s := s.count ((x.ops.map (·.vi)).headD 0) 7 128
          { s with chans := s.chans.put c { x with asked := x.asked.filter (· != r.addr), got := x.got ++ [(r.addr, l, poison)] } }
        else s
      | none, none => match r.eng with
        | some v =>
          let x := s.ctx v
          (s.setCtx v { x with hostGot := x.hostGot ++ [(r.addr, l, poison)] }).count v 7 128
        | none => s

def execRdcurrCompletion (k : Nat) (value : BitVec 1024) (poison : Bool) (s : State) : Host.Outcome State Fault Refusal :=
  .next (s.hostData k value poison)

/-- Global observation of a WOWrInv: the store performs, with this time as its three visibility times. -/
def State.hostSeen (s : State) (k : Nat) : State :=
  match s.out.reqs[k]? with
  | none => s
  | some r =>
    if !r.write then s
    else
      let s := ({ s with out := { s.out with reqs := s.out.reqs.eraseIdx k } }.hostLine r r.data r.mask)
      match r.ref, r.chan with
      | some f, _ =>
        match s.reqOf f with
        | none => s
        | some (op, q) =>
          ((s.answer f q.accs none 0).seeVt f (some (s.ns, s.ns, s.ns))).hostBytes f (op.size * q.accs.length)
      | none, some c =>
        let x := s.chans.get c Channel.zero
        match x.ops with
        | o :: _ =>
          if x.out then
            (({ s with chans := s.chans.put c { x with vtDev := max x.vtDev s.ns } }).count o.vi 7 o.piece).wrotePiece (c / 8) (c % 8) o.piece
          else s
        | [] => s
      | none, none => match r.eng with
        | some v =>
          let x := s.ctx v
          (s.setCtx v { x with hostDone := x.hostDone ++ [(r.addr, r.data, r.mask)] }).count v 7 (maskBytes r.mask)
        | none => s

def execGlobalObservation (k : Nat) (s : State) : Host.Outcome State Fault Refusal := .next (s.hostSeen k)

/-! ### Bias (R424, R426) -/

def execBiasReqWrite (vi : Nat) (value : BitVec 64) (s : State) : Host.Outcome State Fault Refusal :=
  .next (if vi < 64 then s.write64 (biasReqReg vi) value else s)

def execBiasStatWrite (vi : Nat) (value : BitVec 64) (s : State) : Host.Outcome State Fault Refusal :=
  .next (if vi < 64 then s.write64 (biasStatReg vi) value else s)

def execBiasFlipComplete (part page : Nat) (s : State) : Host.Outcome State Fault Refusal := .next (s.endFlip part page)

/-! ### Host window registers (R419) -/

def execHwCfgWrite (j r : Nat) (value : BitVec 64) (s : State) : Host.Outcome State Fault Refusal :=
  .next (if j < 4 && r < 4 then s.write64 (hwReg j r) value else s)

/-! ### Device time (R428) -/

/-- The time of the next PTM dialogue: 2^INT ms from now. INT above 10, which Table 17-7 gives no meaning, counts as 10 (DESIGN
CHOICE, log 58). -/
def State.ptmNext (s : State) : Nat := s.ns + 2 ^ min 10 (bitsOf (s.mr timeCfgReg) 7 4) * 1000000

/-- A PTM dialogue: the offset is stored; a lag of more than 1 ms is made up by a step, any other offset by a slew. Where
it fails, or with PTMEN = 0, time runs free. The next is due 2^INT ms later, with a host time of its own (log 18). -/
def State.ptm (s : State) (hostNs : Nat) (ok : Bool) : State :=
  let s := { s with mgmt := { s.mgmt with ptmDue := s.ptmNext }, free := s.free + 1 }
  let free := fun (x : Int) => { s with mgmt := { s.mgmt with slew := x } }
  if !ok || !(s.mr timeCfgReg).getLsbD 0 then free 0
  else
    let ofs : Int := Int.ofNat hostNs - Int.ofNat s.ns
    let s := s.setMr timeOfsReg (BitVec.ofInt 64 ofs)
    if 1000000 < ofs then { s with clk := max s.clk (2 * hostNs), mgmt := { s.mgmt with slew := 0 } }
    else { s with mgmt := { s.mgmt with slew := 4 * ofs } }

def execPtmDialogue (hostNs : Nat) (ok : Bool) (s : State) : Host.Outcome State Fault Refusal := .next (s.ptm hostNs ok)

/-- The next clock of device time. While it is slewed, one clock in 2,001 is two, or is held for one more step: at most 500
ppm away from nominal, never backward. -/
def State.nextClock (s : State) : State :=
  let x := s.mgmt.slew
  let keep := fun (y : Int) (n : Nat) => { s with clk := s.clk + n, mgmt := { s.mgmt with slew := y } }
  if x == 0 || !(s.mr timeCfgReg).getLsbD 0 then { s with clk := s.clk + 1 }
  else if x % 2 != 0 then keep (x + 1) 1
  else if s.clk % 2001 != 0 then { s with clk := s.clk + 1 }
  else if 0 < x then keep (x - 2) 2
  else keep (x + 1) 0

/-! ### Buith links (R429) -/

/-- The operation uses a link. -/
def CopyOp.usesLink (o : CopyOp) (k : Nat) : Bool :=
  (addrClass o.dst == 0xFF2 && peerLink o.dst == k) || (addrClass o.src == 0xFF2 && peerLink o.src == k)

/-- The operation at the head of a channel is aborted with POISON, with its record. -/
def State.abortHead (s : State) (c : Nat) : State :=
  match (s.chans.get c Channel.zero).ops with
  | o :: _ => s.failCopy (c / 8) (c % 8) o (.abort causePoison) (if addrClass o.dst == 0xFF2 then o.dst else o.src)
  | [] => s

/-- A link goes down: the operations under way over it are aborted, and one that is queued is when it starts. -/
def State.linkDown (s : State) (k : Nat) : State :=
  let s := s.setMr (blReg k 0) (s.mr (blReg k 0) &&& ~~~ 2)
  let s := s.chans.foldl (fun s x => match x.2.ops with
    | o :: _ => if o.usesLink k then s.abortHead x.1 else s
    | [] => s) s
  s.event (k / 3) 0x08 0 (BitVec.ofNat 64 k) 0

/-- The DPA that a peer's access over a link names, where it lies in the export and is allowed (R430). -/
def State.exported (s : State) (k : Nat) (r : PeerReq) : Option Nat :=
  let base := s.mr (blReg k 1)
  let a := bitsOf base 40 12 * 4096 + r.off / 128 * 128
  if a < bitsOf (s.mr (blReg k 2)) 40 12 * 4096 && base.getLsbD (if r.write then 1 else 0) then some a else none

/-- A peer's access goes to its home as NCR or NCW of the link's agent (01 R10, R431), in the partition of the link's die; one
outside the export, or without the permission, is refused. -/
def State.peerAccess (s : State) (k : Nat) (r : PeerReq) : State :=
  match s.exported k r with
  | none => s.answerHost 4 k false [1]
  | some a => s.sendHome (if r.write then .ncw else .ncr) (s.partOfDie (k / 3)) a (78 + k)
      fun m => { m with vi := 64, data := r.data, mask := r.mask }

/-- The oldest access that has come over a link is taken up. -/
def State.takePeer (s : State) (k : Nat) : State :=
  match s.out.inbox.get k [] with
  | [] => s
  | r :: rest =>
    { s with out := { s.out with inbox := if rest.isEmpty then s.out.inbox.drop k else s.out.inbox.put k rest } }.peerAccess k r

/-- A flit arrives: one that passes its CRC brings the oldest access of the peer, one that fails is replayed, and after 8 failed
replays the link goes down. -/
def State.flit (s : State) (k : Nat) (crcOk : Bool) : State :=
  if 12 ≤ k || !(s.mr (blReg k 0)).getLsbD 1 then s
  else
    let n := if crcOk then 0 else s.out.replays.get k 0 + 1
    let s := { s with out := { s.out with replays := if n == 0 || n == 9 then s.out.replays.drop k else s.out.replays.put k n } }
    if n == 9 then s.linkDown k else if crcOk then s.takePeer k else s

def execBuithFlit (link : Nat) (crcOk : Bool) (s : State) : Host.Outcome State Fault Refusal := .next (s.flit link crcOk)

/-! ### Configuration requests (18 R435) -/

/-- The bits of a configuration register that Table 17-1 and R415 do not fix: the base address registers are those of one
64-bit BAR0 of 64 KiB at port 0, and of none at port 1; their places are those of PCIe (PRESUMED, log 58). -/
def configOpen (port reg : Nat) : Nat :=
  if reg / 4 * 4 == 0x10 && port % 2 == 0 then 0xFFFF0008
  else if reg / 4 * 4 == 0x14 && port % 2 == 0 then 0xFFFFFFFF
  else if 0x10 ≤ reg && reg < 0x28 then 0
  else 0xFFFFFFFF

/-- The bits of it that are fixed at 1: BAR0 is a 64-bit one. -/
def configOnes (port reg : Nat) : Nat := if reg / 4 * 4 == 0x10 && port % 2 == 0 then 4 else 0

/-- A configuration read of a 4-byte register: Request Retry Status until start-up is over; then it completes, with a BAR0 of
zeros where start-up failed. What is not stated of a register is a free value. -/
def execConfigurationRequest (port reg : Nat) (s : State) : Host.Outcome State Fault Refusal :=
  let about := port % 2 * 2 ^ 16 + reg
  .next (if !s.mgmt.ready && s.mgmt.fail == 0 then s.answerHost 2 about false [2]
    else if s.mgmt.fail != 0 && (reg == 0x10 || reg == 0x14) then s.answerHost 2 about false [0, 0, 0, 0, 0]
    else
      let (x, s) := s.fresh
      s.answerHost 2 about false ((0 : Byte) :: bytesOfNat 4 ((x.toNat &&& configOpen port reg) + configOnes port reg)))

end Sys2Proof.Machine
end

