-- ==== Sys2Proof/Machine/Admin.lean ====
section
/-!
DEFINITION. Management (18): start-up, partition commands, interfaces and their admin queues, halts, accounting and
attestation.
-/
namespace Sys2Proof.Machine

/-! ### Start-up (R435) -/

/-- The shipped image of a slot as the firmware package holds it. -/
def Flash.image (f : Flash) (slot : Nat) : List Byte := (f.images.find slot).getD (shippedImage slot).bytes

/-- The package of protocol images that is measured (R457): slots 0 to 5. -/
def Flash.package (f : Flash) : List Byte := (List.range 6).flatMap f.image

/-- Start-up stops with a code. -/
def State.startFail (s : State) (code : BitVec 8) : State := { s with mgmt := { s.mgmt with fail := code } }

/-- Right after reset, with what a reset does not touch: the package in flash, the contents of memories, the model's own
fields. -/
def State.powerOn (s : State) : State :=
  { State.reset with mem := s.mem, poison := s.poison, ue := s.ue, ce := s.ce, flash := s.flash, free := s.free,
                     agenda := s.agenda }

/-- Steps 1 to 3: the firmware is measured and starts. -/
def State.startFirmware (s : State) : State :=
  let s := (s.measure 1 s.flash.firmware).measure 2 s.flash.package
  let s := s.writeBytes (mgmtCell 0x1000000) s.flash.firmware
  s.flash.boot.foldl (fun s x => s.setGroup (Config.clusterCores + x.1 % 4) (x.2.1 % 4) (Group.priv x.2.2)) s

/-- The register writes of the firmware configuration to some offsets. -/
def Flash.writes (f : Flash) (lo hi : Nat) : List (Nat × DWord) := f.config.filter fun x => lo ≤ x.1 && x.1 < hi

/-- Registers are set as the firmware configuration has them. -/
def State.configure (s : State) (ws : List (Nat × DWord)) : State := ws.foldl (fun s x => s.write64 x.1 x.2) s

/-- The bits that a host-window or partition register holds (Tables 17-3, 18-4, 18-6); none where an offset has no such
register that can be written. -/
def heldBits (off : Nat) : Option DWord :=
  if 0x120000 ≤ off && off < 0x120080 && off % 8 == 0 then
    some (match off % 0x20 / 8 with
      | 0 => 0x1F
      | 3 => 0x1FFFFFFF000
      | _ => 0x1FFF0000000)
  else if 0x140000 ≤ off && off < 0x140020 && off % 8 == 0 then some 0xF
  else if 0x140020 ≤ off && off < 0x140040 && off % 8 == 0 then some 0xFF
  else if 0x140040 ≤ off && off < 0x140060 && off % 8 == 0 then some 1
  else if off == qtimeoutReg then some 0xFFFFFFFF
  else if 0x141000 ≤ off && off < 0x141400 && off % 8 == 0 then some (if off % 16 == 0 then 0x10F else 0xFFF)
  else none

/-- A register whose writes are staged, or checked against the partitions, is set directly at start-up; the checks that need
no partition are made (R439, R445). -/
def State.startReg (s : State) (off : Nat) (x : DWord) : State :=
  match heldBits off with
  | none => s
  | some m =>
    let x := x &&& m
    let v := (off - 0x141000) / 16
    let refused : Bool := (off == qtimeoutReg && x == 0) || (0x141000 ≤ off &&
      (if off % 16 == 0 then x.getLsbD 8 && !(s.mr (viPolicyReg v)).getLsbD 0 else s.mapEn v && !x.getLsbD 0))
    if refused then s.refuseWrite off x else s.setMr off x

/-- Registers of the firmware configuration that are staged or checked against the partitions. -/
def State.setRegs (s : State) (ws : List (Nat × DWord)) : State := ws.foldl (fun s x => s.startReg x.1 x.2) s

/-- Step 5: the links with EN set train; one that does not raises an event. -/
def State.trainLinks (s : State) : State :=
  let s := s.configure (s.flash.writes 0x130000 0x132000)
  (List.range 12).foldl (fun s k =>
    if !(s.mr (blReg k 0)).getLsbD 0 then s
    else if s.flash.links.getLsbD k then s.setMr (blReg k 0) (s.mr (blReg k 0) ||| 2)
    else s.event (k / 3) 0x08 0 (BitVec.ofNat 64 k) 0) s

/-- Step 6: the code of the first image that is refused. -/
def State.loadShipped (s : State) : State × Nat :=
  (List.range 6).foldl (fun (p : State × Nat) k =>
    if p.2 != 0 then p else p.1.loadImage k (some (p.1.flash.image k))) (s, 0)

/-- Step 9: device time is set forward to the host's, and start-up is complete. -/
def State.startDone (s : State) : State :=
  let s := match s.flash.hostTime with
    | some t => { s with clk := max s.clk (2 * t) }
    | none => s
  { s with mgmt := { s.mgmt with ready := true, ptmDue := s.ptmNext } }

/-- Module reset and the start-up sequence (Table 18-2a). -/
def State.moduleReset (s : State) : State :=
  let s := s.powerOn
  if !s.flash.readable then s.startFail 0x02
  else if !s.flash.signed then s.startFail 0x01
  else
    let s := s.startFirmware
    if !s.flash.trains then s.startFail 0x03
    else
      let s := s.trainLinks
      let (s, code) := s.loadShipped
      if code != 0 then s.startFail 0x04
      else
        let s := s.configure (s.flash.writes 0 0x120000)
        let s := s.setRegs (s.flash.writes 0x120000 0x120080)
        let s := s.configure (s.flash.writes 0x120080 0x130000 ++ s.flash.writes 0x150000 0x160000)
        let s := s.setRegs (s.flash.writes 0x140000 0x141400)
        if !s.consistent then s.startFail 0x05 else (s.applyConfig true).startDone

def execModuleReset (s : State) : Host.Outcome State Fault Refusal := .next s.moduleReset

/-! ### Partition commands and registers (R438 to R445) -/

def execQuiesce (dies : BitVec 4) (s : State) : Host.Outcome State Fault Refusal := .next (s.quiesceCmd dies)
def execQuiesceDone (s : State) : Host.Outcome State Fault Refusal := .next s.quiesceEnd
def execQuiesceTimeout (s : State) : Host.Outcome State Fault Refusal := .next s.quiesceExpire
def execRelease (dies : BitVec 4) (s : State) : Host.Outcome State Fault Refusal := .next (s.releaseCmd dies)
def execAbort (dies : BitVec 4) (s : State) : Host.Outcome State Fault Refusal := .next (s.abortCmd dies)

/-- A partition register or VI_MAP. -/
def isPartReg (off : Nat) : Bool :=
  (0x140000 ≤ off && off < 0x140060 && off % 8 == 0) || (0x141000 ≤ off && off < 0x141400 && off % 16 == 0)

def execPartitionRegisterWrite (off : Nat) (value : BitVec 64) (s : State) : Host.Outcome State Fault Refusal :=
  .next (if isPartReg off then s.write64 off value else s)

def execPartQtimeoutWrite (value : BitVec 64) (s : State) : Host.Outcome State Fault Refusal :=
  .next (s.write64 qtimeoutReg value)

def execViPolicyWrite (vi : Nat) (value : BitVec 64) (s : State) : Host.Outcome State Fault Refusal :=
  .next (if vi < 64 then s.write64 (viPolicyReg vi) value else s)

/-! ### The admin queue (R447, R448) -/

def admReg (v o : Nat) : Nat := bar0 v (0x1000 + o)

/-- A command can be consumed now. -/
def State.admReady (s : State) (v : Nat) : Bool :=
  s.consuming v && (s.mr (admReg v 0)).getLsbD 0 && s.mr (admReg v 0x18) != s.mr (admReg v 0x10) && !(s.ctx v).busy

/-- The index in the ring and the address of the next command. -/
def State.admSlot (s : State) (v : Nat) : Nat × DWord :=
  let i := (s.mr (admReg v 0x18)).toNat % 2 ^ bitsOf (s.mr (admReg v 8)) 3 0
  (i, BitVec.ofNat 64 (bitsOf (s.mr (admReg v 0)) 56 12 * 4096 + 64 * i))

/-- A command: OPC, CID, ADDR, ARG; OPC 0 where it is none of Table 18-8 or a reserved byte is not zero. -/
structure Command where
  opc : Nat
  cid : BitVec 16
  addr : DWord
  arg : DWord

def Command.ofBytes (bs : List Byte) : Command :=
  let f := fieldOf bs
  let ok : Bool := f 4 4 == 0 && f 24 40 == 0 && 1 ≤ f 0 2 && f 0 2 ≤ 4
  ⟨if ok then f 0 2 else 0, BitVec.ofNat 16 (f 2 2), BitVec.ofNat 64 (f 8 8), BitVec.ofNat 64 (f 16 8)⟩

/-- The command is consumed: ADM_SQ_HEAD advances, and it is in service until its completion is written. -/
def State.consume (s : State) (v : Nat) : State :=
  let s := s.setMr (admReg v 0x18) (BitVec.ofNat 64 (((s.mr (admReg v 0x18)).toNat + 1) % 0x10000))
  s.setCtx v { s.ctx v with busy := true }

/-- A completion waits to be written. -/
def State.complete (s : State) (v : Nat) (cid : BitVec 16) (status : BitVec 8) (result : DWord) : State :=
  s.setCtx v { s.ctx v with adm := (s.ctx v).adm ++ [⟨cid, status, result⟩] }

/-- The bytes at its address that a command reads or writes. -/
def commandBytes (opc : Nat) : Nat := if opc == 1 then 512 else if opc == 2 then imageBytes else if opc == 3 then 128 else 0

/-- The next command, if it has this OPC: `f` gives the machine and the STATUS, none where it cannot be carried out now. -/
def State.command (s : State) (v opc : Nat) (f : State → Command → State × Option (BitVec 8)) : State :=
  if !s.admReady v then s
  else
    match s.devRead v (s.admSlot v).2 64 with
    | (_, .error (.fail _)) => s
    | (t, .error (.later ..)) => t
    | (t, .ok bs) =>
      let c := Command.ofBytes bs
      if c.opc != opc then s
      else
        match f t c with
        | (t, none) => t
        | (t, some st) =>
          ((t.consume v).complete v c.cid st 0).devDone v [((s.admSlot v).2, 64), (c.addr, commandBytes opc)]

/-- A command that cannot be read or is not known is consumed and answered (R448). -/
def State.rejectCommand (s : State) (v : Nat) : State :=
  if !s.admReady v then s
  else
    match s.devRead v (s.admSlot v).2 64 with
    | (t, .error (.later ..)) => t
    | (t, .error (.fail _)) =>
      ((t.consume v).complete v 0xFFFE 2 (BitVec.ofNat 64 (s.admSlot v).1)).devDone v [((s.admSlot v).2, 64)]
    | (t, .ok bs) =>
      let c := Command.ofBytes bs
      if c.opc == 0 then ((t.consume v).complete v c.cid 1 0).devDone v [((s.admSlot v).2, 64)] else s

/-- The doorbell: consumption begins, with a command that cannot be carried out consumed at once. -/
def execAdmSqTailWrite (vi : Nat) (value : BitVec 64) (s : State) : Host.Outcome State Fault Refusal :=
  .next (if vi < 64 then (s.write64 (admReg vi 0x10) value).rejectCommand vi else s)

def execAdmCfgWrite (vi : Nat) (value : BitVec 64) (s : State) : Host.Outcome State Fault Refusal :=
  .next (if vi < 64 then s.write64 (admReg vi 8) value else s)

/-- Bytes go to the command's address: OK, BAD_ADDR, or not now. -/
def State.putAt (s : State) (v : Nat) (a : DWord) (bs : List Byte) : State × Option (BitVec 8) :=
  match s.devStore v a bs with
  | (s, none) => (s, some 0)
  | (s, some (.fail _)) => (s, some 2)
  | (s, some (.later ..)) => (s, none)

/-- Bytes 0x00 to 0x4F of an accounting block. -/
def State.acctBytes (s : State) (v : Nat) : List Byte :=
  (List.range 10).flatMap fun i => bytesOfNat 8 (((s.acct.get v Acct.zero).shown.getD i 0).toNat)

/-- The records of a fault ring between HEAD and TAIL that are of an interface. -/
def State.ringRecords (s : State) (d v : Nat) : Nat :=
  let base := fqReg d 0
  let head := (s.mr (base + 0x10)).toNat
  let n := ((s.mr (base + 0x18)).toNat + 0x10000 - head % 0x10000) % 0x10000
  let at' := fun (i : Nat) => mgmtCell (((s.mr base).toNat / 64 * 64 + 64 * ((head + i) % 2 ^ bitsOf (s.mr (base + 8)) 3 0)) % 2 ^ 32)
  ((List.range n).filter fun i => (Memory.byte s.mem (at' i + 5)).toNat == v).length

/-- The unconsumed fault records of an interface: in the rings, and those that wait. -/
def State.unconsumed (s : State) (v : Nat) : Nat :=
  (List.range 4).foldl (fun n d =>
    n + s.ringRecords d v + ((s.mgmt.fqWait.get d []).filter fun r => (r.extractLsb' 40 8).toNat == v).length) 0

/-- The RESYNC summary (Table 18-10). -/
def State.summary (s : State) (v : Nat) : List Byte :=
  let x := s.ctx v
  let le8 := fun (n : Nat) => bytesOfNat 8 n
  let p := s.viPart v
  let windows := (List.range 4).flatMap fun j =>
    if (s.mr (hwReg j 0)).getLsbD 0 && bitsOf (s.mr (hwReg j 0)) 4 1 == (s.viDies v).toNat then
      le8 (s.mr (hwReg j 1)).toNat ++ le8 (s.mr (hwReg j 2)).toNat
    else List.replicate 16 0
  let queues := (List.range 16).flatMap fun q =>
    let r := fun (i : Nat) => (s.mr (lnqReg v q i)).toNat
    le8 (r 0 % 2 + r 1 % 16 * 2 ^ 4 + r 2 % 0x10000 * 2 ^ 16 + r 3 % 0x10000 * 2 ^ 32)
  let open' := x.launches.filter Launch.incomplete
  let teams := (s.teams.filter fun t => t.2.vi == v).map (·.2)
  let sided := (s.groups.filter fun g => !isRanene (g.1 / 256) && g.2.vi == v).foldl (fun n g =>
    n + (g.2.arch.valid.filter fun i => (g.2.arch.path i).state == .siding).length) 0
  let regs := teams.foldl (fun n t => n + ((x.launch t.launch).map fun l => l.hdr.budget).getD 0) 0
  bytesOfNat 4 1 ++ bytesOfNat 4 v ++ le8 (s.viDies v).toNat ++ bytesOfNat 16 (s.caps v).toNat ++ windows ++
    bytesOfNat 32 x.events.toNat ++ queues ++ le8 open'.length ++ le8 ((open'.map (·.id)).headD 0) ++ le8 x.nextId ++
    bytesOfNat 4 sided ++ bytesOfNat 4 (s.unconsumed v) ++ le8 (s.mr (biasStatReg v)).toNat ++
    le8 (s.mgmt.flips.filter fun f => f.part == p).length ++ bytesOfNat 4 teams.length ++
    bytesOfNat 4 (teams.foldl (fun n t => n + t.groups.length) 0) ++ le8 regs ++ s.acctBytes v ++ le8 s.ns ++ List.replicate 104 0

def execResync (vi : Nat) (s : State) : Host.Outcome State Fault Refusal :=
  .next (s.command vi 1 fun s c => s.putAt vi c.addr (s.summary vi))

/-- IMAGE_LOAD (R450). -/
def execImageLoad (vi : Nat) (s : State) : Host.Outcome State Fault Refusal :=
  .next (s.command vi 2 fun s c =>
    if c.arg != 6 && c.arg != 7 then (s, some 1)
    else if !(s.caps vi).getLsbD 11 then (s, some 3)
    else
      match s.devRead vi c.addr imageBytes with
      | (s, .error (.later ..)) => (s, none)
      | (s, .error (.fail _)) => (s, some 2)
      | (s, .ok bs) =>
        let (s, code) := s.loadImage c.arg.toNat (some bs)
        (s, some (if code == 0 then 0 else BitVec.ofNat 8 (0x10 + code))))

def execAcct (vi : Nat) (s : State) : Host.Outcome State Fault Refusal :=
  .next (s.command vi 3 fun s c => s.putAt vi c.addr (s.acctBytes vi ++ List.replicate 48 0))

/-- CTX_RESET (Table 18-8). -/
def State.ctxReset (s : State) (v : Nat) : State :=
  let s := (s.teams.filter fun t => t.2.vi == v).foldl (fun s t => s.killTeam t.1 t.2) s
  let s := ((s.ctx v).launches.filter Launch.incomplete).foldl (fun s l =>
    let gone := l.sent.filter fun t => !l.retired.contains t
    (s.editLaunch v l.id fun l => { l with state := .failed, status := 0x46, killed := gone }).adminEvent v 0x80
      (BitVec.ofNat 64 l.id)) s
  let s := (List.range 16).foldl (fun s q => if (s.mr (lnqReg v q 0)).getLsbD 0 then s.disableQueue v q false else s) s
  s.setEvents v fun _ => 0

def execCtxReset (vi : Nat) (s : State) : Host.Outcome State Fault Refusal :=
  .next (s.command vi 4 fun s _ => (s.ctxReset vi, some 0))

/-- The completion ring has room. -/
def State.admRoom (s : State) (v : Nat) : Bool :=
  (s.mr (admReg v 0x20)).getLsbD 0 &&
    ((s.mr (admReg v 0x30)).toNat + 0x10000 - (s.mr (admReg v 0x28)).toNat % 0x10000) % 0x10000 < 2 ^ bitsOf (s.mr (admReg v 8)) 7 4

/-- The oldest completion is written, ADM_CQ_TAIL advances and vector 0 is raised; a write that fails disables both rings
(R447). -/
def State.writeCompletion (s : State) (v : Nat) : State :=
  match (s.ctx v).adm with
  | [] => s
  | e :: rest =>
    if !s.viEnabled v || !s.admRoom v then s
    else
      let tail := (s.mr (admReg v 0x30)).toNat
      let a := bitsOf (s.mr (admReg v 0x20)) 56 12 * 4096 + 16 * (tail % 2 ^ bitsOf (s.mr (admReg v 8)) 7 4)
      let bs := bytesOfNat 2 e.cid.toNat ++ [e.status] ++ List.replicate 5 0 ++ bytesOfNat 8 e.result.toNat
      let spent := fun (s : State) =>
        (s.setCtx v { s.ctx v with adm := rest, busy := (s.ctx v).busy && e.cid == 0xFFFF }).devDone v [(BitVec.ofNat 64 a, 16)]
      match s.devStore v (BitVec.ofNat 64 a) bs with
      | (s, some (.later ..)) => s
      | (s, some (.fail _)) => (spent s).disableAdmin v
      | (s, none) => ((spent s).setMr (admReg v 0x30) (BitVec.ofNat 64 ((tail + 1) % 0x10000))).raiseMsix v 0

def execAdminCompletionWrite (vi : Nat) (s : State) : Host.Outcome State Fault Refusal := .next (s.writeCompletion vi)

/-! ### Halts, accounting, attestation (R452 to R458) -/

def execHaltWrite (die : Nat) (value : BitVec 8) (s : State) : Host.Outcome State Fault Refusal :=
  .next (s.haltKill (die % 4) value)

def execAccountingUpdate (vi : Nat) (s : State) : Host.Outcome State Fault Refusal :=
  .next (if s.viEnabled vi then s.updateAcct vi else s)

/-- ACCT_READ over MCTP: completion code 0, the interface, and bytes 0x00 to 0x4F of its block. -/
def execAcctRead (vi : Nat) (s : State) : Host.Outcome State Fault Refusal :=
  .next (s.answerHost 6 vi false ((0 : Byte) :: BitVec.ofNat 8 vi :: s.acctBytes (vi % 64)))

/-- A numeric sensor: what it measures is not the model's, a free value (log 15). -/
def execPldmSensorRead (sensor : Nat) (s : State) : Host.Outcome State Fault Refusal :=
  let (x, s) := s.fresh
  .next (s.answerHost 7 sensor false ((0 : Byte) :: bytesOfNat 4 x.toNat))

/-- n bytes that no rule fixes. -/
def State.freeBytes : Nat → State → List Byte × State
  | 0, s => ([], s)
  | n + 1, s =>
    let (x, s) := s.fresh
    let (bs, s) := State.freeBytes n s
    (x.setWidth 8 :: bs, s)

/-- A DMTF measurement block of index i: its header, the value's type (a raw bit stream; which of the DMTF types it is is a free
value), its size, and MEAS[i] (R458; the layout is that of DSP0274, PRESUMED, log 13). -/
def measurementBlock (i type : Nat) (x : BitVec 512) : List Byte :=
  [BitVec.ofNat 8 i, 1] ++ bytesOfNat 2 67 ++ [BitVec.ofNat 8 (128 + type % 128)] ++ bytesOfNat 2 64 ++ bytesOfNat 64 x.toNat

/-- The body of an SPDM response that R458 states: VERSION has 1.2 and 1.3; CAPABILITIES CERT, CHAL, MEAS with signature, KEY_EX,
and the encryption and authentication of its sessions; ALGORITHMS Ed448, SHA3-512, DMTF raw bit streams, secp384r1 and
AES-256-GCM; DIGESTS, CERTIFICATE and CHALLENGE_AUTH are of slot 0; MEASUREMENTS has the blocks of indices 1 to 4. -/
def State.spdmBody (s : State) (code : BitVec 8) (x : DWord) : List Byte :=
  match code.toNat with
  | 0x84 => [2, 0x00, 0x12, 0x00, 0x13]
  | 0xE1 => bytesOfNat 4 0x2D6
  | 0xE3 => [1] ++ bytesOfNat 4 1 ++ bytesOfNat 4 0x800 ++ bytesOfNat 4 0x20 ++ bytesOfNat 2 0x10 ++ bytesOfNat 2 2
  | 0x81 => [1]
  | 0x82 => [0]
  | 0x83 => [0, 1]
  | 0xE0 => [4] ++ (List.range 4).flatMap fun i =>
      measurementBlock (i + 1) (x.toNat / 128 ^ i) (s.mgmt.meas.getD i 0)
  | _ => []

/-- How many bytes that no rule fixes follow: a signature, a digest, a part of the certificate chain. -/
def spdmOpen (code : BitVec 8) : Nat :=
  match code.toNat with
  | 0x83 | 0xE0 | 0xE4 => 114
  | 0x81 => 64
  | 0x84 | 0xE1 | 0xE3 | 0xE5 | 0xEC | 0xFE => 0
  | _ => 8

/-- IDE_KM: the keys of both ports are programmed; their values come from the session, free values. -/
def State.programKeys (s : State) : State :=
  (List.range 2).foldl (fun s port =>
    let (x, s) := s.fresh
    { s with out := { s.out with ide := s.out.ide.put port x } }) s

/-- An SPDM request (R458), by its code: the response's code and body. The signed ones (MEASUREMENTS, CHALLENGE_AUTH,
KEY_EXCHANGE_RSP) come only after READY, with ERROR (0x7F) before. KEY_EXCHANGE opens a session, END_SESSION closes it, and a
vendor-defined request, by which IDE_KM programs the ports' keys, is served in a session only. Codes and layouts are those of
DSP0274 (PRESUMED, log 13). -/
def State.spdm (s : State) (code : BitVec 8) : State :=
  let signed := code == 0xE0 || code == 0x83 || code == 0xE4
  let inside := code == 0xFE || code == 0xE5 || code == 0xEC
  if (signed && !s.mgmt.ready) || (inside && !s.out.session) then s.answerHost 8 code.toNat false [0x7F]
  else
    let (x, s) := s.fresh
    let body := s.spdmBody code x
    let (sig, s) := State.freeBytes (spdmOpen code) s
    let s := if code == 0xFE then s.programKeys else s
    let session := (s.out.session || code == 0xE4) && code != 0xEC
    { s with out := { s.out with session := session } }.answerHost 8 code.toNat false ((code &&& 0x7F) :: body ++ sig)

def execSpdmRequest (code : BitVec 8) (s : State) : Host.Outcome State Fault Refusal := .next (s.spdm code)

/-! ### Other registers (15 R373, 18 R432, R433) -/

def execFqCfgWrite (die : Nat) (value : BitVec 64) (s : State) : Host.Outcome State Fault Refusal :=
  .next (s.write64 (fqReg (die % 4) 1) value)

/-- A write of a register of the management window by its offset, or of a word of management memory. -/
def execRegisterWrite (off : Nat) (value : BitVec 64) (s : State) : Host.Outcome State Fault Refusal :=
  .next (if off % 8 != 0 then s
    else if isMgmtMem off then s.writeBytes (mgmtCell off) (bytesOfNat 8 value.toNat)
    else s.write64 off value)

end Sys2Proof.Machine
end

