-- ==== Sys2Proof/Machine/Cross.lean ====
section
/-!
DEFINITION. The cross-lane instructions XSHF, XRED, XSCAN, XVOTE and the execution-mask instructions (09 R245 to R252).
They act once over the active lanes of the stream (R232). XSHF, XVOTE and the mask forms write in the step that dispatches
them; the value of an XRED or XSCAN arrives later.
-/
namespace Sys2Proof.Machine

/-- The operations of XRED and XSCAN (03 Table 03-10). -/
inductive RedOp where
  | addI | minI | maxI | minu | maxu | and | or | xor | addF | minF | maxF
  deriving DecidableEq, Repr

/-- The lanes of the group that have not exited (R228). -/
def Arch.live (a : Arch) : Mask := a.maskOf a.valid

/-- The exact sum of F32 words, rounded once (R247): any NaN gives NaN, infinities of both signs NaN with NV. A NaN
beside infinities of both signs raises no NV (DESIGN CHOICE, log 58). -/
def sumF32 (r : Rnd) (xs : List Word) : Word × Flags :=
  let vs := xs.map fun x => Fmt.f32.value x.toNat
  if vs.any (·.isNan) then word32 (Fmt.f32.nanBits, 0)
  else
    match vs with
    | [] => (0, 0)
    | v :: rest =>
      let z := rest.foldl (fun (p : Fp × Flags) x =>
        match p.1 with
        | .nan => p
        | y => Fp.add r y x) (v, 0)
      word32 (Fmt.f32.roundF r z)

/-- The least or greatest of F32 words; any NaN, a lone one too, gives the canonical NaN (R247). -/
def foldMinmax (max : Bool) : List Word → Word
  | [] => 0
  | x :: rest =>
    let f := fun (x y : Word) => BitVec.ofNat 32 (Fmt.f32.minmax max x.toNat y.toNat)
    rest.foldl f (f x x)

/-- One value over the contributions, in lane order (R247). -/
def redOp (o : RedOp) (r : Rnd) (xs : List Word) : Word × Flags :=
  let fold := fun (f : Word → Word → Word) => match xs with
    | [] => ((0 : Word), (0 : Flags))
    | x :: rest => (rest.foldl f x, 0)
  match o with
  | .addI => fold (· + ·)
  | .minI => fold (aluOp .min)
  | .maxI => fold (aluOp .max)
  | .minu => fold (aluOp .minu)
  | .maxu => fold (aluOp .maxu)
  | .and => fold (· &&& ·)
  | .or => fold (· ||| ·)
  | .xor => fold (· ^^^ ·)
  | .addF => sumF32 r xs
  | .minF => (foldMinmax false xs, 0)
  | .maxF => (foldMinmax true xs, 0)

/-- The contributors of a member mask, or the MEMBER trap (R245). -/
def Ctx.members (c : Ctx) (act : Mask) (x : DWord) : Except Stop Mask :=
  let m : Mask := x.setWidth 32
  let out := act &&& ~~~ m
  if out == 0 then .ok (m &&& c.src.live)
  else .error (.trap { FaultInfo.withOperand causeMember (m.setWidth 64) with mask := some out })

/-- The checks of a cross-lane instruction with vector fields D and A, and B where it names a vector. -/
def Ctx.crossCheck (c : Ctx) (s : State) (m : ModX) (d a : BitVec 6) (b : Option (BitVec 6)) : Except Stop Unit :=
  let n : Need := ⟨c.isW d || c.isW a || b.any c.isW, [d.toNat], .l, (c.src.vreg d.toNat).place == .l, [], []⟩
  let n := { n with place := (c.src.vreg d.toNat).place }
  let n := n.source m.ta a.toNat
  c.checkOnce s (match b with
    | some b => n.source m.tb b.toNat
    | none => n)

/-- Writes active lanes of v[D] at L. -/
def Ctx.crossWrite (c : Ctx) (s : State) (d : BitVec 6) (act : Mask) (f : Nat → Word) : State :=
  c.putArch s (c.g.arch.writeV d.toNat act (Vector.ofFn fun i => f i.val))

/-- XRED and XSCAN are long-latency producers: v[D] is empty until the words arrive (R217, R247). -/
def Ctx.crossPost (c : Ctx) (s : State) (d : BitVec 6) (act : Mask) (w : Vector Word 32) (flags : BitVec 5) : State :=
  let e : Entry := { c.entry .l (.cross d.toNat act w) with flags := flags }
  c.put s { c.g with arch := c.g.arch.oweV d.toNat c.pos act, rob := c.g.rob ++ [e] }

/-- XSHF: lane i takes the word of lane `f i` of A (R246). -/
def shuffle (q : Quals) (d a : BitVec 6) (b : Option (BitVec 6)) (f : Ctx → Nat → Except Stop Nat) :
    Ctx → State → Except Stop State :=
  once q fun c s => do
    let m := Quals.modx q
    c.crossCheck s m d a b
    let lanes ← (List.range 32).mapM (f c)
    let r := c.src.vreg a.toNat
    .ok (c.crossWrite s d (c.active q) fun i => r.through m.pa m.pax (lanes.getD i 0))

/-- XRED and XSCAN: `upto` says whether lane i takes only the contributors up to itself. -/
def reduce (o : RedOp) (upto : Bool) (q : Quals) (d a b : BitVec 6) : Ctx → State → Except Stop State :=
  once q fun c s => do
    let m := Quals.modx q
    let act := c.active q
    c.crossCheck s m d a none
    let x ← c.s b
    let who ← c.members act x
    let rm : BitVec 3 := c.src.fcr.extractLsb' 0 3
    let r := c.src.vreg a.toNat
    let val := fun (i : Nat) =>
      let js := (Mask.list who).filter fun j => !upto || j ≤ i
      redOp o (Rnd.of rm (if upto then ditherPos i 0 else 0) c.src.dph) (js.map fun j => r.through m.pa m.pax j)
    let one := val 0
    let rs := (Mask.list act).map fun i => (i, if upto then val i else one)
    match fpTrap c.src.fcr .l (rs.map fun x => (x.1, x.2.2)) with
    | some f => .error (.trap f)
    | none =>
      .ok (c.crossPost s d act (wordsOf rs) (allFlags (rs.map fun x => (x.1, x.2.2))))

/-! ### XSHF -/

def execShfl (q : Quals) (d a b : BitVec 6) (s : State) : Host.Outcome State Fault Refusal :=
  runThen s (shuffle q d a (some b) fun c i =>
    .ok (((c.src.vreg b.toNat).through (Quals.modx q).pb (Quals.modx q).pbx i).toNat % 32))

def execShfls (q : Quals) (d a b : BitVec 6) (s : State) : Host.Outcome State Fault Refusal :=
  runThen s (shuffle q d a none fun c i => (c.s b).map fun x => (i + x.toNat % 32) % 32)

/-! ### XRED and XSCAN -/

def execXredAddI32 (q : Quals) (d a b : BitVec 6) (s : State) : Host.Outcome State Fault Refusal :=
  runThen s (reduce .addI false q d a b)

def execXredMinI32 (q : Quals) (d a b : BitVec 6) (s : State) : Host.Outcome State Fault Refusal :=
  runThen s (reduce .minI false q d a b)

def execXredMaxI32 (q : Quals) (d a b : BitVec 6) (s : State) : Host.Outcome State Fault Refusal :=
  runThen s (reduce .maxI false q d a b)

def execXredMinu (q : Quals) (d a b : BitVec 6) (s : State) : Host.Outcome State Fault Refusal :=
  runThen s (reduce .minu false q d a b)

def execXredMaxu (q : Quals) (d a b : BitVec 6) (s : State) : Host.Outcome State Fault Refusal :=
  runThen s (reduce .maxu false q d a b)

def execXredAnd (q : Quals) (d a b : BitVec 6) (s : State) : Host.Outcome State Fault Refusal :=
  runThen s (reduce .and false q d a b)

def execXredOr (q : Quals) (d a b : BitVec 6) (s : State) : Host.Outcome State Fault Refusal :=
  runThen s (reduce .or false q d a b)

def execXredXor (q : Quals) (d a b : BitVec 6) (s : State) : Host.Outcome State Fault Refusal :=
  runThen s (reduce .xor false q d a b)

def execXredAddF32 (q : Quals) (d a b : BitVec 6) (s : State) : Host.Outcome State Fault Refusal :=
  runThen s (reduce .addF false q d a b)

def execXredMinF32 (q : Quals) (d a b : BitVec 6) (s : State) : Host.Outcome State Fault Refusal :=
  runThen s (reduce .minF false q d a b)

def execXredMaxF32 (q : Quals) (d a b : BitVec 6) (s : State) : Host.Outcome State Fault Refusal :=
  runThen s (reduce .maxF false q d a b)

def execXscanAddI32 (q : Quals) (d a b : BitVec 6) (s : State) : Host.Outcome State Fault Refusal :=
  runThen s (reduce .addI true q d a b)

def execXscanAddF32 (q : Quals) (d a b : BitVec 6) (s : State) : Host.Outcome State Fault Refusal :=
  runThen s (reduce .addF true q d a b)

def execXscanMaxF32 (q : Quals) (d a b : BitVec 6) (s : State) : Host.Outcome State Fault Refusal :=
  runThen s (reduce .maxF true q d a b)

def execXscanMinF32 (q : Quals) (d a b : BitVec 6) (s : State) : Host.Outcome State Fault Refusal :=
  runThen s (reduce .minF true q d a b)

def execXscanMaxI32 (q : Quals) (d a b : BitVec 6) (s : State) : Host.Outcome State Fault Refusal :=
  runThen s (reduce .maxI true q d a b)

def execXscanOr (q : Quals) (d a b : BitVec 6) (s : State) : Host.Outcome State Fault Refusal :=
  runThen s (reduce .or true q d a b)

/-! ### XVOTE (R249) -/

/-- A vote over a predicate of the contributors: each active lane of p[D] gets it. -/
def vote (f : Mask → Mask → Bool) (q : Quals) (d a b : BitVec 6) : Ctx → State → Except Stop State :=
  once q fun c s => do
    let x ← c.s b
    let who ← c.members (c.active q) x
    .ok (c.putArch s (c.g.arch.setP d (c.active q) (if f who (c.src.preg a) then 0xFFFFFFFF else 0)))

def execXvoteAll (q : Quals) (d a b : BitVec 6) (s : State) : Host.Outcome State Fault Refusal :=
  runThen s (vote (fun who x => who &&& ~~~ x == 0) q d a b)

def execXvoteAny (q : Quals) (d a b : BitVec 6) (s : State) : Host.Outcome State Fault Refusal :=
  runThen s (vote (fun who x => who &&& x != 0) q d a b)

def execXvoteBallot (q : Quals) (d a b : BitVec 6) (s : State) : Host.Outcome State Fault Refusal :=
  runThen s (once q fun c s => do
    let x ← c.s b
    let who ← c.members (c.active q) x
    .ok (c.writeS s d ((who &&& c.src.preg a).setWidth 64)))

def execXvoteMatch (q : Quals) (d a b : BitVec 6) (s : State) : Host.Outcome State Fault Refusal :=
  runThen s (once q fun c s => do
    let m := Quals.modx q
    c.crossCheck s m d a none
    let x ← c.s b
    let who ← c.members (c.active q) x
    let r := fun (i : Nat) => (c.src.vreg a.toNat).through m.pa m.pax i
    .ok (c.crossWrite s d (c.active q) fun l => Mask.ofList ((Mask.list who).filter fun j => r j == r l)))

/-! ### LANE (R251) -/

def execEmrd (_q : Quals) (d : BitVec 6) (s : State) : Host.Outcome State Fault Refusal :=
  runThen s fun c s => .ok (c.writeS s d (c.em.setWidth 64))

/-- EMWR: the mask must lie within the stream's lanes; each entry takes its part. -/
def execEmwr (_q : Quals) (a : BitVec 6) (s : State) : Host.Outcome State Fault Refusal :=
  runThen s fun c s => do
    let x ← c.s a
    let m : Mask := x.setWidth 32
    require (bitsOf x 63 32 == 0 && m &&& ~~~ c.src.maskOf c.ents == 0) (FaultInfo.ofCause causeEmOutsidePath)
    .ok (c.putArch s (c.g.arch.editPaths c.ents fun p => { p with em := m &&& p.mask }))

def execEmp (_q : Quals) (d : BitVec 6) (s : State) : Host.Outcome State Fault Refusal :=
  runThen s fun c s => .ok (c.putArch s (c.g.arch.setP d 0xFFFFFFFF c.em))

end Sys2Proof.Machine
end

