-- ==== Sys2Proof/Machine/Vector.lean ====
section
/-!
DEFINITION. The vector integer and predicate instructions: VALU, VALUI, VALU2, VCMP, VMOV, PLOG, PMOV and LANEID
(09 R237 to R244, R251).
-/
namespace Sys2Proof.Machine

/-- A lane-wise instruction under its guard, with fields D, A and B; B is an immediate where one is given. -/
def laneGuarded (o : LaneOp) (q : Quals) (d a b : BitVec 6) (imm : Option Word) (c : Ctx) (s : State) : Except Stop State :=
  c.laneWise s o (Quals.modx q) (c.active q) d a b 0 imm 0

/-- The EXT.IMM of an integer vector head. -/
def Quals.immV (q : Quals) : Option Word := (Quals.imm? q).map imm25V

/-- A compare of lanes into p[D]: executes at L, sources elsewhere travel to it (R240, 08 R208). -/
def Ctx.compareLanes (c : Ctx) (s : State) (q : Quals) (d a b : BitVec 6) (two : Bool) (imm : Option Word)
    (f : Word → Word → Bool × Flags) : Except Stop State := do
  let m := Quals.modx q
  let act := c.active q
  let hs := (c.halves act).map fun h => c.half h.1 h.2 0 a b 0 imm 0
  let meld := (m.pa != 0 && c.isW a) || (m.pb != 0 && two && imm.isNone && c.isW b)
  let need := fun (h : Half) =>
    let n := { Need.atL with meld := meld }.source m.ta h.a
    if two && imm.isNone then n.source m.tb h.b else n
  let bad ← c.checkHalves s (hs.map fun h => (h.ent, need h))
  let good := hs.filter fun h => !(bad.any fun b => b.1 == h.ent)
  let rs := good.map fun h => (h, (Mask.list h.act).map fun l =>
    let (x, y, _, _) := h.word c.src m l
    (l, f x y))
  let fp := rs.filterMap fun x => (fpTrap c.src.fcr .l (x.2.map fun r => (r.1, r.2.2))).map fun t => (x.1.ent, t)
  let bad := c.ents.filterMap fun i => (bad ++ fp).find? fun b => b.1 == i
  let (s, c) ← c.leave s bad
  let a := rs.foldl (fun (a : Arch) x =>
    if bad.any fun b => b.1 == x.1.ent then a
    else
      let t := Mask.ofList ((x.2.filter fun r => r.2.1).map (·.1))
      (a.setP d x.1.act t).addFlags (allFlags (x.2.map fun r => (r.1, r.2.2)))) c.g.arch
  .ok (c.finish (c.putArch s a))

/-- The VCMP conditions (R240). -/
inductive VCond where
  | eq | ne | lt | le | gt | ge | ltu | leu | gtu | geu | bt
  deriving DecidableEq, Repr

def icmpOp (o : VCond) (x y : Word) : Bool :=
  match o with
  | .eq => x == y
  | .ne => x != y
  | .lt => x.slt y
  | .le => x.sle y
  | .gt => y.slt x
  | .ge => y.sle x
  | .ltu => x.ult y
  | .leu => x.ule y
  | .gtu => y.ult x
  | .geu => y.ule x
  | .bt => x.getLsbD (y.toNat % 32)

def vectorCmp (o : VCond) (q : Quals) (d a b : BitVec 6) (c : Ctx) (s : State) : Except Stop State :=
  c.compareLanes s q d a b true (Quals.immV q) fun x y => (icmpOp o x y, 0)

/-- PLOG: p[D] in the active lanes (R243). -/
def predLogic (f : Mask → Mask → Mask) (q : Quals) (d a b : BitVec 6) : Ctx → State → Except Stop State :=
  fun c s => .ok (c.putArch s (c.g.arch.setP d (c.active q) (f (c.src.preg a) (c.src.preg b))))

/-! ### VALU and VALUI -/

def execIadd (q : Quals) (d a b : BitVec 6) (s : State) : Host.Outcome State Fault Refusal :=
  run s (laneGuarded (.alu .add) q d a b (Quals.immV q))

def execIsub (q : Quals) (d a b : BitVec 6) (s : State) : Host.Outcome State Fault Refusal :=
  run s (laneGuarded (.alu .sub) q d a b (Quals.immV q))

def execImul (q : Quals) (d a b : BitVec 6) (s : State) : Host.Outcome State Fault Refusal :=
  run s (laneGuarded (.alu .mul) q d a b (Quals.immV q))

def execImulhi (q : Quals) (d a b : BitVec 6) (s : State) : Host.Outcome State Fault Refusal :=
  run s (laneGuarded (.alu .mulhi) q d a b (Quals.immV q))

def execImulhu (q : Quals) (d a b : BitVec 6) (s : State) : Host.Outcome State Fault Refusal :=
  run s (laneGuarded (.alu .mulhu) q d a b (Quals.immV q))

def execAnd (q : Quals) (d a b : BitVec 6) (s : State) : Host.Outcome State Fault Refusal :=
  run s (laneGuarded (.alu .and) q d a b (Quals.immV q))

def execOr (q : Quals) (d a b : BitVec 6) (s : State) : Host.Outcome State Fault Refusal :=
  run s (laneGuarded (.alu .or) q d a b (Quals.immV q))

def execXor (q : Quals) (d a b : BitVec 6) (s : State) : Host.Outcome State Fault Refusal :=
  run s (laneGuarded (.alu .xor) q d a b (Quals.immV q))

def execAndn (q : Quals) (d a b : BitVec 6) (s : State) : Host.Outcome State Fault Refusal :=
  run s (laneGuarded (.alu .andn) q d a b (Quals.immV q))

def execShl (q : Quals) (d a b : BitVec 6) (s : State) : Host.Outcome State Fault Refusal :=
  run s (laneGuarded (.alu .shl) q d a b (Quals.immV q))

def execShr (q : Quals) (d a b : BitVec 6) (s : State) : Host.Outcome State Fault Refusal :=
  run s (laneGuarded (.alu .shr) q d a b (Quals.immV q))

def execSar (q : Quals) (d a b : BitVec 6) (s : State) : Host.Outcome State Fault Refusal :=
  run s (laneGuarded (.alu .sar) q d a b (Quals.immV q))

def execImin (q : Quals) (d a b : BitVec 6) (s : State) : Host.Outcome State Fault Refusal :=
  run s (laneGuarded (.alu .min) q d a b (Quals.immV q))

def execImax (q : Quals) (d a b : BitVec 6) (s : State) : Host.Outcome State Fault Refusal :=
  run s (laneGuarded (.alu .max) q d a b (Quals.immV q))

def execIminu (q : Quals) (d a b : BitVec 6) (s : State) : Host.Outcome State Fault Refusal :=
  run s (laneGuarded (.alu .minu) q d a b (Quals.immV q))

def execImaxu (q : Quals) (d a b : BitVec 6) (s : State) : Host.Outcome State Fault Refusal :=
  run s (laneGuarded (.alu .maxu) q d a b (Quals.immV q))

def execIaddImm6 (q : Quals) (d a i : BitVec 6) (s : State) : Host.Outcome State Fault Refusal :=
  run s (laneGuarded (.alu .add) q d a 0 (some (imm6V i)))

def execIsubImm6 (q : Quals) (d a i : BitVec 6) (s : State) : Host.Outcome State Fault Refusal :=
  run s (laneGuarded (.alu .sub) q d a 0 (some (imm6V i)))

def execImulImm6 (q : Quals) (d a i : BitVec 6) (s : State) : Host.Outcome State Fault Refusal :=
  run s (laneGuarded (.alu .mul) q d a 0 (some (imm6V i)))

def execImulhiImm6 (q : Quals) (d a i : BitVec 6) (s : State) : Host.Outcome State Fault Refusal :=
  run s (laneGuarded (.alu .mulhi) q d a 0 (some (imm6V i)))

def execImulhuImm6 (q : Quals) (d a i : BitVec 6) (s : State) : Host.Outcome State Fault Refusal :=
  run s (laneGuarded (.alu .mulhu) q d a 0 (some (imm6V i)))

def execAndImm6 (q : Quals) (d a i : BitVec 6) (s : State) : Host.Outcome State Fault Refusal :=
  run s (laneGuarded (.alu .and) q d a 0 (some (imm6V i)))

def execOrImm6 (q : Quals) (d a i : BitVec 6) (s : State) : Host.Outcome State Fault Refusal :=
  run s (laneGuarded (.alu .or) q d a 0 (some (imm6V i)))

def execXorImm6 (q : Quals) (d a i : BitVec 6) (s : State) : Host.Outcome State Fault Refusal :=
  run s (laneGuarded (.alu .xor) q d a 0 (some (imm6V i)))

def execAndnImm6 (q : Quals) (d a i : BitVec 6) (s : State) : Host.Outcome State Fault Refusal :=
  run s (laneGuarded (.alu .andn) q d a 0 (some (imm6V i)))

def execShlImm6 (q : Quals) (d a i : BitVec 6) (s : State) : Host.Outcome State Fault Refusal :=
  run s (laneGuarded (.alu .shl) q d a 0 (some (imm6V i)))

def execShrImm6 (q : Quals) (d a i : BitVec 6) (s : State) : Host.Outcome State Fault Refusal :=
  run s (laneGuarded (.alu .shr) q d a 0 (some (imm6V i)))

def execSarImm6 (q : Quals) (d a i : BitVec 6) (s : State) : Host.Outcome State Fault Refusal :=
  run s (laneGuarded (.alu .sar) q d a 0 (some (imm6V i)))

def execIminImm6 (q : Quals) (d a i : BitVec 6) (s : State) : Host.Outcome State Fault Refusal :=
  run s (laneGuarded (.alu .min) q d a 0 (some (imm6V i)))

def execImaxImm6 (q : Quals) (d a i : BitVec 6) (s : State) : Host.Outcome State Fault Refusal :=
  run s (laneGuarded (.alu .max) q d a 0 (some (imm6V i)))

def execIminuImm6 (q : Quals) (d a i : BitVec 6) (s : State) : Host.Outcome State Fault Refusal :=
  run s (laneGuarded (.alu .minu) q d a 0 (some (imm6V i)))

def execImaxuImm6 (q : Quals) (d a i : BitVec 6) (s : State) : Host.Outcome State Fault Refusal :=
  run s (laneGuarded (.alu .maxu) q d a 0 (some (imm6V i)))

/-! ### VALU2 -/

def execImad (q : Quals) (d a b : BitVec 6) (s : State) : Host.Outcome State Fault Refusal :=
  run s (laneGuarded (.v2 .imad) q d a b (Quals.immV q))

def execBfe (q : Quals) (d a b : BitVec 6) (s : State) : Host.Outcome State Fault Refusal :=
  run s (laneGuarded (.v2 .bfe) q d a b (Quals.immV q))

def execBfi (q : Quals) (d a b : BitVec 6) (s : State) : Host.Outcome State Fault Refusal :=
  run s (laneGuarded (.v2 .bfi) q d a b (Quals.immV q))

def execBysel (q : Quals) (d a b : BitVec 6) (s : State) : Host.Outcome State Fault Refusal :=
  run s (laneGuarded (.v2 .bysel) q d a b (Quals.immV q))

def execI8dot4 (q : Quals) (d a b : BitVec 6) (s : State) : Host.Outcome State Fault Refusal :=
  run s (laneGuarded (.v2 .i8dot4) q d a b (Quals.immV q))

def execN8dot4 (q : Quals) (d a b : BitVec 6) (s : State) : Host.Outcome State Fault Refusal :=
  run s (laneGuarded (.v2 .n8dot4) q d a b (Quals.immV q))

def execVclz (q : Quals) (d a : BitVec 6) (s : State) : Host.Outcome State Fault Refusal :=
  run s (laneGuarded (.v2 .clz) q d a 0 none)

def execVpopc (q : Quals) (d a : BitVec 6) (s : State) : Host.Outcome State Fault Refusal :=
  run s (laneGuarded (.v2 .popc) q d a 0 none)

def execVbrev (q : Quals) (d a : BitVec 6) (s : State) : Host.Outcome State Fault Refusal :=
  run s (laneGuarded (.v2 .brev) q d a 0 none)

/-! ### VCMP -/

def execIcmpEq (q : Quals) (d a b : BitVec 6) (s : State) : Host.Outcome State Fault Refusal :=
  run s (vectorCmp .eq q d a b)

def execIcmpNe (q : Quals) (d a b : BitVec 6) (s : State) : Host.Outcome State Fault Refusal :=
  run s (vectorCmp .ne q d a b)

def execIcmpLt (q : Quals) (d a b : BitVec 6) (s : State) : Host.Outcome State Fault Refusal :=
  run s (vectorCmp .lt q d a b)

def execIcmpLe (q : Quals) (d a b : BitVec 6) (s : State) : Host.Outcome State Fault Refusal :=
  run s (vectorCmp .le q d a b)

def execIcmpGt (q : Quals) (d a b : BitVec 6) (s : State) : Host.Outcome State Fault Refusal :=
  run s (vectorCmp .gt q d a b)

def execIcmpGe (q : Quals) (d a b : BitVec 6) (s : State) : Host.Outcome State Fault Refusal :=
  run s (vectorCmp .ge q d a b)

def execIcmpLtu (q : Quals) (d a b : BitVec 6) (s : State) : Host.Outcome State Fault Refusal :=
  run s (vectorCmp .ltu q d a b)

def execIcmpLeu (q : Quals) (d a b : BitVec 6) (s : State) : Host.Outcome State Fault Refusal :=
  run s (vectorCmp .leu q d a b)

def execIcmpGtu (q : Quals) (d a b : BitVec 6) (s : State) : Host.Outcome State Fault Refusal :=
  run s (vectorCmp .gtu q d a b)

def execIcmpGeu (q : Quals) (d a b : BitVec 6) (s : State) : Host.Outcome State Fault Refusal :=
  run s (vectorCmp .geu q d a b)

def execIcmpBt (q : Quals) (d a b : BitVec 6) (s : State) : Host.Outcome State Fault Refusal :=
  run s (vectorCmp .bt q d a b)

/-! ### VMOV and LANEID -/

def execVmov (q : Quals) (d a : BitVec 6) (s : State) : Host.Outcome State Fault Refusal :=
  run s (laneGuarded .mov q d a 0 none)

/-- SEL: the guard is the selector, and every lane of %em is written (R241, 03 R67). -/
def execSel (q : Quals) (d a b : BitVec 6) (s : State) : Host.Outcome State Fault Refusal :=
  run s fun c s => c.laneWise s .sel (Quals.modx q) c.em d a b 0 none (c.guard q)

/-- BCST: the low word of s[A], sampled at dispatch. -/
def execBcst (q : Quals) (d a : BitVec 6) (s : State) : Host.Outcome State Fault Refusal :=
  run s fun c s =>
    if c.active q == 0 then .ok (c.finish s)
    else do
      let x ← c.s a
      laneGuarded .splat q d 0 0 (some (x.setWidth 32)) c s

def execLdiv (g : BitVec 3) (d : BitVec 6) (v : BitVec 25) (s : State) : Host.Outcome State Fault Refusal :=
  run s (laneGuarded .splat (quals g) d 0 0 (some (imm25V v)))

/-- VINS: lane B of v[D], active or not, once for the group; it must not rename (R241, R242). -/
def execVins (q : Quals) (d a b : BitVec 6) (s : State) : Host.Outcome State Fault Refusal :=
  run s fun c s =>
    if c.active q == 0 then .ok (c.finish s)
    else do
      let x ← c.s a
      let h : Half := { ent := c.iss.ent, act := Mask.one b.toNat, d := d.toNat, a := 0, b := 0, c := 0,
                        imm := some (x.setWidth 32), sel := 0, place := (c.src.vreg d.toNat).place }
      c.checkOnce s { (LaneOp.vins b.toNat).need c (Quals.modx q) (c.isW d) h with waits := [] }
      c.laneHalves s (.vins b.toNat) (Quals.modx q) false [h]

def execLaneid (q : Quals) (d : BitVec 6) (s : State) : Host.Outcome State Fault Refusal :=
  run s (laneGuarded .laneid q d 0 0 none)

/-! ### PLOG -/

def execPand (q : Quals) (d a b : BitVec 6) (s : State) : Host.Outcome State Fault Refusal :=
  runThen s (predLogic (fun x y => x &&& y) q d a b)

def execPor (q : Quals) (d a b : BitVec 6) (s : State) : Host.Outcome State Fault Refusal :=
  runThen s (predLogic (fun x y => x ||| y) q d a b)

def execPxor (q : Quals) (d a b : BitVec 6) (s : State) : Host.Outcome State Fault Refusal :=
  runThen s (predLogic (fun x y => x ^^^ y) q d a b)

def execPandn (q : Quals) (d a b : BitVec 6) (s : State) : Host.Outcome State Fault Refusal :=
  runThen s (predLogic (fun x y => x &&& ~~~ y) q d a b)

def execPorn (q : Quals) (d a b : BitVec 6) (s : State) : Host.Outcome State Fault Refusal :=
  runThen s (predLogic (fun x y => x ||| ~~~ y) q d a b)

def execPnot (q : Quals) (d a : BitVec 6) (s : State) : Host.Outcome State Fault Refusal :=
  runThen s (predLogic (fun x _ => ~~~ x) q d a 0)

def execPmov (q : Quals) (d a : BitVec 6) (s : State) : Host.Outcome State Fault Refusal :=
  runThen s (predLogic (fun x _ => x) q d a 0)

def execPset (q : Quals) (d : BitVec 6) (s : State) : Host.Outcome State Fault Refusal :=
  runThen s (predLogic (fun _ _ => 0xFFFFFFFF) q d 0 0)

def execPclr (q : Quals) (d : BitVec 6) (s : State) : Host.Outcome State Fault Refusal :=
  runThen s (predLogic (fun _ _ => 0) q d 0 0)

/-! ### PMOV -/

def execP2s (q : Quals) (d a : BitVec 6) (s : State) : Host.Outcome State Fault Refusal :=
  runThen s (once q fun c s => .ok (c.writeS s d ((c.src.preg a).setWidth 64)))

def execS2p (q : Quals) (d a : BitVec 6) (s : State) : Host.Outcome State Fault Refusal :=
  runThen s (once q fun c s => do
    let x ← c.s a
    .ok (c.putArch s (c.g.arch.setP d (c.active q) (x.setWidth 32))))

def execPpop (q : Quals) (d a : BitVec 6) (s : State) : Host.Outcome State Fault Refusal :=
  runThen s (once q fun c s => .ok (c.writeS s d (BitVec.ofNat 64 (Mask.count (c.src.preg a &&& c.active q)))))

def execPfirst (q : Quals) (d a : BitVec 6) (s : State) : Host.Outcome State Fault Refusal :=
  runThen s (once q fun c s =>
    .ok (c.writeS s d (BitVec.ofNat 64 ((Mask.list (c.src.preg a &&& c.active q)).headD 32))))

end Sys2Proof.Machine
end

