-- ==== Sys2Proof/Machine/FloatInstr.lean ====
section
/-!
DEFINITION. The floating-point, conversion and packing instructions (10 R254 to R273).
-/
namespace Sys2Proof.Machine

/-- The EXT.IMM of a float head (03 R64). -/
def Quals.immF (q : Quals) : Option Word := (Quals.imm? q).map imm25F

def floatCmp (o : FCond) (q : Quals) (d a b : BitVec 6) (c : Ctx) (s : State) : Except Stop State :=
  c.compareLanes s q d a b true (Quals.immF q) fun x y => fcmpOp o x y

/-! ### F32 -/

def execFadd (q : Quals) (d a b : BitVec 6) (s : State) : Host.Outcome State Fault Refusal :=
  run s (laneGuarded (.f32 .add) q d a b (Quals.immF q))

def execFsub (q : Quals) (d a b : BitVec 6) (s : State) : Host.Outcome State Fault Refusal :=
  run s (laneGuarded (.f32 .sub) q d a b (Quals.immF q))

def execFmul (q : Quals) (d a b : BitVec 6) (s : State) : Host.Outcome State Fault Refusal :=
  run s (laneGuarded (.f32 .mul) q d a b (Quals.immF q))

def execFmin (q : Quals) (d a b : BitVec 6) (s : State) : Host.Outcome State Fault Refusal :=
  run s (laneGuarded (.f32 .min) q d a b (Quals.immF q))

def execFmax (q : Quals) (d a b : BitVec 6) (s : State) : Host.Outcome State Fault Refusal :=
  run s (laneGuarded (.f32 .max) q d a b (Quals.immF q))

def execFminn (q : Quals) (d a b : BitVec 6) (s : State) : Host.Outcome State Fault Refusal :=
  run s (laneGuarded (.f32 .minn) q d a b (Quals.immF q))

def execFmaxn (q : Quals) (d a b : BitVec 6) (s : State) : Host.Outcome State Fault Refusal :=
  run s (laneGuarded (.f32 .maxn) q d a b (Quals.immF q))

def execFcps (q : Quals) (d a b : BitVec 6) (s : State) : Host.Outcome State Fault Refusal :=
  run s (laneGuarded (.f32 .cps) q d a b (Quals.immF q))

def execFabs (q : Quals) (d a : BitVec 6) (s : State) : Host.Outcome State Fault Refusal :=
  run s (laneGuarded (.f32 .abs) q d a 0 none)

def execFneg (q : Quals) (d a : BitVec 6) (s : State) : Host.Outcome State Fault Refusal :=
  run s (laneGuarded (.f32 .neg) q d a 0 none)

def execFflr (q : Quals) (d a : BitVec 6) (s : State) : Host.Outcome State Fault Refusal :=
  run s (laneGuarded (.f32 .flr) q d a 0 none)

def execFcel (q : Quals) (d a : BitVec 6) (s : State) : Host.Outcome State Fault Refusal :=
  run s (laneGuarded (.f32 .cel) q d a 0 none)

def execFtrc (q : Quals) (d a : BitVec 6) (s : State) : Host.Outcome State Fault Refusal :=
  run s (laneGuarded (.f32 .trc) q d a 0 none)

def execFrni (q : Quals) (d a : BitVec 6) (s : State) : Host.Outcome State Fault Refusal :=
  run s (laneGuarded (.f32 .rni) q d a 0 none)

/-! ### FPK -/

def execHadd2 (q : Quals) (d a b : BitVec 6) (s : State) : Host.Outcome State Fault Refusal :=
  run s (laneGuarded (.pk true .add) q d a b none)

def execHmul2 (q : Quals) (d a b : BitVec 6) (s : State) : Host.Outcome State Fault Refusal :=
  run s (laneGuarded (.pk true .mul) q d a b none)

def execHmin2 (q : Quals) (d a b : BitVec 6) (s : State) : Host.Outcome State Fault Refusal :=
  run s (laneGuarded (.pk true .min) q d a b none)

def execHmax2 (q : Quals) (d a b : BitVec 6) (s : State) : Host.Outcome State Fault Refusal :=
  run s (laneGuarded (.pk true .max) q d a b none)

def execBadd2 (q : Quals) (d a b : BitVec 6) (s : State) : Host.Outcome State Fault Refusal :=
  run s (laneGuarded (.pk false .add) q d a b none)

def execBmul2 (q : Quals) (d a b : BitVec 6) (s : State) : Host.Outcome State Fault Refusal :=
  run s (laneGuarded (.pk false .mul) q d a b none)

def execBmin2 (q : Quals) (d a b : BitVec 6) (s : State) : Host.Outcome State Fault Refusal :=
  run s (laneGuarded (.pk false .min) q d a b none)

def execBmax2 (q : Quals) (d a b : BitVec 6) (s : State) : Host.Outcome State Fault Refusal :=
  run s (laneGuarded (.pk false .max) q d a b none)

/-! ### FMA -/

def execFma (q : Quals) (d a b : BitVec 6) (s : State) : Host.Outcome State Fault Refusal :=
  run s (laneGuarded (.fma .fma) q d a b (Quals.immF q))

def execFms (q : Quals) (d a b : BitVec 6) (s : State) : Host.Outcome State Fault Refusal :=
  run s (laneGuarded (.fma .fms) q d a b (Quals.immF q))

def execFnma (q : Quals) (d a b : BitVec 6) (s : State) : Host.Outcome State Fault Refusal :=
  run s (laneGuarded (.fma .fnma) q d a b (Quals.immF q))

def execHfma2 (q : Quals) (d a b : BitVec 6) (s : State) : Host.Outcome State Fault Refusal :=
  run s (laneGuarded (.fma .hfma2) q d a b none)

def execBfma2 (q : Quals) (d a b : BitVec 6) (s : State) : Host.Outcome State Fault Refusal :=
  run s (laneGuarded (.fma .bfma2) q d a b none)

/-- FMA3: the addend is the C of the EXT.C, whose SEL is zero (03 R66). -/
def execFma3 (g : BitVec 3) (d a b x : BitVec 6) (_sx : BitVec 2) (s : State) : Host.Outcome State Fault Refusal :=
  run s fun c s => c.laneWise s (.fma .fma3) (Quals.modx (quals g)) (c.active (quals g)) d a b x none 0

/-! ### FCMP -/

def execFcmpEq (q : Quals) (d a b : BitVec 6) (s : State) : Host.Outcome State Fault Refusal :=
  run s (floatCmp .eq q d a b)

def execFcmpNe (q : Quals) (d a b : BitVec 6) (s : State) : Host.Outcome State Fault Refusal :=
  run s (floatCmp .ne q d a b)

def execFcmpLt (q : Quals) (d a b : BitVec 6) (s : State) : Host.Outcome State Fault Refusal :=
  run s (floatCmp .lt q d a b)

def execFcmpLe (q : Quals) (d a b : BitVec 6) (s : State) : Host.Outcome State Fault Refusal :=
  run s (floatCmp .le q d a b)

def execFcmpGt (q : Quals) (d a b : BitVec 6) (s : State) : Host.Outcome State Fault Refusal :=
  run s (floatCmp .gt q d a b)

def execFcmpGe (q : Quals) (d a b : BitVec 6) (s : State) : Host.Outcome State Fault Refusal :=
  run s (floatCmp .ge q d a b)

def execFcmpUno (q : Quals) (d a b : BitVec 6) (s : State) : Host.Outcome State Fault Refusal :=
  run s (floatCmp .uno q d a b)

def execFcmpOrd (q : Quals) (d a b : BitVec 6) (s : State) : Host.Outcome State Fault Refusal :=
  run s (floatCmp .ord q d a b)

/-- FCMP.CLASS: the bit of the lane's class in the mask (R264). -/
def execFcmpClass (g : BitVec 3) (d a : BitVec 6) (v : BitVec 25) (s : State) : Host.Outcome State Fault Refusal :=
  run s fun c s => c.compareLanes s (quals g) d a 0 false none fun x _ => (v.getLsbD (fclass x.toNat), 0)

/-! ### FSPC -/

def execFrcp (q : Quals) (d a : BitVec 6) (s : State) : Host.Outcome State Fault Refusal :=
  run s (laneGuarded (.spc .rcp) q d a 0 none)

def execFrsq (q : Quals) (d a : BitVec 6) (s : State) : Host.Outcome State Fault Refusal :=
  run s (laneGuarded (.spc .rsq) q d a 0 none)

def execFsqrt (q : Quals) (d a : BitVec 6) (s : State) : Host.Outcome State Fault Refusal :=
  run s (laneGuarded (.spc .sqrt) q d a 0 none)

def execFexp2 (q : Quals) (d a : BitVec 6) (s : State) : Host.Outcome State Fault Refusal :=
  run s (laneGuarded (.spc .exp2) q d a 0 none)

def execFlog2 (q : Quals) (d a : BitVec 6) (s : State) : Host.Outcome State Fault Refusal :=
  run s (laneGuarded (.spc .log2) q d a 0 none)

def execFdiv (q : Quals) (d a b : BitVec 6) (s : State) : Host.Outcome State Fault Refusal :=
  run s (laneGuarded (.spc .div) q d a b none)

/-! ### CVT and CBK -/

def execCvtF16F32 (q : Quals) (d a : BitVec 6) (n : BitVec 2) (t : BitVec 1) (r : BitVec 3) (s : State) : Host.Outcome State Fault Refusal :=
  run s (laneGuarded (.cvt .toF16 r (t == 1) n.toNat) q d a 0 none)

def execCvtBf16F32 (q : Quals) (d a : BitVec 6) (n : BitVec 2) (t : BitVec 1) (r : BitVec 3) (s : State) : Host.Outcome State Fault Refusal :=
  run s (laneGuarded (.cvt .toBf16 r (t == 1) n.toNat) q d a 0 none)

def execCvtF8e4F32 (q : Quals) (d a : BitVec 6) (n : BitVec 2) (t : BitVec 1) (r : BitVec 3) (s : State) : Host.Outcome State Fault Refusal :=
  run s (laneGuarded (.cvt .toF8e4 r (t == 1) n.toNat) q d a 0 none)

def execCvtF8e5F32 (q : Quals) (d a : BitVec 6) (n : BitVec 2) (t : BitVec 1) (r : BitVec 3) (s : State) : Host.Outcome State Fault Refusal :=
  runWith (some 7) false s (laneGuarded (.cvt .toF8e5 r (t == 1) n.toNat) q d a 0 none)

def execCvtF32F16 (q : Quals) (d a : BitVec 6) (n : BitVec 2) (s : State) : Host.Outcome State Fault Refusal :=
  run s (laneGuarded (.cvt .fromF16 0 false n.toNat) q d a 0 none)

def execCvtF32Bf16 (q : Quals) (d a : BitVec 6) (n : BitVec 2) (s : State) : Host.Outcome State Fault Refusal :=
  run s (laneGuarded (.cvt .fromBf16 0 false n.toNat) q d a 0 none)

def execCvtF32F8e4 (q : Quals) (d a : BitVec 6) (n : BitVec 2) (s : State) : Host.Outcome State Fault Refusal :=
  run s (laneGuarded (.cvt .fromF8e4 0 false n.toNat) q d a 0 none)

def execCvtF32F8e5 (q : Quals) (d a : BitVec 6) (n : BitVec 2) (s : State) : Host.Outcome State Fault Refusal :=
  runWith (some 7) false s (laneGuarded (.cvt .fromF8e5 0 false n.toNat) q d a 0 none)

def execCvtI32F32 (q : Quals) (d a : BitVec 6) (_t : BitVec 1) (r : BitVec 3) (s : State) : Host.Outcome State Fault Refusal :=
  run s (laneGuarded (.cvt .toI32 r false 0) q d a 0 none)

def execCvtN32F32 (q : Quals) (d a : BitVec 6) (_t : BitVec 1) (r : BitVec 3) (s : State) : Host.Outcome State Fault Refusal :=
  run s (laneGuarded (.cvt .toN32 r false 0) q d a 0 none)

def execCvtF32I32 (q : Quals) (d a : BitVec 6) (r : BitVec 3) (s : State) : Host.Outcome State Fault Refusal :=
  run s (laneGuarded (.cvt .fromI32 r false 0) q d a 0 none)

def execCvtF32N32 (q : Quals) (d a : BitVec 6) (r : BitVec 3) (s : State) : Host.Outcome State Fault Refusal :=
  run s (laneGuarded (.cvt .fromN32 r false 0) q d a 0 none)

/-- CBK needs feature bit 5 (03 Table 03-17). -/
def execCbk (q : Quals) (d a : BitVec 6) (n : BitVec 3) (s : State) : Host.Outcome State Fault Refusal :=
  runWith (some 5) false s (laneGuarded (.cvt .cbk 0 false n.toNat) q d a 0 none)

/-! ### PACK -/

def execPk2h (q : Quals) (d a b : BitVec 6) (s : State) : Host.Outcome State Fault Refusal :=
  run s (laneGuarded (.pack .pk2h) q d a b none)

def execPkhi (q : Quals) (d a b : BitVec 6) (s : State) : Host.Outcome State Fault Refusal :=
  run s (laneGuarded (.pack .pkhi) q d a b none)

def execPkb01 (q : Quals) (d a b : BitVec 6) (s : State) : Host.Outcome State Fault Refusal :=
  run s (laneGuarded (.pack .pkb01) q d a b none)

def execPkb23 (q : Quals) (d a b : BitVec 6) (s : State) : Host.Outcome State Fault Refusal :=
  run s (laneGuarded (.pack .pkb23) q d a b none)

def execUpklo (q : Quals) (d a : BitVec 6) (s : State) : Host.Outcome State Fault Refusal :=
  run s (laneGuarded (.pack .upklo) q d a 0 none)

def execUpkhi (q : Quals) (d a : BitVec 6) (s : State) : Host.Outcome State Fault Refusal :=
  run s (laneGuarded (.pack .upkhi) q d a 0 none)

/-! ### DPHINC -/

/-- DPHINC: once, if any lane is active (R272). -/
def execDphinc (q : Quals) (s : State) : Host.Outcome State Fault Refusal :=
  runThen s (once q fun c s => .ok (c.putArch s { c.g.arch with dph := c.g.arch.dph + 1 }))

end Sys2Proof.Machine
end

