-- ==== Sys2Proof/Machine/Matrix.lean ====
section
/-!
DEFINITION. Matrix operations (11): what an element of an accumulator becomes (R275 to R282, R291, R292), dispatch
(R284, R287, R288), and the passes of a partition's unit (R285).
-/
namespace Sys2Proof.Machine

/-! ### Elements -/

/-- The tile formats (06 Table 06-10). -/
inductive TileKind where
  | float (f : Fmt)
  | q4n
  | i8
  deriving DecidableEq, Repr

/-- The formats of a form (Table 11-1, R291): of the fragment, where it is not I8, and of the tile. -/
def mmaFormats (sparse : Bool) (f : Nat) : Fmt × TileKind :=
  if sparse then
    match f with
    | 0 => (.f8e4, .float .f8e4)
    | 1 => (.bf16, .float .bf16)
    | _ => (.f8e4, .i8)
  else
    match f with
    | 0 => (.f8e4, .float .f8e4)
    | 1 => (.f8e5, .float .f8e4)
    | 2 => (.f8e4, .float .f8e5)
    | 3 => (.f8e5, .float .f8e5)
    | 4 => (.bf16, .float .bf16)
    | 5 => (.f16, .float .f16)
    | 6 => (.f8e4, .q4n)
    | _ => (.f8e4, .i8)

/-- Bits of a fragment element. -/
def mmaBits (sparse : Bool) (f : Nat) : Nat := if (sparse && f == 1) || (!sparse && (f == 4 || f == 5)) then 16 else 8

/-- Registers of the fragment. -/
def mmaRegs (sparse : Bool) (f : Nat) : Nat := if sparse then 4 else if f == 6 then 16 else 8

/-- The kept elements: index in the fragment and position k (R277, R291). -/
def mmaTerms (sparse : Bool) (f : Nat) (idx : Word) : List (Nat × Nat) :=
  (List.range (mmaRegs sparse f * (32 / mmaBits sparse f))).map fun j =>
    (j, if sparse then 4 * (j / 2) + idx.toNat / 4 ^ j % 4 else j)

/-- Element j of a lane's fragment (R277). -/
def fragAt (bits : Nat) (frag : List (Vector Word 32)) (l j : Nat) : Nat :=
  let e := 32 / bits
  let w := ((frag.getD (j / e) (Vector.replicate 32 0))[l]?).getD 0
  w.toNat / 2 ^ (bits * (j % e)) % 2 ^ bits

/-- n bits of a tile or sidecar from a bit on. -/
def tileBits {w : Nat} (t : BitVec w) (lo n : Nat) : Nat := t.toNat / 2 ^ lo % 2 ^ n

/-- Two's complement of a byte. -/
def byteInt (x : Nat) : Int := if x < 128 then Int.ofNat x else Int.ofNat x - 256

/-- Tile element (k, n) of a floating-point form: none where its column's super-scale is not finite (R278, R280). -/
def tileAt (kind : TileKind) (tile : BitVec 2048) (side : BitVec 512) (k n : Nat) : Option Fp :=
  match kind with
  | .float f =>
    if f.ebits + f.fbits == 7 then some (f.value (tileBits tile (8 * (32 * n + k)) 8))
    else some (f.value (tileBits tile (8 * (32 * n + 2 * k)) 16))
  | .q4n =>
    let q := tileBits side (8 * n) 8
    let code := tileBits tile (8 * (32 * n + k / 2) + 4 * (k % 2)) 4
    match Fmt.f32.value (tileBits side (8 * (16 + 4 * n)) 32) with
    | .fin s m e => some (if q == 0 then .fin false 0 0 else .fin (s != (8 ≤ code)) (m * q * q4nMag (code % 8)) (e - 8))
    | _ => none
  | .i8 => none

/-- The exact sum of finite values; the sign of an exact zero by R27. -/
def exactSum (r : Rnd) (xs : List Fp) : Fp :=
  let fin := xs.filterMap fun x => match x with
    | .fin s m e => some (s, m, e)
    | _ => none
  let u := fin.foldl (fun (u : Int) t => min u t.2.2) 0
  let z := fin.foldl (fun (z : Int) t => z + (if t.1 then -1 else 1) * Int.ofNat (t.2.1 * 2 ^ (t.2.2 - u).toNat)) 0
  if z != 0 then .fin (z < 0) z.natAbs u
  else
    let allNeg := fin.all fun t => t.1
    let allPos := fin.all fun t => !t.1
    .fin (if allNeg then true else if allPos then false else r == .rd) 0 0

/-- An accumulator element of a floating-point form (R279, R281): d and the pairs of factors, none for a column of NaN. -/
def mmaElem (r : Rnd) (d : Nat) (ps : Option (List (Fp × Fp))) : Nat × Flags :=
  let nan := Fmt.f32.nanBits
  match ps with
  | none => (nan, 0)
  | some ps =>
    let x := Fmt.f32.value d
    if x.isNan || ps.any fun p => p.1.isNan || p.2.isNan then (nan, 0)
    else
      let prods := ps.map fun p => Fp.mul p.1 p.2
      if prods.any fun p => p.1.isNan then (nan, flagNV)
      else
        let all := x :: prods.map (·.1)
        let pos := all.any (· == .inf false)
        let neg := all.any (· == .inf true)
        if pos && neg then (nan, flagNV)
        else if pos || neg then (Fmt.f32.signed neg Fmt.f32.infBits, 0)
        else Fmt.f32.round r false (exactSum r all)

/-- What element (l, n) of the accumulator becomes, from d (R279 to R282, R292). -/
def Pass.elem (p : Pass) (tile : BitVec 2048) (side : BitVec 512) (l n : Nat) (d : Word) : Word × Flags :=
  let (fa, kind) := mmaFormats p.sparse p.f
  let bits := mmaBits p.sparse p.f
  let terms := mmaTerms p.sparse p.f ((p.idx[l]?).getD 0)
  if kind == .i8 then
    let z := terms.foldl (fun (z : Int) t =>
      z + byteInt (fragAt bits p.frag l t.1) * byteInt (tileBits tile (8 * (32 * n + t.2)) 8)) 0
    (d + BitVec.ofInt 32 z, 0)
  else
    let ps := terms.mapM fun t => (tileAt kind tile side t.2 n).map fun b => (fa.value (fragAt bits p.frag l t.1), b)
    let x := mmaElem (Rnd.of (p.fcr.extractLsb' 0 3) (ditherPos l (n % 4)) p.dph) d.toNat ps
    (BitVec.ofNat 32 x.1, x.2)

/-! ### Dispatch (R284, R287 to R290) -/

/-- What Table 08-4 asks of a half. -/
def mmaNeed (sparse : Bool) (f : Nat) (ta : Bool) (c : Ctx) (h : Half) : Need :=
  let frag := span h.a (mmaRegs sparse f)
  let idx := if sparse then [h.c] else []
  let all := span h.d 8 ++ frag ++ idx
  { meld := false, named := all, place := .l, placeOk := all.all fun r => (c.src.vreg r).place == .l,
    marked := if ta then frag else [], waits := (if ta then [] else frag) ++ idx }

/-- D of a half is full, or owed only by the group's latest passes into the same D. -/
def Ctx.mmaDest (c : Ctx) (p : Part) (h : Half) : Bool :=
  let last := (p.mtx.filter fun x => x.grp == c.iss.grp && x.d == h.d).getLast?
  (span h.d 8).all fun r => (c.g.arch.vreg r).prods.all fun q => (last.map fun x => x.pos) == some q.1

/-- The lane of the index register that a lane reads (R292). -/
def idxLane (sel : BitVec 2) (l : Nat) : Nat := if sel == 0 then l else if sel == 1 then l / 8 * 8 else 0

/-- The pass of a half, its operands as they stand. -/
def Ctx.passOf (c : Ctx) (sparse : Bool) (f slot : Nat) (sel : BitVec 2) (h : Half) (half : Option Nat) : Pass :=
  { grp := c.iss.grp, pos := c.pos, half := half, sparse := sparse, f := f, slot := slot, act := h.act, d := h.d,
    frag := (span h.a (mmaRegs sparse f)).map fun r => (c.src.vreg r).lanes,
    idx := Vector.ofFn fun l => (c.src.vreg h.c).lane (idxLane sel l.val),
    fcr := c.src.fcr, dph := c.src.dph, due := 0, result := none, ended := false }

/-- The passes of the halves: one where they use the same registers (R288). -/
def Ctx.passesOf (c : Ctx) (sparse : Bool) (f slot : Nat) (sel : BitVec 2) (hs : List Half) : List Pass :=
  match hs with
  | [x, y] =>
    if x.d == y.d && x.a == y.a && (x.c == y.c || !sparse) then
      [c.passOf sparse f slot sel { x with act := x.act ||| y.act } none]
    else hs.map fun h => c.passOf sparse f slot sel h (some h.ent)
  | _ => hs.map fun h => c.passOf sparse f slot sel h (some h.ent)

/-- An MMA or MMSP. -/
def Ctx.matrix (c : Ctx) (s : State) (sparse : Bool) (f : Nat) (act : Mask) (ta : Bool) (d a slot x : BitVec 6)
    (sel : BitVec 2) : Except Stop State := do
  if act == 0 then .ok (c.finish s)
  else
    let k := partOf c.iss.core c.iss.grp
    let part := s.part c.iss.core k
    let o := c.slot s slot
    let hs := (c.halves act).map fun h => c.half h.1 h.2 d a 0 x none 0
    let bad := hs.filterMap fun h =>
      ((c.check s (mmaNeed sparse f ta c h)).orElse fun _ =>
        if o.owner == some c.iss.grp then none else some (FaultInfo.ofCause causeSlotOwner)).map fun e => (h.ent, e)
    let good := hs.filter fun h => !(bad.any fun b => b.1 == h.ent)
    match c.emptyWait (good.flatMap fun h => (mmaNeed sparse f ta c h).waits) with
    | some w => .error (.wait w)
    | none =>
      if good.isEmpty then
        let (s, c) ← c.leave s bad
        .ok (c.finish s)
      else if !o.present then .error (.wait (.slotPresent slot.toNat))
      else if good.any fun h => !c.mmaDest part h then
        .error (.wait (.full ((good.flatMap fun h => span h.d 8).filter fun r => !(c.g.arch.vreg r).full)))
      else if 4 ≤ (c.g.rob.filter fun (e : Entry) => match e.op with
          | .mma .. => true
          | _ => false).length then .error (.wait .mtxRoom)
      else
        -- older stores of the group to the slot come first (06 R168)
        let lines := [0, 128, 256].map fun x => Target.slot c.iss.core k slot.toNat x
        if c.g.conflict lines false then .error (.wait (.lines lines false))
        let ps := c.passesOf sparse f slot.toNat sel good
        let (s, c, es) ← c.leaveWith s bad [c.entry .l (.mma good ps.length)]
        let arch := good.foldl (fun a h => (span h.d 8).foldl (fun a r => a.oweV r c.pos h.act) a) c.g.arch
        let s := s.setPart c.iss.core k { part with mtx := part.mtx ++ ps }
        .ok (c.finish (c.put s { c.g with arch := arch, rob := c.g.rob ++ es }))

/-- MMA of form F. -/
def mma (f : Nat) (feat : Option Nat) (q : Quals) (d a b : BitVec 6) (s : State) : Host.Outcome State Fault Refusal :=
  runWith feat false s fun c s => c.matrix s false f (c.active q) (Quals.modx q).ta d a b 0 0

/-- MMSP of form F. -/
def mmsp (f : Nat) (g : BitVec 3) (d a b x : BitVec 6) (sx : BitVec 2) (s : State) : Host.Outcome State Fault Refusal :=
  runWith (some 6) false s fun c s => c.matrix s true f (c.active (quals g)) false d a b x sx

def execMmaE4e4 (q : Quals) (d a b : BitVec 6) (s : State) : Host.Outcome State Fault Refusal := mma 0 none q d a b s
def execMmaE5e4 (q : Quals) (d a b : BitVec 6) (s : State) : Host.Outcome State Fault Refusal := mma 1 (some 7) q d a b s
def execMmaE4e5 (q : Quals) (d a b : BitVec 6) (s : State) : Host.Outcome State Fault Refusal := mma 2 (some 7) q d a b s
def execMmaE5e5 (q : Quals) (d a b : BitVec 6) (s : State) : Host.Outcome State Fault Refusal := mma 3 (some 7) q d a b s
def execMmaBf16 (q : Quals) (d a b : BitVec 6) (s : State) : Host.Outcome State Fault Refusal := mma 4 none q d a b s
def execMmaF16 (q : Quals) (d a b : BitVec 6) (s : State) : Host.Outcome State Fault Refusal := mma 5 none q d a b s
def execMmaE4q4 (q : Quals) (d a b : BitVec 6) (s : State) : Host.Outcome State Fault Refusal := mma 6 (some 5) q d a b s
def execMmaI8 (q : Quals) (d a b : BitVec 6) (s : State) : Host.Outcome State Fault Refusal := mma 7 none q d a b s

def execMmspE4e4 (g : BitVec 3) (d a b x : BitVec 6) (sx : BitVec 2) (s : State) : Host.Outcome State Fault Refusal :=
  mmsp 0 g d a b x sx s

def execMmspBf16 (g : BitVec 3) (d a b x : BitVec 6) (sx : BitVec 2) (s : State) : Host.Outcome State Fault Refusal :=
  mmsp 1 g d a b x sx s

def execMmspI8 (g : BitVec 3) (d a b x : BitVec 6) (sx : BitVec 2) (s : State) : Host.Outcome State Fault Refusal :=
  mmsp 2 g d a b x sx s

/-! ### The unit (R285) -/

/-- Clocks of a pass (Table 11-2). -/
def Pass.clocks (p : Pass) : Nat :=
  let n := ((List.range 4).filter fun o => (p.act.toNat / 2 ^ (8 * o)) % 256 != 0).length
  if p.sparse then (n + 1) / 2 else n

/-- The end of a started pass, in clocks: twelve before D is full. -/
def Pass.over (p : Pass) (clk : Nat) : Bool := p.result.isSome && p.due ≤ clk + 12

/-- The first pass that has ended without its instruction knowing. -/
def Part.endedPass (p : Part) (clk : Nat) : Option Pass := p.mtx.find? fun x => !x.ended && x.over clk

/-- The passes just before pass i in the unit that hand the accumulator on to it, latest first: of the same group, with the
same D, one after the other without another pass between them. -/
def Part.forwarders (p : Part) (i : Nat) : List Pass :=
  match p.mtx[i]? with
  | some x => (p.mtx.take i).reverse.takeWhile fun y => y.grp == x.grp && y.d == x.d
  | none => []

/-- The word of register n of the span in a lane that the instruction at a position owes, from the passes that hand it on. -/
def forwarded (ys : List Pass) (pos n l : Nat) : Option Word :=
  (ys.find? fun y => y.pos == pos && y.act.getLsbD l).bind fun y => y.result.bind fun r =>
    (r.1.getD n (Vector.replicate 32 0))[l]?

/-- The registers as an instruction of a group finds them. -/
def Group.beforeAt (g : Group) (pos : Nat) : Arch :=
  match g.rob.find? fun e => e.pos == pos with
  | some e => e.before
  | none => g.arch

/-- D of the pass at index i can be had: every lane is there, or is handed on (R285). -/
def Group.passReady (g : Group) (p : Part) (i : Nat) (x : Pass) : Bool :=
  let ys := p.forwarders i
  (List.range 8).all fun n => ((g.beforeAt x.pos).vreg (x.d + n)).prods.all fun q =>
    (Mask.list q.2).all fun l => (forwarded ys q.1 n l).isSome

/-- The next pass that can start: the unit is free. -/
def State.nextPass (s : State) (core part : Nat) : Option (Nat × Pass) :=
  let p := s.part core part
  if p.mtx.any fun x => x.result.isSome && !x.over s.clk then none
  else
    match p.mtx.findIdx? fun x => x.result.isNone with
    | none => none
    | some i =>
      match p.mtx[i]? with
      | none => none
      | some x =>
        match s.group core x.grp with
        | none => none
        | some g => if g.passReady p i x then some (i, x) else none

/-- A pass starts: it reads the slot and D, and computes. -/
def State.startPass (s : State) (core part i : Nat) (x : Pass) : State :=
  match s.group core x.grp with
  | none => s
  | some g =>
    let p := s.part core part
    let o := s.slot core part x.slot
    let a := g.beforeAt x.pos
    let ys := p.forwarders i
    let old := fun (n l : Nat) =>
      let r := a.vreg (x.d + n)
      match r.prods.find? fun q => q.2.getLsbD l with
      | some q => (forwarded ys q.1 n l).getD (r.lane l)
      | none => r.lane l
    let cols := (List.range 8).map fun n => (List.range 32).map fun l =>
      if x.act.getLsbD l then x.elem o.tile o.side l n (old n l) else (0, 0)
    let words := cols.map fun (c : List (Word × Flags)) => Vector.ofFn fun (l : Fin 32) => (c.getD l.val (0, 0)).1
    let flags := (Mask.list x.act).map fun l => (l, allFlags (cols.map fun (c : List (Word × Flags)) => (l, (c.getD l (0, 0)).2)))
    let x := { x with due := s.clk + x.clocks + 12, result := some (words, flags) }
    s.setPart core part { p with mtx := p.mtx.set i x }

/-- The end of a pass reaches its instruction: flags, or the traps of its halves (R283, R287). -/
def State.endPass (s : State) (core part : Nat) (x : Pass) : State :=
  let p := s.part core part
  let s := s.setPart core part { p with mtx := p.mtx.map fun y => if y == x then { y with ended := true } else y }
  match s.group core x.grp, x.result with
  | some g, some (_, flags) =>
    let tell := fun (e : Entry) =>
      match e.op with
      | .mma hs left =>
        let mine := hs.filter fun h => match x.half with
          | some i => h.ent == i
          | none => true
        let of' := fun (h : Half) => flags.filter fun f => h.act.getLsbD f.1
        let bad := mine.filterMap fun h => (fpTrap x.fcr .l (of' h)).map fun f => (h.ent, f)
        let good := mine.filter fun h => !(bad.any fun b => b.1 == h.ent)
        { e with op := .mma hs (left - 1), stage := if left ≤ 1 then .reported else e.stage, fault := e.fault ++ bad,
                 flags := good.foldl (fun f h => f ||| allFlags (of' h)) e.flags }
      | _ => e
    (s.setGroup core x.grp (g.editEntry x.pos .l tell)).advance core x.grp
  | _, _ => s

/-- The end of the pass under way, or the start of the next one. -/
def execMatrixPass (core part : Nat) (s : State) : Host.Outcome State Fault Refusal :=
  .next (match (s.part core part).endedPass s.clk with
  | some x => s.endPass core part x
  | none =>
    match s.nextPass core part with
    | some (i, x) => s.startPass core part i x
    | none => s)

/-- The first pass whose accumulator is due. -/
def Part.duePass (p : Part) (clk : Nat) : Option Pass := p.mtx.find? fun x => x.ended && x.due ≤ clk

/-- Twelve clocks after a pass has ended D becomes full, as far as no younger instruction has taken it over (R287). -/
def execPassResult (core part : Nat) (s : State) : Host.Outcome State Fault Refusal :=
  .next (
    let p := s.part core part
    match p.duePass s.clk with
    | none => s
    | some x =>
      let s := s.setPart core part { p with mtx := p.mtx.filter fun y => y != x }
      match s.group core x.grp, x.result with
      | some g, some (ws, _) =>
        let give := fun (a : Arch) => (List.range 8).foldl (fun a n =>
          a.supplyV (x.d + n) x.pos x.act (ws.getD n (Vector.replicate 32 0))) a
        s.setGroup core x.grp (g.mapYounger x.pos give)
      | _, _ => s)

end Sys2Proof.Machine
end

