-- ==== Sys2Proof/Machine/Posts.lean ====
section
/-!
DEFINITION. The life of a post after dispatch: it executes at its place, reports, is released, or is cancelled
(08 R211 to R216, 07 R173, R177).
-/
namespace Sys2Proof.Machine

/-! ### Frames whose translation a TLBI has taken (15 R385) -/

/-- The registers whose frames a post uses, each with its half's entry. -/
def Entry.frames (e : Entry) : List (Nat × Nat) :=
  match e.op with
  | .lane _ hs | .aop _ hs _ => (e.sound hs).map fun h => (h.ent, h.d)
  | .mem m hs _ rs => if rs.all fun q => q.stat == .todo || q.stat == .done then
      (e.sound hs).flatMap fun h => (span h.d m.span).map fun r => (h.ent, r) else []
  | _ => []

/-- The frames that a post uses are translated again where they have lost their translation; the halves for which that
fails. -/
def State.renew (s : State) (core grp : Nat) (e : Entry) : State × List (Nat × FaultInfo) :=
  e.frames.foldl (fun (p : State × List (Nat × FaultInfo)) x =>
    let r := e.before.vreg x.2
    let stale := fun (y : VReg) => y.place == r.place && y.anchor == r.anchor && y.page.isNone
    match p.1.group core grp with
    | none => p
    | some g =>
      if !(r.place == .h || r.place == .m) || !stale r || p.2.any fun f => f.1 == x.1 then p
      else match p.1.anchor core g r.place r.anchor with
        | .error c => (p.1, p.2 ++ [(x.1, { FaultInfo.withAddr c r.anchor with place := e.place })])
        | .ok (dpa, pg) =>
          let new := fun (a : Arch) => if stale (a.vreg x.2) then
            a.setV x.2 { a.vreg x.2 with dpa := dpa, page := some pg } else a
          ((p.1.touchAll core g [r.anchor]).setGroup core grp (g.mapAll new), p.2)) (s, [])

/-- Halves of a post have failed: they do nothing more. -/
def Entry.failHalves (e : Entry) (fs : List (Nat × FaultInfo)) : Entry :=
  if fs.isEmpty then e
  else { e with fault := e.fault ++ fs, op := match e.op with
    | .mem m hs ea rs =>
      let out := fun (l : Nat) => hs.any fun h => h.act.getLsbD l && fs.any fun f => f.1 == h.ent
      .mem m hs ea ((rs.map fun q => { q with accs := q.accs.filter fun x => !out x.lane }).filter fun q => !q.accs.isEmpty)
    | o => o }

/-- A ready post acts: at M in its turn, and with the translations of its frames. -/
def State.actAt (s : State) (core grp : Nat) (e : Entry) (ks : List (Nat × Nat)) (f : State → Group → Entry → State) : State :=
  s.takeTurn ks (core, grp, e.pos) (ks.all s.unitFree) fun s =>
    let (s, fs) := s.renew core grp e
    match s.group core grp with
    | none => s
    | some g =>
      let g := if fs.isEmpty then g else g.editEntry e.pos e.place fun x => x.failHalves fs
      match g.entry e.pos e.place with
      | some x => f (s.setGroup core grp g) g x
      | none => s

/-! ### Executing -/

/-- What an image does with a write of a line in its present state: it refuses (07 Table 07-3 row 5). -/
def State.refuses (s : State) (part line : Nat) (ev : Event) : Bool :=
  let img := s.imageOf line
  let e := img.entry (Dir.ofBits (s.home part line).dir).state ev
  img.defined (Dir.ofBits (s.home part line).dir).state ev && act e 13 && act e 23

/-- The home holds a line back: an event is queued there now. -/
def State.holdsBack (s : State) (part line : Nat) (ev : Event) : Bool :=
  let img := s.imageOf line
  let st := (Dir.ofBits (s.home part line).dir).state
  s.frozen line || (img.defined st ev && act (img.entry st ev) 12)

/-- A write's request is granted. -/
def State.grant (s : State) (r : Ref) : State := s.editReq r fun g _ q => (g, { q with stat := .granted })

/-- Rows 5 and 6 of Table 07-3 at the home of a line, by a lookup that performs nothing: the request waits while the home would
queue it (07 R173). -/
def State.permitHome (s : State) (r : Ref) (q : LineReq) (ev : Event) (part line : Nat) : State :=
  if s.holdsBack part line ev then s
  else if s.refuses part line ev then s.answer r q.accs (some causeProtection) 0
  else if (s.latest part line).2 then s.answer r q.accs (some causePoison) 0
  else s.grant r

/-- Write permission for a line at K, through the cluster cache as at L: held in E or M, else asked for with a GETU that writes
nothing or a GETM. A GETU of an update image is itself the write, so that only its lookup is made (07 R173; log 26). -/
def State.permitCached (s : State) (core : Nat) (g : Group) (r : Ref) (op : MemOp) (q : LineReq) (part line : Nat) : State :=
  let c := clusterOfCore core
  let fill := fun (m : Msg) => { m with ref := some r, vi := g.vi, mop := some op }
  match ((s.cluster c).lines.find line).map fun l => (l.st, l.poison) with
  | some (st, p) =>
    if st == .e || st == .m then (if p then s.answer r q.accs (some causePoison) 0 else s.grant r)
    else if (st == .s || st == .u) && (s.imageOf line).flags.getLsbD 0 then s.permitHome r q .getu part line
    else
      let ev : Event := if st == .s || st == .u then .getu else .getm
      s.ask core line r .asked (fun s => s.sendHome ev part line c fill) ev
  | none => s.ask core line r .asked (fun s => s.sendHome .getm part line c fill) .getm

/-- The refusal and poison checks of a write away from L (07 R173): at K by obtaining write permission, at H by a lookup at the
home, at M at the pseudo-channel. The request is then granted, has failed, or waits. -/
def State.permit (s : State) (r : Ref) : State :=
  match s.group r.core r.grp, s.reqOf r with
  | some g, some (op, q) =>
    if q.stat != .todo then s
    else
      match q.tgt with
      | .line part line =>
        if r.place == .m then (if (s.memLine part line).2 then s.answer r q.accs (some causePoison) 0 else s.grant r)
        else if r.place == .k && !s.uncached r.core line .k op.hint && (!op.kind.isAtomic || s.atomHere line op.sc) then
          if requestRoom ≤ s.outstanding r.core then s else s.permitCached r.core g r op q part line
        else s.permitHome r q (if op.kind.isAtomic then .atom else .ncw) part line
      | .mgmt o => if isMgmtMem o && (s.cellLine (mgmtCell o)).2 then s.answer r q.accs (some causePoison) 0 else s.grant r
      | _ => s.grant r
  | _, _ => s

/-- A write at a place reads its data and makes its checks, and has executed when all are made; it performs when it is
released. -/
def State.checkWrite (s : State) (core grp : Nat) (g : Group) (e : Entry) : State :=
  match e.op with
  | .mem op hs ea rs =>
    let src := e.old.getD e.before
    let op' := Op.mem op hs ea (rs.map fun q => { q with accs := q.accs.map (op.operand src) })
    let s := s.setGroup core grp (g.editEntry e.pos e.place fun x => if x.isMem then { x with op := op' } else x)
    let s := (List.range rs.length).foldl (fun s i => s.permit ⟨core, grp, e.pos, e.place, i⟩) s
    match s.group core grp with
    | none => s
    | some g => s.setGroup core grp (g.editEntry e.pos e.place fun x =>
        if x.isMem && x.reqs.all fun q => q.stat == .granted || q.stat == .done then
          { x with stage := .executed, fault := x.memFaults } else x)
  | _ => s

/-- The sources of a lane-wise post have arrived. -/
def Half.ready (h : Half) (o : LaneOp) (src : Arch) : Bool :=
  let (ra, rb, rc, rd) := o.reads
  (!ra || (src.vreg h.a).full) && (!rb || h.imm.isSome || (src.vreg h.b).full) && (!rc || (src.vreg h.c).full) &&
    (!rd || (src.vreg h.d).full)

/-- A lane-wise post executes: results to the pending halves, flags, and a trap of each half that raises an enabled
exception (02 R46). -/
def Group.runLanes (g : Group) (e : Entry) (o : LaneOp) (hs : List Half) : Group :=
  let src := e.old.getD e.before
  let res := (e.sound hs).map fun h => (h, h.results o src (Quals.modx (quals 0)))
  let faults := e.fault ++ res.filterMap fun x =>
    (fpTrap src.fcr e.place (x.2.map fun r => (r.1, r.2.2))).map fun f => (x.1.ent, f)
  let good := res.filter fun x => !(faults.any fun f => f.1 == x.1.ent)
  let g := good.foldl (fun g x => g.mapYounger e.pos fun a => a.supplyV x.1.d e.pos x.1.act (wordsOf x.2)) g
  let flags := good.foldl (fun f x => f ||| allFlags (x.2.map fun r => (r.1, r.2.2))) 0
  g.editEntry e.pos e.place fun x => { x with stage := .executed, fault := faults, flags := flags }

/-- The post is the next of its group at its place. -/
def Group.nextAt (g : Group) (e : Entry) : Bool :=
  ((g.rob.find? fun x => x.place == e.place && x.stage == .posted).map (·.pos)) == some e.pos

/-- No older AWRT or APASS on the registers of a post is unperformed, released or not (04 R104). -/
def Group.frameClear (g : Group) (e : Entry) (hs : List Half) : Bool :=
  hs.all fun h => !(g.rob.any fun x => x.pos < e.pos && x.rowsOn h.d)

/-- A post executes at its place, if it is next and its sources have arrived. -/
def State.execPost (s : State) (core grp : Nat) (e : Entry) : State :=
  match s.group core grp with
  | none => s
  | some g =>
    if e.stage != .posted || (e.place != .l && !g.nextAt e) then s
    else
      match e.op with
      | .lane o hs =>
        if hs.all (fun h => h.ready o (e.old.getD e.before)) && g.frameClear e hs then
          s.actAt core grp e (e.units hs) fun s g e => s.setGroup core grp (g.runLanes e o hs)
        else s
      | .mem op hs _ rs =>
        if e.place == .l then
          -- requests of L that were told to retry
          if op.kind.isWrite then s.advance core grp else s.startReqs core grp e.pos .l rs.length
        else
          let regs := hs.flatMap fun h => (span h.d op.span).map ((e.old.getD e.before).vreg ·)
          if op.kind.reads && !(regs.all (·.full)) then s
          else if !g.frameClear e hs then s
          else s.actAt core grp e [] fun s g e =>
            if op.kind.isWrite then s.checkWrite core grp g e else s.startReqs core grp e.pos e.place e.reqs.length
      | .home reg _ => if homeReady e reg then s.setGroup core grp (g.homeArrives e reg) else s
      | .aop o hs b =>
        let useA := o == .akey || o == .aact || o == .apass
        let ks := e.units hs
        if g.aopReady e hs useA && s.jobsOver core grp e.pos && !ks.any (s.barred o) then
          s.actAt core grp e ks fun s _ e => s.aopExecute core grp e o hs b
        else s
      | .cross d act w =>
        let g := g.mapYounger e.pos fun a => a.supplyV d e.pos act w
        s.setGroup core grp (g.editEntry e.pos e.place fun x => { x with stage := .executed })
      | _ => s

/-- The parts of the instruction at a position execute at their places (R211). -/
def execPostExecute (core grp pos : Nat) (s : State) : Host.Outcome State Fault Refusal :=
  .next (match s.group core grp with
  | none => s
  | some g => (g.rob.filter fun e => e.pos == pos).foldl (fun s e => s.execPost core grp e) s)

/-! ### Reports, releases, cancel-from -/

/-- A place reports to the core, which retires in order (R213). -/
def execPostReport (core grp pos : Nat) (s : State) : Host.Outcome State Fault Refusal :=
  .next (match s.group core grp with
  | none => s
  | some g =>
    let rob := g.rob.map fun e =>
      if e.pos == pos && e.stage == .executed then { e with stage := .reported }
      else if e.pos == pos && e.stage == .posted && e.place == .l && e.writes && e.answered &&
          !((e.memOp.map fun m => m.kind.returns).getD false) then { e with stage := .reported, fault := e.memFaults }
      else e
    (s.setGroup core grp { g with rob := rob }).advance core grp)

/-- A part of an instruction leaves the window. -/
def State.dropEntry (s : State) (core grp : Nat) (e : Entry) : State :=
  match s.group core grp with
  | none => s
  | some g =>
    (s.setGroup core grp { g with rob := g.rob.filter fun x => !(x.pos == e.pos && x.place == e.place) }).advance core grp

/-- Older releases of the group at the place have been applied (R211). -/
def Group.releaseNext (g : Group) (e : Entry) : Bool :=
  g.rob.all fun x => !(x.pos < e.pos && x.place == e.place && x.stage == .released) ||
    (x.isMem && x.reqs.all fun q => q.stat != .todo)

/-- A release is applied: the pending half becomes the committed one; held stores and atomics perform (R213, 07 R177), after the
reads that come before them (12 R299). -/
def State.applyRelease (s : State) (core grp : Nat) (g : Group) (e : Entry) : State :=
  match e.op with
  | .mem op _ _ rs =>
    if !op.kind.isWrite then s.dropEntry core grp e
    else if g.readsOut e.pos then s
    else
      let s := s.startReqs core grp e.pos e.place rs.length
      match (s.group core grp).bind fun g => g.entry e.pos e.place with
      | some x => if x.answered && !op.kind.returns then
          let (s, x) := s.lateFail x
          s.dropEntry core grp x else s
      | none => s
  | .aop o hs _ => if AopOp.late o then s.aopRelease core grp g e o hs else s.dropEntry core grp e
  | .home _ old => (if old.place == .m then s.closeRows old else s).dropEntry core grp e
  | _ => s.dropEntry core grp e

def execPostRelease (core grp pos : Nat) (s : State) : Host.Outcome State Fault Refusal :=
  .next (match s.group core grp with
  | none => s
  | some g => (g.rob.filter fun e => e.pos == pos && e.stage == .released && g.releaseNext e).foldl
      (fun s e => s.applyRelease core grp g e) s)

/-- cancel-from(pos) for a group: every instruction at or after the position is undone and its path resumes at its oldest
cancelled instruction (R215, 13 R317). -/
def execCancelFrom (core grp pos : Nat) (s : State) : Host.Outcome State Fault Refusal :=
  .next (match s.group core grp with
  | none => s
  | some g =>
    match g.rob.find? fun e => pos ≤ e.pos && e.stage != .released with
    | none => s
    | some e => ((s.setGroup core grp (g.cancel e.pos e.before)).undoPart core grp e.pos g.rob).sweepRuns core grp)

end Sys2Proof.Machine
end

