-- ==== Sys2Proof/Machine/Scalar.lean ====
section
/-!
DEFINITION. The scalar instructions: SALU, SALUI, SCMP and SMOV (09 R229 to R236).
-/
namespace Sys2Proof.Machine

/-- SALU and SALUI: once, if any lane is active (R233). -/
def scalarAlu (o : AluOp) (q : Quals) (d a : BitVec 6) (b : Ctx → Except Stop DWord) : Ctx → State → Except Stop State :=
  once q fun c s => do
    let x ← c.s a
    let y ← b c
    .ok (c.writeS s d (aluOp o x y))

/-- The SCMP conditions (R234). -/
inductive SCond where
  | eq | ne | lt | le | ltu | leu | bt
  deriving DecidableEq, Repr

def scmpOp (o : SCond) (x y : DWord) : Bool :=
  match o with
  | .eq => x == y
  | .ne => x != y
  | .lt => x.slt y
  | .le => x.sle y
  | .ltu => x.ult y
  | .leu => x.ule y
  | .bt => x.getLsbD (y.toNat % 64)

/-- SCMP: one truth value in every active lane of p[D] (R234). -/
def scalarCmp (o : SCond) (q : Quals) (d a b : BitVec 6) : Ctx → State → Except Stop State :=
  once q fun c s => do
    let x ← c.s a
    let y ← c.sB q b
    .ok (c.putArch s (c.g.arch.setP d (c.active q) (if scmpOp o x y then 0xFFFFFFFF else 0)))

/-- A move of a function of s[A] (R235). -/
def scalarMove (f : DWord → DWord) (q : Quals) (d a : BitVec 6) : Ctx → State → Except Stop State :=
  once q fun c s => do
    let x ← c.s a
    .ok (c.writeS s d (f x))

/-! ### SALU and SALUI -/

def execSadd (q : Quals) (d a b : BitVec 6) (s : State) : Host.Outcome State Fault Refusal :=
  runThen s (scalarAlu .add q d a fun c => c.sB q b)

def execSsub (q : Quals) (d a b : BitVec 6) (s : State) : Host.Outcome State Fault Refusal :=
  runThen s (scalarAlu .sub q d a fun c => c.sB q b)

def execSmul (q : Quals) (d a b : BitVec 6) (s : State) : Host.Outcome State Fault Refusal :=
  runThen s (scalarAlu .mul q d a fun c => c.sB q b)

def execSmulhi (q : Quals) (d a b : BitVec 6) (s : State) : Host.Outcome State Fault Refusal :=
  runThen s (scalarAlu .mulhi q d a fun c => c.sB q b)

def execSmulhu (q : Quals) (d a b : BitVec 6) (s : State) : Host.Outcome State Fault Refusal :=
  runThen s (scalarAlu .mulhu q d a fun c => c.sB q b)

def execSand (q : Quals) (d a b : BitVec 6) (s : State) : Host.Outcome State Fault Refusal :=
  runThen s (scalarAlu .and q d a fun c => c.sB q b)

def execSor (q : Quals) (d a b : BitVec 6) (s : State) : Host.Outcome State Fault Refusal :=
  runThen s (scalarAlu .or q d a fun c => c.sB q b)

def execSxor (q : Quals) (d a b : BitVec 6) (s : State) : Host.Outcome State Fault Refusal :=
  runThen s (scalarAlu .xor q d a fun c => c.sB q b)

def execSandn (q : Quals) (d a b : BitVec 6) (s : State) : Host.Outcome State Fault Refusal :=
  runThen s (scalarAlu .andn q d a fun c => c.sB q b)

def execSshl (q : Quals) (d a b : BitVec 6) (s : State) : Host.Outcome State Fault Refusal :=
  runThen s (scalarAlu .shl q d a fun c => c.sB q b)

def execSshr (q : Quals) (d a b : BitVec 6) (s : State) : Host.Outcome State Fault Refusal :=
  runThen s (scalarAlu .shr q d a fun c => c.sB q b)

def execSsar (q : Quals) (d a b : BitVec 6) (s : State) : Host.Outcome State Fault Refusal :=
  runThen s (scalarAlu .sar q d a fun c => c.sB q b)

def execSmin (q : Quals) (d a b : BitVec 6) (s : State) : Host.Outcome State Fault Refusal :=
  runThen s (scalarAlu .min q d a fun c => c.sB q b)

def execSmax (q : Quals) (d a b : BitVec 6) (s : State) : Host.Outcome State Fault Refusal :=
  runThen s (scalarAlu .max q d a fun c => c.sB q b)

def execSminu (q : Quals) (d a b : BitVec 6) (s : State) : Host.Outcome State Fault Refusal :=
  runThen s (scalarAlu .minu q d a fun c => c.sB q b)

def execSmaxu (q : Quals) (d a b : BitVec 6) (s : State) : Host.Outcome State Fault Refusal :=
  runThen s (scalarAlu .maxu q d a fun c => c.sB q b)

def execSaddImm6 (q : Quals) (d a i : BitVec 6) (s : State) : Host.Outcome State Fault Refusal :=
  runThen s (scalarAlu .add q d a fun _ => .ok (imm6S i))

def execSsubImm6 (q : Quals) (d a i : BitVec 6) (s : State) : Host.Outcome State Fault Refusal :=
  runThen s (scalarAlu .sub q d a fun _ => .ok (imm6S i))

def execSmulImm6 (q : Quals) (d a i : BitVec 6) (s : State) : Host.Outcome State Fault Refusal :=
  runThen s (scalarAlu .mul q d a fun _ => .ok (imm6S i))

def execSmulhiImm6 (q : Quals) (d a i : BitVec 6) (s : State) : Host.Outcome State Fault Refusal :=
  runThen s (scalarAlu .mulhi q d a fun _ => .ok (imm6S i))

def execSmulhuImm6 (q : Quals) (d a i : BitVec 6) (s : State) : Host.Outcome State Fault Refusal :=
  runThen s (scalarAlu .mulhu q d a fun _ => .ok (imm6S i))

def execSandImm6 (q : Quals) (d a i : BitVec 6) (s : State) : Host.Outcome State Fault Refusal :=
  runThen s (scalarAlu .and q d a fun _ => .ok (imm6S i))

def execSorImm6 (q : Quals) (d a i : BitVec 6) (s : State) : Host.Outcome State Fault Refusal :=
  runThen s (scalarAlu .or q d a fun _ => .ok (imm6S i))

def execSxorImm6 (q : Quals) (d a i : BitVec 6) (s : State) : Host.Outcome State Fault Refusal :=
  runThen s (scalarAlu .xor q d a fun _ => .ok (imm6S i))

def execSandnImm6 (q : Quals) (d a i : BitVec 6) (s : State) : Host.Outcome State Fault Refusal :=
  runThen s (scalarAlu .andn q d a fun _ => .ok (imm6S i))

def execSshlImm6 (q : Quals) (d a i : BitVec 6) (s : State) : Host.Outcome State Fault Refusal :=
  runThen s (scalarAlu .shl q d a fun _ => .ok (imm6S i))

def execSshrImm6 (q : Quals) (d a i : BitVec 6) (s : State) : Host.Outcome State Fault Refusal :=
  runThen s (scalarAlu .shr q d a fun _ => .ok (imm6S i))

def execSsarImm6 (q : Quals) (d a i : BitVec 6) (s : State) : Host.Outcome State Fault Refusal :=
  runThen s (scalarAlu .sar q d a fun _ => .ok (imm6S i))

def execSminImm6 (q : Quals) (d a i : BitVec 6) (s : State) : Host.Outcome State Fault Refusal :=
  runThen s (scalarAlu .min q d a fun _ => .ok (imm6S i))

def execSmaxImm6 (q : Quals) (d a i : BitVec 6) (s : State) : Host.Outcome State Fault Refusal :=
  runThen s (scalarAlu .max q d a fun _ => .ok (imm6S i))

def execSminuImm6 (q : Quals) (d a i : BitVec 6) (s : State) : Host.Outcome State Fault Refusal :=
  runThen s (scalarAlu .minu q d a fun _ => .ok (imm6S i))

def execSmaxuImm6 (q : Quals) (d a i : BitVec 6) (s : State) : Host.Outcome State Fault Refusal :=
  runThen s (scalarAlu .maxu q d a fun _ => .ok (imm6S i))

/-! ### SCMP -/

def execScmpEq (q : Quals) (d a b : BitVec 6) (s : State) : Host.Outcome State Fault Refusal :=
  runThen s (scalarCmp .eq q d a b)

def execScmpNe (q : Quals) (d a b : BitVec 6) (s : State) : Host.Outcome State Fault Refusal :=
  runThen s (scalarCmp .ne q d a b)

def execScmpLt (q : Quals) (d a b : BitVec 6) (s : State) : Host.Outcome State Fault Refusal :=
  runThen s (scalarCmp .lt q d a b)

def execScmpLe (q : Quals) (d a b : BitVec 6) (s : State) : Host.Outcome State Fault Refusal :=
  runThen s (scalarCmp .le q d a b)

def execScmpLtu (q : Quals) (d a b : BitVec 6) (s : State) : Host.Outcome State Fault Refusal :=
  runThen s (scalarCmp .ltu q d a b)

def execScmpLeu (q : Quals) (d a b : BitVec 6) (s : State) : Host.Outcome State Fault Refusal :=
  runThen s (scalarCmp .leu q d a b)

def execScmpBt (q : Quals) (d a b : BitVec 6) (s : State) : Host.Outcome State Fault Refusal :=
  runThen s (scalarCmp .bt q d a b)

/-! ### SMOV -/

def execSmov (q : Quals) (d a : BitVec 6) (s : State) : Host.Outcome State Fault Refusal :=
  runThen s (scalarMove id q d a)

def execSclz (q : Quals) (d a : BitVec 6) (s : State) : Host.Outcome State Fault Refusal :=
  runThen s (scalarMove (fun x => BitVec.ofNat 64 (clz x)) q d a)

def execSpopc (q : Quals) (d a : BitVec 6) (s : State) : Host.Outcome State Fault Refusal :=
  runThen s (scalarMove (fun x => BitVec.ofNat 64 (popc x)) q d a)

def execSbrev (q : Quals) (d a : BitVec 6) (s : State) : Host.Outcome State Fault Refusal :=
  runThen s (scalarMove brev q d a)

def execSext32 (q : Quals) (d a : BitVec 6) (s : State) : Host.Outcome State Fault Refusal :=
  runThen s (scalarMove (fun x => (x.setWidth 32).signExtend 64) q d a)

/-- LDI: the immediate, sign-extended. -/
def execLdi (g : BitVec 3) (d : BitVec 6) (v : BitVec 25) (s : State) : Host.Outcome State Fault Refusal :=
  runThen s (once (quals g) fun c s => .ok (c.writeS s d (imm25S v)))

/-- LDIH: the upper half; s[D] is read, so it waits for LDU data. -/
def execLdih (g : BitVec 3) (d : BitVec 6) (v : BitVec 25) (s : State) : Host.Outcome State Fault Refusal :=
  runThen s (once (quals g) fun c s => do
    let x ← c.s d
    .ok (c.writeS s d (imm25V v ++ x.setWidth 32)))

/-- WFLD: field k of %wid. -/
def execWfld (q : Quals) (d b : BitVec 6) (s : State) : Host.Outcome State Fault Refusal :=
  runThen s (once q fun c s => .ok (c.writeS s d (BitVec.ofNat 64 (s.widField c.g b.toNat))))

/-- VEXT: lane B of v[A], active or not; it must not rename (R232, R236). -/
def execVext (q : Quals) (d a b : BitVec 6) (s : State) : Host.Outcome State Fault Refusal :=
  runThen s (once q fun c s => do
    let m := Quals.modx q
    c.checkOnce s ({ Need.atL with meld := c.isW a }.source m.ta a.toNat)
    let w := ((c.src.vreg a.toNat).through m.pa m.pax b.toNat)
    .ok (c.writeS s d (w.setWidth 64)))

end Sys2Proof.Machine
end

