-- ==== Sys2Proof/Machine/Dispatch.lean ====
section
/-!
DEFINITION. One instruction or event on a state: each constructor's meaning.
-/
namespace Sys2Proof.Machine

def exec (i : Instr) (s : State) : Host.Outcome State Fault Refusal :=
  match i with
  | .moduleReset => Sys2Proof.Machine.execModuleReset s
  | .runStart core part => Sys2Proof.Machine.execRunStart core part s
  | .waitEnd core grp ent => Sys2Proof.Machine.execWaitEnd core grp ent s
  | .causalDelayEnd core grp ent => Sys2Proof.Machine.execCausalDelayEnd core grp ent s
  | .loadDataArrival core grp pos => Sys2Proof.Machine.execLoadDataArrival core grp pos s
  | .postExecute core grp pos => Sys2Proof.Machine.execPostExecute core grp pos s
  | .postReport core grp pos => Sys2Proof.Machine.execPostReport core grp pos s
  | .postRelease core grp pos => Sys2Proof.Machine.execPostRelease core grp pos s
  | .cancelFrom core grp pos => Sys2Proof.Machine.execCancelFrom core grp pos s
  | .faultRecordWrite die => Sys2Proof.Machine.execFaultRecordWrite die s
  | .groupHeld core grp => Sys2Proof.Machine.execGroupHeld core grp s
  | .translationWalk vi core va => Sys2Proof.Machine.execTranslationWalk vi core va s
  | .gets k => Sys2Proof.Machine.execGets k s
  | .getm k => Sys2Proof.Machine.execGetm k s
  | .getu k => Sys2Proof.Machine.execGetu k s
  | .puts k => Sys2Proof.Machine.execPuts k s
  | .putm k => Sys2Proof.Machine.execPutm k s
  | .ack k => Sys2Proof.Machine.execAck k s
  | .data k => Sys2Proof.Machine.execData k s
  | .atom k => Sys2Proof.Machine.execAtom k s
  | .recall part line => Sys2Proof.Machine.execRecall part line s
  | .leasex part line => Sys2Proof.Machine.execLeasex part line s
  | .hsnp k => Sys2Proof.Machine.execHsnp k s
  | .hget k => Sys2Proof.Machine.execHget k s
  | .hput k => Sys2Proof.Machine.execHput k s
  | .ncr k => Sys2Proof.Machine.execNcr k s
  | .ncw k => Sys2Proof.Machine.execNcw k s
  | .invalidation k => Sys2Proof.Machine.execInvalidation k s
  | .update k => Sys2Proof.Machine.execUpdate k s
  | .forward k => Sys2Proof.Machine.execForward k s
  | .reply k => Sys2Proof.Machine.execReply k s
  | .sliceEviction part line => Sys2Proof.Machine.execSliceEviction part line s
  | .prangeWrite k r value => Sys2Proof.Machine.execPrangeWrite k r value s
  | .fmtWrite k r value => Sys2Proof.Machine.execFmtWrite k r value s
  | .bankpartWrite stack value => Sys2Proof.Machine.execBankpartWrite stack value s
  | .mirmetCfgWrite stack value => Sys2Proof.Machine.execMirmetCfgWrite stack value s
  | .subWave stack pch => Sys2Proof.Machine.execSubWave stack pch s
  | .computeBankRefresh stack pch bank => Sys2Proof.Machine.execComputeBankRefresh stack pch bank s
  | .computeWindowAccess k => Sys2Proof.Machine.execComputeWindowAccess k s
  | .bankDrain clus bank => Sys2Proof.Machine.execBankDrain clus bank s
  | .copyPiece core chan => Sys2Proof.Machine.execCopyPiece core chan s
  | .chCtlResume core chan => Sys2Proof.Machine.execChCtlResume core chan s
  | .chCtlAbort core chan => Sys2Proof.Machine.execChCtlAbort core chan s
  | .slotPresent core part slot => Sys2Proof.Machine.execSlotPresent core part slot s
  | .matrixPass core part => Sys2Proof.Machine.execMatrixPass core part s
  | .passResult core part => Sys2Proof.Machine.execPassResult core part s
  | .lnqTailWrite vi q value => Sys2Proof.Machine.execLnqTailWrite vi q value s
  | .launchAccept vi q => Sys2Proof.Machine.execLaunchAccept vi q s
  | .lnqCfgWrite vi q value => Sys2Proof.Machine.execLnqCfgWrite vi q value s
  | .lnqBaseWrite vi q value => Sys2Proof.Machine.execLnqBaseWrite vi q value s
  | .teamDispatch vi id team core => Sys2Proof.Machine.execTeamDispatch vi id team core s
  | .teamRetire vi id team => Sys2Proof.Machine.execTeamRetire vi id team s
  | .memrd port dec off => Sys2Proof.Machine.execMemrd port dec off s
  | .memwr port dec off value => Sys2Proof.Machine.execMemwr port dec off value s
  | .birsp port part line half => Sys2Proof.Machine.execBirsp port part line half s
  | .h2dSnoop port addr => Sys2Proof.Machine.execH2dSnoop port addr s
  | .rdcurrCompletion k value poison => Sys2Proof.Machine.execRdcurrCompletion k value poison s
  | .globalObservation k => Sys2Proof.Machine.execGlobalObservation k s
  | .biasReqWrite vi value => Sys2Proof.Machine.execBiasReqWrite vi value s
  | .biasStatWrite vi value => Sys2Proof.Machine.execBiasStatWrite vi value s
  | .biasFlipComplete part page => Sys2Proof.Machine.execBiasFlipComplete part page s
  | .ptmDialogue hostNs ok => Sys2Proof.Machine.execPtmDialogue hostNs ok s
  | .buithFlit link crcOk => Sys2Proof.Machine.execBuithFlit link crcOk s
  | .hwCfgWrite j r value => Sys2Proof.Machine.execHwCfgWrite j r value s
  | .quiesce dies => Sys2Proof.Machine.execQuiesce dies s
  | .quiesceDone => Sys2Proof.Machine.execQuiesceDone s
  | .quiesceTimeout => Sys2Proof.Machine.execQuiesceTimeout s
  | .release dies => Sys2Proof.Machine.execRelease dies s
  | .abort dies => Sys2Proof.Machine.execAbort dies s
  | .partitionRegisterWrite off value => Sys2Proof.Machine.execPartitionRegisterWrite off value s
  | .partQtimeoutWrite value => Sys2Proof.Machine.execPartQtimeoutWrite value s
  | .viPolicyWrite vi value => Sys2Proof.Machine.execViPolicyWrite vi value s
  | .admSqTailWrite vi value => Sys2Proof.Machine.execAdmSqTailWrite vi value s
  | .resync vi => Sys2Proof.Machine.execResync vi s
  | .imageLoad vi => Sys2Proof.Machine.execImageLoad vi s
  | .acct vi => Sys2Proof.Machine.execAcct vi s
  | .ctxReset vi => Sys2Proof.Machine.execCtxReset vi s
  | .adminCompletionWrite vi => Sys2Proof.Machine.execAdminCompletionWrite vi s
  | .admCfgWrite vi value => Sys2Proof.Machine.execAdmCfgWrite vi value s
  | .haltWrite die value => Sys2Proof.Machine.execHaltWrite die value s
  | .accountingUpdate vi => Sys2Proof.Machine.execAccountingUpdate vi s
  | .acctRead vi => Sys2Proof.Machine.execAcctRead vi s
  | .pldmSensorRead sensor => Sys2Proof.Machine.execPldmSensorRead sensor s
  | .spdmRequest code => Sys2Proof.Machine.execSpdmRequest code s
  | .fqCfgWrite die value => Sys2Proof.Machine.execFqCfgWrite die value s
  | .registerWrite off value => Sys2Proof.Machine.execRegisterWrite off value s
  | .nop q => Sys2Proof.Machine.execNop q s
  | .land q => Sys2Proof.Machine.execLand q s
  | .yield q => Sys2Proof.Machine.execYield q s
  | .exit q => Sys2Proof.Machine.execExit q s
  | .brk q b => Sys2Proof.Machine.execBrk q b s
  | .trap q b => Sys2Proof.Machine.execTrap q b s
  | .waitf q d => Sys2Proof.Machine.execWaitf q d s
  | .prog q b => Sys2Proof.Machine.execProg q b s
  | .dphinc q => Sys2Proof.Machine.execDphinc q s
  | .br q x => Sys2Proof.Machine.execBr q x s
  | .brm q x => Sys2Proof.Machine.execBrm q x s
  | .call q x => Sys2Proof.Machine.execCall q x s
  | .jmps q a => Sys2Proof.Machine.execJmps q a s
  | .jmpv q a => Sys2Proof.Machine.execJmpv q a s
  | .calls q a => Sys2Proof.Machine.execCalls q a s
  | .ret q => Sys2Proof.Machine.execRet q s
  | .join => Sys2Proof.Machine.execJoin s
  | .joinm => Sys2Proof.Machine.execJoinm s
  | .map0 d a => Sys2Proof.Machine.execMap0 d a s
  | .map1 d a => Sys2Proof.Machine.execMap1 d a s
  | .side d => Sys2Proof.Machine.execSide d s
  | .split v => Sys2Proof.Machine.execSplit v s
  | .emrd q d => Sys2Proof.Machine.execEmrd q d s
  | .emwr q a => Sys2Proof.Machine.execEmwr q a s
  | .laneid q d => Sys2Proof.Machine.execLaneid q d s
  | .emp q d => Sys2Proof.Machine.execEmp q d s
  | .pathid d => Sys2Proof.Machine.execPathid d s
  | .sadd q d a b => Sys2Proof.Machine.execSadd q d a b s
  | .ssub q d a b => Sys2Proof.Machine.execSsub q d a b s
  | .smul q d a b => Sys2Proof.Machine.execSmul q d a b s
  | .smulhi q d a b => Sys2Proof.Machine.execSmulhi q d a b s
  | .smulhu q d a b => Sys2Proof.Machine.execSmulhu q d a b s
  | .sand q d a b => Sys2Proof.Machine.execSand q d a b s
  | .sor q d a b => Sys2Proof.Machine.execSor q d a b s
  | .sxor q d a b => Sys2Proof.Machine.execSxor q d a b s
  | .sandn q d a b => Sys2Proof.Machine.execSandn q d a b s
  | .sshl q d a b => Sys2Proof.Machine.execSshl q d a b s
  | .sshr q d a b => Sys2Proof.Machine.execSshr q d a b s
  | .ssar q d a b => Sys2Proof.Machine.execSsar q d a b s
  | .smin q d a b => Sys2Proof.Machine.execSmin q d a b s
  | .smax q d a b => Sys2Proof.Machine.execSmax q d a b s
  | .sminu q d a b => Sys2Proof.Machine.execSminu q d a b s
  | .smaxu q d a b => Sys2Proof.Machine.execSmaxu q d a b s
  | .saddImm6 q d a imm => Sys2Proof.Machine.execSaddImm6 q d a imm s
  | .ssubImm6 q d a imm => Sys2Proof.Machine.execSsubImm6 q d a imm s
  | .smulImm6 q d a imm => Sys2Proof.Machine.execSmulImm6 q d a imm s
  | .smulhiImm6 q d a imm => Sys2Proof.Machine.execSmulhiImm6 q d a imm s
  | .smulhuImm6 q d a imm => Sys2Proof.Machine.execSmulhuImm6 q d a imm s
  | .sandImm6 q d a imm => Sys2Proof.Machine.execSandImm6 q d a imm s
  | .sorImm6 q d a imm => Sys2Proof.Machine.execSorImm6 q d a imm s
  | .sxorImm6 q d a imm => Sys2Proof.Machine.execSxorImm6 q d a imm s
  | .sandnImm6 q d a imm => Sys2Proof.Machine.execSandnImm6 q d a imm s
  | .sshlImm6 q d a imm => Sys2Proof.Machine.execSshlImm6 q d a imm s
  | .sshrImm6 q d a imm => Sys2Proof.Machine.execSshrImm6 q d a imm s
  | .ssarImm6 q d a imm => Sys2Proof.Machine.execSsarImm6 q d a imm s
  | .sminImm6 q d a imm => Sys2Proof.Machine.execSminImm6 q d a imm s
  | .smaxImm6 q d a imm => Sys2Proof.Machine.execSmaxImm6 q d a imm s
  | .sminuImm6 q d a imm => Sys2Proof.Machine.execSminuImm6 q d a imm s
  | .smaxuImm6 q d a imm => Sys2Proof.Machine.execSmaxuImm6 q d a imm s
  | .scmpEq q d a b => Sys2Proof.Machine.execScmpEq q d a b s
  | .scmpNe q d a b => Sys2Proof.Machine.execScmpNe q d a b s
  | .scmpLt q d a b => Sys2Proof.Machine.execScmpLt q d a b s
  | .scmpLe q d a b => Sys2Proof.Machine.execScmpLe q d a b s
  | .scmpLtu q d a b => Sys2Proof.Machine.execScmpLtu q d a b s
  | .scmpLeu q d a b => Sys2Proof.Machine.execScmpLeu q d a b s
  | .scmpBt q d a b => Sys2Proof.Machine.execScmpBt q d a b s
  | .smov q d a => Sys2Proof.Machine.execSmov q d a s
  | .ldi g d v => Sys2Proof.Machine.execLdi g d v s
  | .ldih g d v => Sys2Proof.Machine.execLdih g d v s
  | .wfld q d b => Sys2Proof.Machine.execWfld q d b s
  | .sclz q d a => Sys2Proof.Machine.execSclz q d a s
  | .spopc q d a => Sys2Proof.Machine.execSpopc q d a s
  | .sbrev q d a => Sys2Proof.Machine.execSbrev q d a s
  | .vext q d a b => Sys2Proof.Machine.execVext q d a b s
  | .sext32 q d a => Sys2Proof.Machine.execSext32 q d a s
  | .iadd q d a b => Sys2Proof.Machine.execIadd q d a b s
  | .isub q d a b => Sys2Proof.Machine.execIsub q d a b s
  | .imul q d a b => Sys2Proof.Machine.execImul q d a b s
  | .imulhi q d a b => Sys2Proof.Machine.execImulhi q d a b s
  | .imulhu q d a b => Sys2Proof.Machine.execImulhu q d a b s
  | .and q d a b => Sys2Proof.Machine.execAnd q d a b s
  | .or q d a b => Sys2Proof.Machine.execOr q d a b s
  | .xor q d a b => Sys2Proof.Machine.execXor q d a b s
  | .andn q d a b => Sys2Proof.Machine.execAndn q d a b s
  | .shl q d a b => Sys2Proof.Machine.execShl q d a b s
  | .shr q d a b => Sys2Proof.Machine.execShr q d a b s
  | .sar q d a b => Sys2Proof.Machine.execSar q d a b s
  | .imin q d a b => Sys2Proof.Machine.execImin q d a b s
  | .imax q d a b => Sys2Proof.Machine.execImax q d a b s
  | .iminu q d a b => Sys2Proof.Machine.execIminu q d a b s
  | .imaxu q d a b => Sys2Proof.Machine.execImaxu q d a b s
  | .iaddImm6 q d a imm => Sys2Proof.Machine.execIaddImm6 q d a imm s
  | .isubImm6 q d a imm => Sys2Proof.Machine.execIsubImm6 q d a imm s
  | .imulImm6 q d a imm => Sys2Proof.Machine.execImulImm6 q d a imm s
  | .imulhiImm6 q d a imm => Sys2Proof.Machine.execImulhiImm6 q d a imm s
  | .imulhuImm6 q d a imm => Sys2Proof.Machine.execImulhuImm6 q d a imm s
  | .andImm6 q d a imm => Sys2Proof.Machine.execAndImm6 q d a imm s
  | .orImm6 q d a imm => Sys2Proof.Machine.execOrImm6 q d a imm s
  | .xorImm6 q d a imm => Sys2Proof.Machine.execXorImm6 q d a imm s
  | .andnImm6 q d a imm => Sys2Proof.Machine.execAndnImm6 q d a imm s
  | .shlImm6 q d a imm => Sys2Proof.Machine.execShlImm6 q d a imm s
  | .shrImm6 q d a imm => Sys2Proof.Machine.execShrImm6 q d a imm s
  | .sarImm6 q d a imm => Sys2Proof.Machine.execSarImm6 q d a imm s
  | .iminImm6 q d a imm => Sys2Proof.Machine.execIminImm6 q d a imm s
  | .imaxImm6 q d a imm => Sys2Proof.Machine.execImaxImm6 q d a imm s
  | .iminuImm6 q d a imm => Sys2Proof.Machine.execIminuImm6 q d a imm s
  | .imaxuImm6 q d a imm => Sys2Proof.Machine.execImaxuImm6 q d a imm s
  | .imad q d a b => Sys2Proof.Machine.execImad q d a b s
  | .vclz q d a => Sys2Proof.Machine.execVclz q d a s
  | .vpopc q d a => Sys2Proof.Machine.execVpopc q d a s
  | .vbrev q d a => Sys2Proof.Machine.execVbrev q d a s
  | .bfe q d a b => Sys2Proof.Machine.execBfe q d a b s
  | .bfi q d a b => Sys2Proof.Machine.execBfi q d a b s
  | .bysel q d a b => Sys2Proof.Machine.execBysel q d a b s
  | .i8dot4 q d a b => Sys2Proof.Machine.execI8dot4 q d a b s
  | .n8dot4 q d a b => Sys2Proof.Machine.execN8dot4 q d a b s
  | .icmpEq q d a b => Sys2Proof.Machine.execIcmpEq q d a b s
  | .icmpNe q d a b => Sys2Proof.Machine.execIcmpNe q d a b s
  | .icmpLt q d a b => Sys2Proof.Machine.execIcmpLt q d a b s
  | .icmpLe q d a b => Sys2Proof.Machine.execIcmpLe q d a b s
  | .icmpGt q d a b => Sys2Proof.Machine.execIcmpGt q d a b s
  | .icmpGe q d a b => Sys2Proof.Machine.execIcmpGe q d a b s
  | .icmpLtu q d a b => Sys2Proof.Machine.execIcmpLtu q d a b s
  | .icmpLeu q d a b => Sys2Proof.Machine.execIcmpLeu q d a b s
  | .icmpGtu q d a b => Sys2Proof.Machine.execIcmpGtu q d a b s
  | .icmpGeu q d a b => Sys2Proof.Machine.execIcmpGeu q d a b s
  | .icmpBt q d a b => Sys2Proof.Machine.execIcmpBt q d a b s
  | .vmov q d a => Sys2Proof.Machine.execVmov q d a s
  | .sel q d a b => Sys2Proof.Machine.execSel q d a b s
  | .bcst q d a => Sys2Proof.Machine.execBcst q d a s
  | .ldiv g d v => Sys2Proof.Machine.execLdiv g d v s
  | .vins q d a b => Sys2Proof.Machine.execVins q d a b s
  | .pand q d a b => Sys2Proof.Machine.execPand q d a b s
  | .por q d a b => Sys2Proof.Machine.execPor q d a b s
  | .pxor q d a b => Sys2Proof.Machine.execPxor q d a b s
  | .pandn q d a b => Sys2Proof.Machine.execPandn q d a b s
  | .porn q d a b => Sys2Proof.Machine.execPorn q d a b s
  | .pnot q d a => Sys2Proof.Machine.execPnot q d a s
  | .pmov q d a => Sys2Proof.Machine.execPmov q d a s
  | .pset q d => Sys2Proof.Machine.execPset q d s
  | .pclr q d => Sys2Proof.Machine.execPclr q d s
  | .p2s q d a => Sys2Proof.Machine.execP2s q d a s
  | .s2p q d a => Sys2Proof.Machine.execS2p q d a s
  | .ppop q d a => Sys2Proof.Machine.execPpop q d a s
  | .pfirst q d a => Sys2Proof.Machine.execPfirst q d a s
  | .shfl q d a b => Sys2Proof.Machine.execShfl q d a b s
  | .shfls q d a b => Sys2Proof.Machine.execShfls q d a b s
  | .xredAddI32 q d a b => Sys2Proof.Machine.execXredAddI32 q d a b s
  | .xredMinI32 q d a b => Sys2Proof.Machine.execXredMinI32 q d a b s
  | .xredMaxI32 q d a b => Sys2Proof.Machine.execXredMaxI32 q d a b s
  | .xredMinu q d a b => Sys2Proof.Machine.execXredMinu q d a b s
  | .xredMaxu q d a b => Sys2Proof.Machine.execXredMaxu q d a b s
  | .xredAnd q d a b => Sys2Proof.Machine.execXredAnd q d a b s
  | .xredOr q d a b => Sys2Proof.Machine.execXredOr q d a b s
  | .xredXor q d a b => Sys2Proof.Machine.execXredXor q d a b s
  | .xredAddF32 q d a b => Sys2Proof.Machine.execXredAddF32 q d a b s
  | .xredMinF32 q d a b => Sys2Proof.Machine.execXredMinF32 q d a b s
  | .xredMaxF32 q d a b => Sys2Proof.Machine.execXredMaxF32 q d a b s
  | .xscanAddI32 q d a b => Sys2Proof.Machine.execXscanAddI32 q d a b s
  | .xscanAddF32 q d a b => Sys2Proof.Machine.execXscanAddF32 q d a b s
  | .xscanMaxF32 q d a b => Sys2Proof.Machine.execXscanMaxF32 q d a b s
  | .xscanMinF32 q d a b => Sys2Proof.Machine.execXscanMinF32 q d a b s
  | .xscanMaxI32 q d a b => Sys2Proof.Machine.execXscanMaxI32 q d a b s
  | .xscanOr q d a b => Sys2Proof.Machine.execXscanOr q d a b s
  | .xvoteAll q d a b => Sys2Proof.Machine.execXvoteAll q d a b s
  | .xvoteAny q d a b => Sys2Proof.Machine.execXvoteAny q d a b s
  | .xvoteBallot q d a b => Sys2Proof.Machine.execXvoteBallot q d a b s
  | .xvoteMatch q d a b => Sys2Proof.Machine.execXvoteMatch q d a b s
  | .fadd q d a b => Sys2Proof.Machine.execFadd q d a b s
  | .fsub q d a b => Sys2Proof.Machine.execFsub q d a b s
  | .fmul q d a b => Sys2Proof.Machine.execFmul q d a b s
  | .fmin q d a b => Sys2Proof.Machine.execFmin q d a b s
  | .fmax q d a b => Sys2Proof.Machine.execFmax q d a b s
  | .fminn q d a b => Sys2Proof.Machine.execFminn q d a b s
  | .fmaxn q d a b => Sys2Proof.Machine.execFmaxn q d a b s
  | .fabs q d a => Sys2Proof.Machine.execFabs q d a s
  | .fneg q d a => Sys2Proof.Machine.execFneg q d a s
  | .fcps q d a b => Sys2Proof.Machine.execFcps q d a b s
  | .fflr q d a => Sys2Proof.Machine.execFflr q d a s
  | .fcel q d a => Sys2Proof.Machine.execFcel q d a s
  | .ftrc q d a => Sys2Proof.Machine.execFtrc q d a s
  | .frni q d a => Sys2Proof.Machine.execFrni q d a s
  | .hadd2 q d a b => Sys2Proof.Machine.execHadd2 q d a b s
  | .hmul2 q d a b => Sys2Proof.Machine.execHmul2 q d a b s
  | .hmin2 q d a b => Sys2Proof.Machine.execHmin2 q d a b s
  | .hmax2 q d a b => Sys2Proof.Machine.execHmax2 q d a b s
  | .badd2 q d a b => Sys2Proof.Machine.execBadd2 q d a b s
  | .bmul2 q d a b => Sys2Proof.Machine.execBmul2 q d a b s
  | .bmin2 q d a b => Sys2Proof.Machine.execBmin2 q d a b s
  | .bmax2 q d a b => Sys2Proof.Machine.execBmax2 q d a b s
  | .fma q d a b => Sys2Proof.Machine.execFma q d a b s
  | .fms q d a b => Sys2Proof.Machine.execFms q d a b s
  | .fnma q d a b => Sys2Proof.Machine.execFnma q d a b s
  | .fma3 g d a b c sx => Sys2Proof.Machine.execFma3 g d a b c sx s
  | .hfma2 q d a b => Sys2Proof.Machine.execHfma2 q d a b s
  | .bfma2 q d a b => Sys2Proof.Machine.execBfma2 q d a b s
  | .fcmpEq q d a b => Sys2Proof.Machine.execFcmpEq q d a b s
  | .fcmpNe q d a b => Sys2Proof.Machine.execFcmpNe q d a b s
  | .fcmpLt q d a b => Sys2Proof.Machine.execFcmpLt q d a b s
  | .fcmpLe q d a b => Sys2Proof.Machine.execFcmpLe q d a b s
  | .fcmpGt q d a b => Sys2Proof.Machine.execFcmpGt q d a b s
  | .fcmpGe q d a b => Sys2Proof.Machine.execFcmpGe q d a b s
  | .fcmpUno q d a b => Sys2Proof.Machine.execFcmpUno q d a b s
  | .fcmpOrd q d a b => Sys2Proof.Machine.execFcmpOrd q d a b s
  | .fcmpClass g d a v => Sys2Proof.Machine.execFcmpClass g d a v s
  | .frcp q d a => Sys2Proof.Machine.execFrcp q d a s
  | .frsq q d a => Sys2Proof.Machine.execFrsq q d a s
  | .fsqrt q d a => Sys2Proof.Machine.execFsqrt q d a s
  | .fexp2 q d a => Sys2Proof.Machine.execFexp2 q d a s
  | .flog2 q d a => Sys2Proof.Machine.execFlog2 q d a s
  | .fdiv q d a b => Sys2Proof.Machine.execFdiv q d a b s
  | .cvtF16F32 q d a n sat r => Sys2Proof.Machine.execCvtF16F32 q d a n sat r s
  | .cvtBf16F32 q d a n sat r => Sys2Proof.Machine.execCvtBf16F32 q d a n sat r s
  | .cvtF8e4F32 q d a n sat r => Sys2Proof.Machine.execCvtF8e4F32 q d a n sat r s
  | .cvtF8e5F32 q d a n sat r => Sys2Proof.Machine.execCvtF8e5F32 q d a n sat r s
  | .cvtF32F16 q d a n => Sys2Proof.Machine.execCvtF32F16 q d a n s
  | .cvtF32Bf16 q d a n => Sys2Proof.Machine.execCvtF32Bf16 q d a n s
  | .cvtF32F8e4 q d a n => Sys2Proof.Machine.execCvtF32F8e4 q d a n s
  | .cvtF32F8e5 q d a n => Sys2Proof.Machine.execCvtF32F8e5 q d a n s
  | .cvtI32F32 q d a sat r => Sys2Proof.Machine.execCvtI32F32 q d a sat r s
  | .cvtN32F32 q d a sat r => Sys2Proof.Machine.execCvtN32F32 q d a sat r s
  | .cvtF32I32 q d a r => Sys2Proof.Machine.execCvtF32I32 q d a r s
  | .cvtF32N32 q d a r => Sys2Proof.Machine.execCvtF32N32 q d a r s
  | .cbk q d a n => Sys2Proof.Machine.execCbk q d a n s
  | .pk2h q d a b => Sys2Proof.Machine.execPk2h q d a b s
  | .pkhi q d a b => Sys2Proof.Machine.execPkhi q d a b s
  | .pkb01 q d a b => Sys2Proof.Machine.execPkb01 q d a b s
  | .pkb23 q d a b => Sys2Proof.Machine.execPkb23 q d a b s
  | .upklo q d a => Sys2Proof.Machine.execUpklo q d a s
  | .upkhi q d a => Sys2Proof.Machine.execUpkhi q d a s
  | .ldB8z q d a sat => Sys2Proof.Machine.execLdB8z q d a sat s
  | .ldB8s q d a sat => Sys2Proof.Machine.execLdB8s q d a sat s
  | .ldB16z q d a sat => Sys2Proof.Machine.execLdB16z q d a sat s
  | .ldB16s q d a sat => Sys2Proof.Machine.execLdB16s q d a sat s
  | .ldB32 q d a sat => Sys2Proof.Machine.execLdB32 q d a sat s
  | .ldB64 q d a sat => Sys2Proof.Machine.execLdB64 q d a sat s
  | .ldB128 q d a sat => Sys2Proof.Machine.execLdB128 q d a sat s
  | .ldW32 q d a => Sys2Proof.Machine.execLdW32 q d a s
  | .stB8 q d a sat => Sys2Proof.Machine.execStB8 q d a sat s
  | .stB16 q d a sat => Sys2Proof.Machine.execStB16 q d a sat s
  | .stB32 q d a sat => Sys2Proof.Machine.execStB32 q d a sat s
  | .stB64 q d a sat => Sys2Proof.Machine.execStB64 q d a sat s
  | .stB128 q d a sat => Sys2Proof.Machine.execStB128 q d a sat s
  | .stW32 q d a => Sys2Proof.Machine.execStW32 q d a s
  | .lduB32z q d sat => Sys2Proof.Machine.execLduB32z q d sat s
  | .lduB32s q d sat => Sys2Proof.Machine.execLduB32s q d sat s
  | .lduB64 q d sat => Sys2Proof.Machine.execLduB64 q d sat s
  | .stuB32 q d sat => Sys2Proof.Machine.execStuB32 q d sat s
  | .stuB64 q d sat => Sys2Proof.Machine.execStuB64 q d sat s
  | .ldxB8z g d a sat m => Sys2Proof.Machine.execLdxB8z g d a sat m s
  | .ldxB8s g d a sat m => Sys2Proof.Machine.execLdxB8s g d a sat m s
  | .ldxB16z g d a sat m => Sys2Proof.Machine.execLdxB16z g d a sat m s
  | .ldxB16s g d a sat m => Sys2Proof.Machine.execLdxB16s g d a sat m s
  | .ldxB32 g d a sat m => Sys2Proof.Machine.execLdxB32 g d a sat m s
  | .ldxB64 g d a sat m => Sys2Proof.Machine.execLdxB64 g d a sat m s
  | .ldxB128 g d a sat m => Sys2Proof.Machine.execLdxB128 g d a sat m s
  | .stxB8 g d a sat m => Sys2Proof.Machine.execStxB8 g d a sat m s
  | .stxB16 g d a sat m => Sys2Proof.Machine.execStxB16 g d a sat m s
  | .stxB32 g d a sat m => Sys2Proof.Machine.execStxB32 g d a sat m s
  | .stxB64 g d a sat m => Sys2Proof.Machine.execStxB64 g d a sat m s
  | .stxB128 g d a sat m => Sys2Proof.Machine.execStxB128 g d a sat m s
  | .atomAddI32 g d a sat m => Sys2Proof.Machine.execAtomAddI32 g d a sat m s
  | .atomAddF32 g d a sat m => Sys2Proof.Machine.execAtomAddF32 g d a sat m s
  | .atomMinI32 g d a sat m => Sys2Proof.Machine.execAtomMinI32 g d a sat m s
  | .atomMaxI32 g d a sat m => Sys2Proof.Machine.execAtomMaxI32 g d a sat m s
  | .atomMinu g d a sat m => Sys2Proof.Machine.execAtomMinu g d a sat m s
  | .atomMaxu g d a sat m => Sys2Proof.Machine.execAtomMaxu g d a sat m s
  | .atomAnd g d a sat m => Sys2Proof.Machine.execAtomAnd g d a sat m s
  | .atomOr g d a sat m => Sys2Proof.Machine.execAtomOr g d a sat m s
  | .atomXor g d a sat m => Sys2Proof.Machine.execAtomXor g d a sat m s
  | .atomXchg g d a sat m => Sys2Proof.Machine.execAtomXchg g d a sat m s
  | .atomIncw g d a sat m => Sys2Proof.Machine.execAtomIncw g d a sat m s
  | .atomDecw g d a sat m => Sys2Proof.Machine.execAtomDecw g d a sat m s
  | .atomAddI64 g d a sat m => Sys2Proof.Machine.execAtomAddI64 g d a sat m s
  | .atomXchg64 g d a sat m => Sys2Proof.Machine.execAtomXchg64 g d a sat m s
  | .atomAddH2 g d a sat m => Sys2Proof.Machine.execAtomAddH2 g d a sat m s
  | .atomAddB2 g d a sat m => Sys2Proof.Machine.execAtomAddB2 g d a sat m s
  | .redAddI32 g d a sat m => Sys2Proof.Machine.execRedAddI32 g d a sat m s
  | .redAddF32 g d a sat m => Sys2Proof.Machine.execRedAddF32 g d a sat m s
  | .redMinI32 g d a sat m => Sys2Proof.Machine.execRedMinI32 g d a sat m s
  | .redMaxI32 g d a sat m => Sys2Proof.Machine.execRedMaxI32 g d a sat m s
  | .redMinu g d a sat m => Sys2Proof.Machine.execRedMinu g d a sat m s
  | .redMaxu g d a sat m => Sys2Proof.Machine.execRedMaxu g d a sat m s
  | .redAnd g d a sat m => Sys2Proof.Machine.execRedAnd g d a sat m s
  | .redOr g d a sat m => Sys2Proof.Machine.execRedOr g d a sat m s
  | .redXor g d a sat m => Sys2Proof.Machine.execRedXor g d a sat m s
  | .redXchg g d a sat m => Sys2Proof.Machine.execRedXchg g d a sat m s
  | .redIncw g d a sat m => Sys2Proof.Machine.execRedIncw g d a sat m s
  | .redDecw g d a sat m => Sys2Proof.Machine.execRedDecw g d a sat m s
  | .redAddI64 g d a sat m => Sys2Proof.Machine.execRedAddI64 g d a sat m s
  | .redXchg64 g d a sat m => Sys2Proof.Machine.execRedXchg64 g d a sat m s
  | .redAddH2 g d a sat m => Sys2Proof.Machine.execRedAddH2 g d a sat m s
  | .redAddB2 g d a sat m => Sys2Proof.Machine.execRedAddB2 g d a sat m s
  | .cas32 g d a sat m => Sys2Proof.Machine.execCas32 g d a sat m s
  | .cas64 g d a sat m => Sys2Proof.Machine.execCas64 g d a sat m s
  | .fence m => Sys2Proof.Machine.execFence m s
  | .fenceEng m => Sys2Proof.Machine.execFenceEng m s
  | .pref q sat => Sys2Proof.Machine.execPref q sat s
  | .cwb q sat => Sys2Proof.Machine.execCwb q sat s
  | .cinv q sat => Sys2Proof.Machine.execCinv q sat s
  | .czero q sat => Sys2Proof.Machine.execCzero q sat s
  | .bankm q a sat => Sys2Proof.Machine.execBankm q a sat s
  | .cevt q sat => Sys2Proof.Machine.execCevt q sat s
  | .spill q d a sat => Sys2Proof.Machine.execSpill q d a sat s
  | .fill q d a sat => Sys2Proof.Machine.execFill q d a sat s
  | .ldoF8 q d sat => Sys2Proof.Machine.execLdoF8 q d sat s
  | .ldoBf16 q d sat => Sys2Proof.Machine.execLdoBf16 q d sat s
  | .ldoQ4n q d sat => Sys2Proof.Machine.execLdoQ4n q d sat s
  | .claim q d => Sys2Proof.Machine.execClaim q d s
  | .rels q d => Sys2Proof.Machine.execRels q d s
  | .slotq q d a => Sys2Proof.Machine.execSlotq q d a s
  | .mmaE4e4 q d a b => Sys2Proof.Machine.execMmaE4e4 q d a b s
  | .mmaE5e4 q d a b => Sys2Proof.Machine.execMmaE5e4 q d a b s
  | .mmaE4e5 q d a b => Sys2Proof.Machine.execMmaE4e5 q d a b s
  | .mmaE5e5 q d a b => Sys2Proof.Machine.execMmaE5e5 q d a b s
  | .mmaBf16 q d a b => Sys2Proof.Machine.execMmaBf16 q d a b s
  | .mmaF16 q d a b => Sys2Proof.Machine.execMmaF16 q d a b s
  | .mmaE4q4 q d a b => Sys2Proof.Machine.execMmaE4q4 q d a b s
  | .mmaI8 q d a b => Sys2Proof.Machine.execMmaI8 q d a b s
  | .mmspE4e4 g d a b c sx => Sys2Proof.Machine.execMmspE4e4 g d a b c sx s
  | .mmspBf16 g d a b c sx => Sys2Proof.Machine.execMmspBf16 g d a b c sx s
  | .mmspI8 g d a b c sx => Sys2Proof.Machine.execMmspI8 g d a b c sx s
  | .cpy q d a b c => Sys2Proof.Machine.execCpy q d a b c s
  | .cpy2d g d a b c rows pitch => Sys2Proof.Machine.execCpy2d g d a b c rows pitch s
  | .twait q a c => Sys2Proof.Machine.execTwait q a c s
  | .treadIss q d c => Sys2Proof.Machine.execTreadIss q d c s
  | .treadDone q d c => Sys2Proof.Machine.execTreadDone q d c s
  | .treadWp q d c => Sys2Proof.Machine.execTreadWp q d c s
  | .wpwait q a c => Sys2Proof.Machine.execWpwait q a c s
  | .qpush q d a => Sys2Proof.Machine.execQpush q d a s
  | .qpushTry q d a b => Sys2Proof.Machine.execQpushTry q d a b s
  | .qpop q d a => Sys2Proof.Machine.execQpop q d a s
  | .qpopTry q d a b => Sys2Proof.Machine.execQpopTry q d a b s
  | .qinit q d a b => Sys2Proof.Machine.execQinit q d a b s
  | .qallow q d a => Sys2Proof.Machine.execQallow q d a s
  | .qclose q d => Sys2Proof.Machine.execQclose q d s
  | .binit q d a => Sys2Proof.Machine.execBinit q d a s
  | .barr q d => Sys2Proof.Machine.execBarr q d s
  | .bwait q d => Sys2Proof.Machine.execBwait q d s
  | .bsync q d => Sys2Proof.Machine.execBsync q d s
  | .barrn q d a => Sys2Proof.Machine.execBarrn q d a s
  | .homeL q d => Sys2Proof.Machine.execHomeL q d s
  | .homeK q d => Sys2Proof.Machine.execHomeK q d s
  | .homeH q d a => Sys2Proof.Machine.execHomeH q d a s
  | .homeM q d a => Sys2Proof.Machine.execHomeM q d a s
  | .drain q => Sys2Proof.Machine.execDrain q s
  | .mfpm q d a => Sys2Proof.Machine.execMfpm q d a s
  | .quota q a => Sys2Proof.Machine.execQuota q a s
  | .akey q d a => Sys2Proof.Machine.execAkey q d a s
  | .aact q d a => Sys2Proof.Machine.execAact q d a s
  | .acmp q d => Sys2Proof.Machine.execAcmp q d s
  | .acmpa q d => Sys2Proof.Machine.execAcmpa q d s
  | .acmpo q d => Sys2Proof.Machine.execAcmpo q d s
  | .awrt q d => Sys2Proof.Machine.execAwrt q d s
  | .apass q d a => Sys2Proof.Machine.execApass q d a s
  | .apre q d => Sys2Proof.Machine.execApre q d s
  | .ardt q d b => Sys2Proof.Machine.execArdt q d b s
  | .acnt q d => Sys2Proof.Machine.execAcnt q d s
  | .launch q d a => Sys2Proof.Machine.execLaunch q d a s
  | .tsig q => Sys2Proof.Machine.execTsig q s
  | .evset q a => Sys2Proof.Machine.execEvset q a s
  | .evwait q a => Sys2Proof.Machine.execEvwait q a s
  | .lstat q d a => Sys2Proof.Machine.execLstat q d a s
  | .mfs q d b => Sys2Proof.Machine.execMfs q d b s
  | .mts q a b => Sys2Proof.Machine.execMts q a b s
  | .tlbi g a b m => Sys2Proof.Machine.execTlbi g a b m s
  | .ctxsv q d a b => Sys2Proof.Machine.execCtxsv q d a b s
  | .ctxrs q d a => Sys2Proof.Machine.execCtxrs q d a s
  | .winrd q d a => Sys2Proof.Machine.execWinrd q d a s
  | .winwr q a b => Sys2Proof.Machine.execWinwr q a b s
  | .resume q a => Sys2Proof.Machine.execResume q a s
  | .ptload q d a b => Sys2Proof.Machine.execPtload q d a b s
  | .bias q d a => Sys2Proof.Machine.execBias q d a s
  | .dtime q d => Sys2Proof.Machine.execDtime q d s
  | .configurationRequest port reg => Sys2Proof.Machine.execConfigurationRequest port reg s
  | .replicaFill k => Sys2Proof.Machine.execReplicaFill k s
  | .backInvalidation k => Sys2Proof.Machine.execBackInvalidation k s

end Sys2Proof.Machine
end

