-- ==== Sys2Proof/Machine/Load.lean ====
section
/-!
DEFINITION. Placing one instruction where the machine fetches next: the firmware load of a privileged group (log 3).
-/
namespace Sys2Proof.Machine

/-- A packet's bytes. -/
def packetBytesOf (w : Nat) : List Byte := bytesOfNat 12 (w % 2 ^ 96)

/-- The packet is stored at offset 0x100_0000 of the management window, packet 0 of firmware code, and a firmware group
is at its start there, its run begun. -/
def State.placeWord (s : State) (nbits w : Nat) : State :=
  let core := Config.clusterCores
  let s := s.writeBytes (mgmtCell 0x1000000) (packetBytesOf (w % 2 ^ nbits))
  let s := s.setGroup core 0 (Group.priv 0)
  let g := Group.priv 0
  let s := s.setGroup core 0 { g with arch := g.arch.editPath 0 fun p => { p with run := 1 } }
  { s with running := [(core, 0, 0)], agenda := [], net := [], iss := none }

end Sys2Proof.Machine
end

