-- ==== Sys2Proof/Machine/Energy.lean ====
section
/-!
DEFINITION. The activity that an interface's energy estimate adds up (18 R455, Table 18-12): lane operations, lane words read and
written with their zero flag clear (08 R201), MACs, slice line accesses and hops of lines. What counts as one of each is the
model's reading (log 14); DRAM bytes and core time are counted where they arise.
-/
namespace Sys2Proof.Machine

/-- What an instruction or an event costs: interface, counter, number. -/
abbrev Work := List (Nat × Nat × Nat)

def State.charge (s : State) (w : Work) : State :=
  w.foldl (fun s x => if x.2.2 == 0 then s else s.count x.1 x.2.1 x.2.2) s

/-! ### Instructions -/

/-- The vector registers a head reads, as first register and number: its vector sources, the data of a store, the fragment and
the accumulator of a matrix instruction. -/
def vectorReads (h : Head) : List (Nat × Nat) :=
  let op := h.op.toNat
  let f := h.f.toNat
  match h.form with
  | none => []
  | some fm =>
    let a := if fm.a != .v || (h.isMem && h.a == 0) then []
      else [(h.a.toNat, if op == 0x2E then (if f == 6 then 16 else 8) else if op == 0x2F then 4 else 1)]
    let b := if fm.b == .v && (match h.ext with
      | .imm _ => false
      | _ => true) then [(h.b.toNat, 1)] else []
    let c := match h.ext with
      | .cx n _ => [(n.toNat, 1)]
      | _ => []
    let d := if op == 0x21 || op == 0x25 || op == 0x27 || op == 0x26 || op == 0x28 then [(h.d.toNat, Head.span op f)]
      else if op == 0x2E || op == 0x2F then [(h.d.toNat, 8)] else []
    a ++ b ++ c ++ d

/-- The vector registers a head writes. -/
def vectorWrites (h : Head) : List (Nat × Nat) := h.dests.filterMap fun x => if x.1 == .v then some x.2 else none

/-- A vector lane operation: a form of the lane pipes with a vector field. -/
def isLaneOp (h : Head) : Bool :=
  match h.form with
  | some fm => (fm.pipe == .va || fm.pipe == .vb) && (fm.d == .v || fm.a == .v || fm.b == .v)
  | none => false

/-- The counter of a matrix form's MACs, and how many it makes for a lane: eight columns of K products (11 Table 11-1, R291). -/
def macs (h : Head) : Nat × Nat :=
  let f := h.f.toNat
  if h.op.toNat == 0x2E then (if f == 6 then (10, 512) else if f == 4 || f == 5 then (9, 128) else (8, 256))
  else if h.op.toNat == 0x2F then (if f == 1 then (9, 64) else (8, 128))
  else (8, 0)

/-- The words of a register in some lanes that are there and not zero. -/
def Arch.liveWords (a : Arch) (r : Nat) (m : Mask) : Nat :=
  let x := a.vreg r
  ((Mask.list m).filter fun l => !(x.prods.any fun p => p.2.getLsbD l) && x.lane l != 0).length

/-- What an instruction that took its effect costs its interface; privileged code is no interface's. -/
def State.instrWork (s u : State) (h : Head) : Work :=
  match s.issueCtx with
  | none => []
  | some c =>
    if isRanene c.iss.core then []
    else
      match u.group c.iss.core c.iss.grp with
      | none => []
      | some g =>
        if g.seq == c.g.seq then []
        else
          let act := c.active ⟨h.g, h.ext⟩
          let sum := fun (a : Arch) (rs : List (Nat × Nat)) (x : Nat × Mask) =>
            (rs.flatMap fun r => span (c.rename x.1 (BitVec.ofNat 6 r.1)) r.2).foldl (fun n r => n + a.liveWords r x.2) 0
          let words := (c.halves act).foldl (fun n x => n + sum c.src (vectorReads h) x + sum g.arch (vectorWrites h) x) 0
          [(g.vi, 11, if isLaneOp h then Mask.count act else 0), (g.vi, 12, words), (g.vi, (macs h).1, (macs h).2 * Mask.count act)]

/-! ### Words that arrive later -/

/-- Lane words that were owed and are there now, and not zero. -/
def arrivedWords (a b : Arch) : Nat :=
  (List.range 64).foldl (fun n r =>
    if (a.vreg r).full then n
    else n + (a.vreg r).prods.foldl (fun n p => n + b.liveWords r p.2) 0) 0

def State.groupWork (s u : State) (core grp : Nat) : Work :=
  match s.group core grp, u.group core grp with
  | some g, some h => if isRanene core then [] else [(g.vi, 12, arrivedWords g.arch h.arch)]
  | _, _ => []

/-! ### The network (01 R9) -/

/-- Ring links between two sectors of the device: the shorter way round where every bridge is open. -/
def State.sectorHops (s : State) (a b : Nat) : Nat :=
  let d := max a b - min a b
  if s.mgmt.netb.all fun x => x then min d (12 - d) else d

/-- A message carries a line. -/
def Msg.carries (m : Msg) : Bool :=
  match m.kind with
  | .home e => e == .putm || e == .data || e == .hput || e == .ncw
  | .reply _ => m.full
  | .upd | .fill _ => true
  | _ => false

/-- A message that the home answers from its slice. -/
def MsgKind.atSlice : MsgKind → Bool
  | .home e => e.isRequest || e == .putm || e == .data || e == .hput || e == .hget
  | .fill _ => true
  | _ => false

/-- What the arrival of a message costs: a slice line access, and the hops of a line between its home and a cluster. -/
def State.messageWork (s u : State) (k : Nat) : Work :=
  match s.net[k]? with
  | none => []
  | some m =>
    if u.net == s.net then []
    else
    let hops := if m.carries && m.peer < 72 then s.sectorHops (s.homeSlice m.part m.line / 16) (m.peer / 6) else 0
    [(m.vi, 13, bitNat m.kind.atSlice 0), (m.vi, 14, hops)]

/-- What a piece of a copy operation costs: the slice accesses of its two ends. -/
def State.pieceWork (s u : State) (core chan : Nat) : Work :=
  match (s.chan core chan).ops with
  | o :: _ => if u.chan core chan == s.chan core chan then [] else [(o.vi, 13, 2)]
  | [] => []

/-- What an instruction or an event that takes the machine from s to u costs. -/
def State.work (s u : State) (i : Instr) : Work :=
  match i.view with
  | some h => s.instrWork u h
  | none =>
    match i with
    | .loadDataArrival core grp _ | .postExecute core grp _ => s.groupWork u core grp
    | .passResult core part =>
      match (s.part core part).duePass s.clk with
      | some x => s.groupWork u core x.grp
      | none => []
    | .gets k | .getm k | .getu k | .puts k | .putm k | .ack k | .data k | .atom k | .hsnp k | .hget k | .hput k | .ncr k
    | .ncw k | .invalidation k | .update k | .forward k | .reply k | .replicaFill k => s.messageWork u k
    | .copyPiece core chan => s.pieceWork u core chan
    | _ => []

/-- An instruction or an event, with what it costs charged. -/
def charged (i : Instr) (s : State) : Host.Outcome State Fault Refusal :=
  match exec i s with
  | .next u => .next (u.charge (s.work u i))
  | o => o

end Sys2Proof.Machine
end

