-- ==== Sys2Proof/Machine/Policy.lean ====
section
/-!
DEFINITION. What the machine does next where its agenda names nothing (log 2): the internal events that can change something,
one at a time, and what goes on by itself with every clock (accounting, event records, trace records).
-/
namespace Sys2Proof.Machine

/-- The first entry of the agenda, if its time has come, and the state without it. The agenda names events: an instruction word
runs in a stream only. -/
def State.dueEvent (s : State) : Option (Instr × State) :=
  match s.agenda with
  | (t, i) :: r => if t ≤ s.clk && i.view.isNone then some (i, { s with agenda := r }) else none
  | [] => none

/-! ### What can happen -/

/-- The arrival of message k of the network, of a kind and about a line. -/
noncomputable def arrival (k part line : Nat) : MsgKind → List Instr
  | .home .gets => [.gets k]
  | .home .getm => [.getm k]
  | .home .getu => [.getu k]
  | .home .puts => [.puts k]
  | .home .putm => [.putm k]
  | .home .ack => [.ack k]
  | .home .data => [.data k]
  | .home .atom => [.atom k]
  | .home .hsnp => [.hsnp k]
  | .home .hget => [.hget k]
  | .home .hput => [.hput k]
  | .home .ncr => [.ncr k]
  | .home .ncw => [.ncw k]
  | .home .recall | .home .ue => [.recall part line]
  | .home .leasex => [.leasex part line]
  | .inv => [.invalidation k]
  | .upd => [.update k]
  | .fwd _ => [.forward k]
  | .reply _ => [.reply k]
  | .fill _ => [.replicaFill k]
  | .bisnp => [.backInvalidation k]

noncomputable def State.arrivals (s : State) : List Instr := s.net.zipIdx.flatMap fun x => arrival x.2 x.1.part x.1.line x.1.kind

/-- The progress of unretired instructions. -/
noncomputable def State.postEvents (s : State) : List Instr :=
  s.groups.flatMap fun x => x.2.rob.flatMap fun (e : Entry) =>
    let core := x.1 / 256
    let grp := x.1 % 256
    [.loadDataArrival core grp e.pos, .postExecute core grp e.pos, .postReport core grp e.pos, .postRelease core grp e.pos]

/-- Mirmet units: sub-waves, and accesses that waited for one. -/
noncomputable def State.unitEvents (s : State) : List Instr :=
  s.units.flatMap fun x => [.subWave (x.1 / 32) (x.1 % 32), .computeWindowAccess x.1]

/-- Banks to be drained, copies, slots, matrix passes. -/
noncomputable def State.engineEvents (s : State) : List Instr :=
  (s.clusters.flatMap fun x => x.2.banks.zipIdx.flatMap fun b => if b.1.drain then [Instr.bankDrain x.1 b.2] else []) ++
  (s.chans.flatMap fun x => if x.2.ops.isEmpty then [] else [Instr.copyPiece (x.1 / 8) (x.1 % 8)]) ++
  s.parts.flatMap fun x =>
    (x.2.slots.flatMap fun o => if o.2.present then [] else [Instr.slotPresent (x.1 / 8) (x.1 % 8) o.1]) ++
      if x.2.mtx.isEmpty then [] else [.passResult (x.1 / 8) (x.1 % 8), .matrixPass (x.1 / 8) (x.1 % 8)]

/-- Records, holds, flips, evictions, leases. -/
noncomputable def State.recordEvents (s : State) : List Instr :=
  ((List.range 4).flatMap fun d =>
    if s.recordWaits d || s.mgmt.haltWait.any fun h => h.1 == d then [Instr.faultRecordWrite d] else []) ++
  (s.groups.flatMap fun x => if isRanene (x.1 / 256) && x.2.hold && !x.2.held then
      [Instr.groupHeld (bitsOf x.2.wsel 15 8) (bitsOf x.2.wsel 7 0)] else []) ++
  (s.mgmt.flips.map fun f => Instr.biasFlipComplete f.part f.page) ++
  s.homes.flatMap fun x =>
    (if x.2.lease.isSome then [Instr.leasex (x.1 / 2 ^ 52) (x.1 % 2 ^ 52)] else []) ++
      if x.2.evict then [.sliceEviction (x.1 / 2 ^ 52) (x.1 % 2 ^ 52)] else []

/-- The admin queue: the command at the head of the ring by its OPC (the one that fits has an effect), and completions. -/
noncomputable def State.adminEvents (s : State) : List Instr :=
  (List.range 64).flatMap fun v =>
    (if s.admReady v then
      [Instr.resync v, .imageLoad v, .acct v, .ctxReset v, .admSqTailWrite v (s.mr (admReg v 0x10))] else []) ++
      if (s.ctx v).adm.isEmpty then [] else [.adminCompletionWrite v]

/-- The writes of range and format-range registers that are in progress go on (05 R116). -/
noncomputable def State.writeEvents (s : State) : List Instr :=
  s.mgmt.rangeWr.map fun w =>
    if w.1 < 0x800 then .prangeWrite (w.1 / 0x20) (w.1 % 0x20 / 8) w.2.1 else .fmtWrite ((w.1 - 0x1000) / 0x40) (w.1 % 0x40 / 8) w.2.1

/-- A PTM dialogue that is due, with what the host answers: free values (17 R428; log 18). -/
noncomputable def State.timeEvents (s : State) : List Instr :=
  if s.mgmt.ready && (s.mr timeCfgReg).getLsbD 0 && s.mgmt.ptmDue ≤ s.ns then
    [.ptmDialogue ((Config.value s.free).toNat / 2) ((Config.value s.free).getLsbD 0)]
  else []

/-- The flits that bring what peers have put on the links (17 R429). -/
noncomputable def State.linkEvents (s : State) : List Instr :=
  (s.out.inbox.filter fun x => !x.2.isEmpty).map fun x => .buithFlit x.1 true

/-- A quiesce, accounting blocks that are due, register writes in progress, the time dialogue, peers' accesses. -/
noncomputable def State.managementEvents (s : State) : List Instr :=
  (if s.mgmt.quiesce.isSome then [Instr.quiesceTimeout, .quiesceDone] else []) ++
    (s.acct.flatMap fun x => if x.2.upto + 10000 ≤ s.ns then [Instr.accountingUpdate x.1] else []) ++ s.writeEvents ++
    s.timeEvents ++ s.linkEvents

/-- Doorbells that have been rung. -/
noncomputable def State.launchEvents (s : State) : List Instr :=
  ((List.range 64).filter fun v => s.viEnabled v).flatMap fun v => (List.range 16).flatMap fun q =>
    if (s.mr (lnqReg v q 0)).getLsbD 0 && s.mr (lnqReg v q 2) != s.mr (lnqReg v q 3) then [.launchAccept v q] else []

/-- The first number from t on, of n, that has a property. -/
def firstFrom (p : Nat → Bool) : Nat → Nat → Option Nat
  | 0, _ => none
  | n + 1, t => if p t then some t else firstFrom p n (t + 1)

/-- A launch comes before another: a higher PRIO, then the earlier acceptance, whichever interface it is of (R355). -/
def launchBefore (x y : Nat × Launch) : Bool :=
  y.2.hdr.prio < x.2.hdr.prio || (x.2.hdr.prio == y.2.hdr.prio && x.2.stamp < y.2.stamp)

/-- Puts a launch behind those that do not come after it. -/
def putLaunch (x : Nat × Launch) : List (Nat × Launch) → List (Nat × Launch)
  | [] => [x]
  | y :: r => if launchBefore x y then x :: y :: r else y :: putLaunch x r

/-- The launches that may send teams, in the order of R355. -/
def State.waitingLaunches (s : State) : List (Nat × Launch) :=
  (s.ctxs.flatMap fun x => (x.2.launches.filter Launch.incomplete).map fun l => (x.1, l)).foldl (fun ys x => putLaunch x ys) []

/-- The next team that becomes resident, and its core. -/
noncomputable def State.teamEvents (s : State) : List Instr :=
  (s.waitingLaunches.flatMap fun x =>
    let core := fun (t : Nat) => (s.coresOf x.1).find? fun c => s.canPlace x.1 x.2 t c
    match firstFrom (fun t => (core t).isSome) x.2.hdr.teams 0 with
    | some t => [Instr.teamDispatch x.1 x.2.id t ((core t).getD 0)]
    | none => []) ++
  s.teams.map fun x => .teamRetire x.2.vi x.2.launch x.2.t

/-- Waits that may have ended. -/
noncomputable def State.waitEvents (s : State) : List Instr :=
  s.groups.flatMap fun x => (x.2.arch.valid.filter fun i => (x.2.arch.path i).state == .blocked).flatMap fun i =>
    [.waitEnd (x.1 / 256) (x.1 % 256) i, .causalDelayEnd (x.1 / 256) (x.1 % 256) i]

/-- Partitions with resident groups. -/
def State.partitions (s : State) : List (Nat × Nat) :=
  (s.groups.map fun x => (x.1 / 256, partOf (x.1 / 256) (x.1 % 256))).eraseDups

noncomputable def State.startEvents (s : State) : List Instr := s.partitions.map fun x => .runStart x.1 x.2

/-- The event changes the machine. -/
noncomputable def State.effective (s : State) (i : Instr) : Bool :=
  match exec i s with
  | .next t => decide (t ≠ s)
  | _ => false

/-- Every kind of event gets its turn to be the first that is looked at (log 2). -/
noncomputable def State.candidates (s : State) : List Instr :=
  let kinds := [s.arrivals, s.postEvents, s.unitEvents, s.engineEvents, s.recordEvents, s.adminEvents, s.managementEvents,
    s.launchEvents, s.teamEvents, s.waitEvents, s.startEvents]
  (kinds.rotateLeft (s.clk / 64 % 11)).flatten

/-- Start-up has not run since reset. -/
def State.unstarted (s : State) : Bool := !s.mgmt.ready && s.mgmt.fail == 0 && s.groups.isEmpty

/-- The next internal event. -/
noncomputable def State.nextEvent (s : State) : Option Instr :=
  if s.unstarted then some .moduleReset else s.candidates.find? s.effective

/-! ### What goes on by itself -/

/-- The accounts a clock is charged to: interface and counter (18 Table 18-11). -/
def State.charges (s : State) : List (Nat × Nat) :=
  let cores := ((s.teams.map fun x => (x.2.core, x.2.vi)).eraseDups).map fun x => (x.2, 0)
  let passes := s.parts.filterMap fun x => (x.2.mtx.find? fun p => p.result.isSome && !p.over s.clk).bind fun p =>
    (s.group (x.1 / 8) p.grp).map fun g => (g.vi, 1)
  let copies := s.chans.filterMap fun x => match x.2.ops with
    | o :: _ => if o.begun then some (o.vi, 2) else none
    | [] => none
  let rows := s.units.filterMap fun x => x.2.job.bind fun j => (s.group j.core j.grp).map fun g => (g.vi, 3)
  cores ++ passes ++ copies ++ rows

/-- A clock passes for the accounts; waiting event records and trace records go out. -/
def State.background (s : State) : State :=
  let s := s.charges.foldl (fun s x => s.count x.1 x.2 1) s
  let s := (s.mgmt.evWait.map (·.1)).foldl (fun s d => s.writeEvent d) s
  (s.ctxs.filter fun x => !x.2.trace.isEmpty).foldl (fun s x => s.writeTrace x.1) s

/-- A clock passes: what goes on by itself goes on, and device time moves (00 R6, 17 R428). -/
def tick (o : Host.Outcome State Fault Refusal) : Host.Outcome State Fault Refusal :=
  match o with
  | .next s => .next s.background.nextClock
  | o => o

/-- The second instruction of a chain group waits at its slot, and still reads these registers (03 R52). -/
def State.putLate (s : State) (core grp : Nat) (l : Late) : State :=
  match s.group core grp with
  | some g => s.setGroup core grp { g with lates := l :: g.lates.filter fun x => x.ent != l.ent }
  | none => s

/-- No second instruction of a chain group waits for the stream of an entry. -/
def State.dropLate (s : State) (core grp ent : Nat) : State :=
  match s.group core grp with
  | some g =>
    if g.lates.any fun x => x.ent == ent then s.setGroup core grp { g with lates := g.lates.filter fun x => x.ent != ent } else s
  | none => s

/-- After the second instruction of a chain group, where the first took `t` to `u`. Where it has to wait and what it waits
for was not there before the first, the whole group waits at its first word, with nothing done; where it waits for the
first, the first has issued and the second waits alone (03 R52, 08 R214; log 6). -/
def State.afterSecond (t v : State) (late : Issue) : State :=
  match v.iss, t.issueCtx, v.group late.core late.grp with
  | some i, some c, some h =>
    let w := (h.arch.path late.ent).wait.getD .drained
    let p := h.arch.path late.ent
    if t.waitOver late.core late.grp c.g late.ent w && p.pn == late.pn && p.slot == late.slot then
      { v.putLate late.core late.grp ⟨late.ent, late.pn, late.slot, h.seq, i.shadow.getD h.arch⟩ with iss := none }
    else c.block t w
  | _, _, _ => { v with iss := none }

/-- After the second instruction of a chain group ran by itself: it may have to wait again. -/
def State.afterLate (u : State) (core grp : Nat) (l : Late) : State :=
  match u.iss with
  | some _ => { u.putLate core grp l with iss := none }
  | none => u

/-- The next chain group of a stream. -/
noncomputable def issue (s : State) (r : Nat × Nat × Nat) : Host.Outcome State Fault Refusal :=
  match s.plan r.1 r.2.1 r.2.2 with
  | .settled t => .next t
  | .one i t => charged i (t.dropLate r.1 r.2.1 r.2.2)
  | .late i t l =>
    match charged i (t.dropLate r.1 r.2.1 r.2.2) with
    | .next u => .next (u.afterLate r.1 r.2.1 l)
    | o => o
  | .two x y lead t late =>
    match charged x t with
    | .next u =>
      match t.second u lead late with
      | none => .next { u with iss := none }
      | some v =>
        match charged y v with
        | .next w => .next (t.afterSecond w late)
        | o => o
    | o => o

/-- The next chain group of the first running stream, which goes to the end of the line; else time passes. -/
noncomputable def advance (s : State) : Host.Outcome State Fault Refusal :=
  match s.running with
  | r :: rest => issue ({ s with running := rest ++ [r] }.fetched r.1 r.2.1 r.2.2) r
  | [] => .next s

end Sys2Proof.Machine
end

