-- ==== Sys2Proof/Machine/Step.lean ====
section
/-!
DEFINITION. One step of the machine: the next entry of the agenda, else the next internal event, else the next chain
group of a running stream, else time passes (log 2).
-/
namespace Sys2Proof.Machine

/-- One step. Running streams are served first in one clock of four, so that no event can hold them back (log 2). -/
noncomputable def step (s : State) : Host.Outcome State Fault Refusal :=
  match s.dueEvent with
  | some (i, t) => tick (charged i t)
  | none =>
    if s.clk % 4 == 0 && !s.running.isEmpty then tick (advance s)
    else match s.nextEvent with
      | some i => tick (charged i s)
      | none => tick (advance s)

/-- An instruction stored where the machine fetches next (log 3). -/
def State.withFetchWord (s : State) (nbits w : Nat) : State := s.placeWord nbits w

end Sys2Proof.Machine
end

