-- ==== Sys2Proof/Laws/PerInstr.lean ====
section
/-!
SUPPORT. Families of statements made of every instruction. `Encoding`: the fields of an instruction's head (03 Tables 03-8 to 03-14)
name that instruction and no other.
-/
open Sys2Proof

/-- The head that stands for a well-formed instruction is read as that instruction. -/
def Sys2Proof.Laws.Encoding.Statement (i : Instr) : Prop := i.wf = true → ∀ h, i.view = some h → h.instr = some i

/-- A branch offset is its four parts. -/
theorem Sys2Proof.Laws.Encoding.offset_parts (x : BitVec 22) :
    x.extractLsb' 16 6 ++ x.extractLsb' 10 6 ++ x.extractLsb' 4 6 ++ x.extractLsb' 0 4 = x := by
  ext j hj
  simp only [BitVec.getElem_append, BitVec.getElem_extractLsb']
  rw [← BitVec.getLsbD_eq_getElem hj]
  split_ifs <;> exact congrArg x.getLsbD (by omega)

theorem Sys2Proof.Laws.Encoding.map_part (d : BitVec 4) : (3#2 ++ d).extractLsb' 0 4 = d := by revert d; decide
theorem Sys2Proof.Laws.Encoding.chan_part (c : BitVec 3) : (0#1 ++ c).extractLsb' 0 3 = c ∧ (0#1 ++ c).getLsbD 3 = false := by
  revert c; decide
theorem Sys2Proof.Laws.Encoding.chan_form (c : BitVec 3) :
    (Form.table 48)[(0#1 ++ c).toNat]? = some { pipe := .xfr, d := .s, a := .s, b := .s } := by
  revert c; decide
theorem Sys2Proof.Laws.Encoding.chan2_part (c : BitVec 3) : (1#1 ++ c).extractLsb' 0 3 = c ∧ (1#1 ++ c).getLsbD 3 = true := by
  revert c; decide
theorem Sys2Proof.Laws.Encoding.cvt_part (n : BitVec 2) (s : BitVec 1) (r : BitVec 3) : (n ++ s ++ r).extractLsb' 4 2 = n ∧
    (n ++ s ++ r).extractLsb' 3 1 = s ∧ (n ++ s ++ r).extractLsb' 0 3 = r := by
  revert n s r; decide
theorem Sys2Proof.Laws.Encoding.cvt_slot (n : BitVec 2) : (n ++ 0#4).extractLsb' 4 2 = n := by revert n; decide
theorem Sys2Proof.Laws.Encoding.cvt_round (r : BitVec 3) : (0#3 ++ r).extractLsb' 0 3 = r := by revert r; decide

theorem Sys2Proof.Laws.Encoding.moduleReset : Sys2Proof.Laws.Encoding.Statement .moduleReset := by
  intro wf h e; cases e
theorem Sys2Proof.Laws.Encoding.runStart (core : Nat) (part : Nat) : Sys2Proof.Laws.Encoding.Statement (.runStart core part) := by
  intro wf h e; cases e
theorem Sys2Proof.Laws.Encoding.waitEnd (core : Nat) (grp : Nat) (ent : Nat) : Sys2Proof.Laws.Encoding.Statement (.waitEnd core grp ent) := by
  intro wf h e; cases e
theorem Sys2Proof.Laws.Encoding.causalDelayEnd (core : Nat) (grp : Nat) (ent : Nat) : Sys2Proof.Laws.Encoding.Statement (.causalDelayEnd core grp ent) := by
  intro wf h e; cases e
theorem Sys2Proof.Laws.Encoding.loadDataArrival (core : Nat) (grp : Nat) (pos : Nat) : Sys2Proof.Laws.Encoding.Statement (.loadDataArrival core grp pos) := by
  intro wf h e; cases e
theorem Sys2Proof.Laws.Encoding.postExecute (core : Nat) (grp : Nat) (pos : Nat) : Sys2Proof.Laws.Encoding.Statement (.postExecute core grp pos) := by
  intro wf h e; cases e
theorem Sys2Proof.Laws.Encoding.postReport (core : Nat) (grp : Nat) (pos : Nat) : Sys2Proof.Laws.Encoding.Statement (.postReport core grp pos) := by
  intro wf h e; cases e
theorem Sys2Proof.Laws.Encoding.postRelease (core : Nat) (grp : Nat) (pos : Nat) : Sys2Proof.Laws.Encoding.Statement (.postRelease core grp pos) := by
  intro wf h e; cases e
theorem Sys2Proof.Laws.Encoding.cancelFrom (core : Nat) (grp : Nat) (pos : Nat) : Sys2Proof.Laws.Encoding.Statement (.cancelFrom core grp pos) := by
  intro wf h e; cases e
theorem Sys2Proof.Laws.Encoding.faultRecordWrite (die : Nat) : Sys2Proof.Laws.Encoding.Statement (.faultRecordWrite die) := by
  intro wf h e; cases e
theorem Sys2Proof.Laws.Encoding.groupHeld (core : Nat) (grp : Nat) : Sys2Proof.Laws.Encoding.Statement (.groupHeld core grp) := by
  intro wf h e; cases e
theorem Sys2Proof.Laws.Encoding.translationWalk (vi : Nat) (core : Nat) (va : BitVec 64) : Sys2Proof.Laws.Encoding.Statement (.translationWalk vi core va) := by
  intro wf h e; cases e
theorem Sys2Proof.Laws.Encoding.gets (k : Nat) : Sys2Proof.Laws.Encoding.Statement (.gets k) := by
  intro wf h e; cases e
theorem Sys2Proof.Laws.Encoding.getm (k : Nat) : Sys2Proof.Laws.Encoding.Statement (.getm k) := by
  intro wf h e; cases e
theorem Sys2Proof.Laws.Encoding.getu (k : Nat) : Sys2Proof.Laws.Encoding.Statement (.getu k) := by
  intro wf h e; cases e
theorem Sys2Proof.Laws.Encoding.puts (k : Nat) : Sys2Proof.Laws.Encoding.Statement (.puts k) := by
  intro wf h e; cases e
theorem Sys2Proof.Laws.Encoding.putm (k : Nat) : Sys2Proof.Laws.Encoding.Statement (.putm k) := by
  intro wf h e; cases e
theorem Sys2Proof.Laws.Encoding.ack (k : Nat) : Sys2Proof.Laws.Encoding.Statement (.ack k) := by
  intro wf h e; cases e
theorem Sys2Proof.Laws.Encoding.data (k : Nat) : Sys2Proof.Laws.Encoding.Statement (.data k) := by
  intro wf h e; cases e
theorem Sys2Proof.Laws.Encoding.atom (k : Nat) : Sys2Proof.Laws.Encoding.Statement (.atom k) := by
  intro wf h e; cases e
theorem Sys2Proof.Laws.Encoding.recall (part : Nat) (line : Nat) : Sys2Proof.Laws.Encoding.Statement (.recall part line) := by
  intro wf h e; cases e
theorem Sys2Proof.Laws.Encoding.leasex (part : Nat) (line : Nat) : Sys2Proof.Laws.Encoding.Statement (.leasex part line) := by
  intro wf h e; cases e
theorem Sys2Proof.Laws.Encoding.hsnp (k : Nat) : Sys2Proof.Laws.Encoding.Statement (.hsnp k) := by
  intro wf h e; cases e
theorem Sys2Proof.Laws.Encoding.hget (k : Nat) : Sys2Proof.Laws.Encoding.Statement (.hget k) := by
  intro wf h e; cases e
theorem Sys2Proof.Laws.Encoding.hput (k : Nat) : Sys2Proof.Laws.Encoding.Statement (.hput k) := by
  intro wf h e; cases e
theorem Sys2Proof.Laws.Encoding.ncr (k : Nat) : Sys2Proof.Laws.Encoding.Statement (.ncr k) := by
  intro wf h e; cases e
theorem Sys2Proof.Laws.Encoding.ncw (k : Nat) : Sys2Proof.Laws.Encoding.Statement (.ncw k) := by
  intro wf h e; cases e
theorem Sys2Proof.Laws.Encoding.invalidation (k : Nat) : Sys2Proof.Laws.Encoding.Statement (.invalidation k) := by
  intro wf h e; cases e
theorem Sys2Proof.Laws.Encoding.update (k : Nat) : Sys2Proof.Laws.Encoding.Statement (.update k) := by
  intro wf h e; cases e
theorem Sys2Proof.Laws.Encoding.forward (k : Nat) : Sys2Proof.Laws.Encoding.Statement (.forward k) := by
  intro wf h e; cases e
theorem Sys2Proof.Laws.Encoding.reply (k : Nat) : Sys2Proof.Laws.Encoding.Statement (.reply k) := by
  intro wf h e; cases e
theorem Sys2Proof.Laws.Encoding.sliceEviction (part : Nat) (line : Nat) : Sys2Proof.Laws.Encoding.Statement (.sliceEviction part line) := by
  intro wf h e; cases e
theorem Sys2Proof.Laws.Encoding.prangeWrite (k : Nat) (r : Nat) (value : BitVec 64) : Sys2Proof.Laws.Encoding.Statement (.prangeWrite k r value) := by
  intro wf h e; cases e
theorem Sys2Proof.Laws.Encoding.fmtWrite (k : Nat) (r : Nat) (value : BitVec 64) : Sys2Proof.Laws.Encoding.Statement (.fmtWrite k r value) := by
  intro wf h e; cases e
theorem Sys2Proof.Laws.Encoding.bankpartWrite (stack : Nat) (value : BitVec 64) : Sys2Proof.Laws.Encoding.Statement (.bankpartWrite stack value) := by
  intro wf h e; cases e
theorem Sys2Proof.Laws.Encoding.mirmetCfgWrite (stack : Nat) (value : BitVec 64) : Sys2Proof.Laws.Encoding.Statement (.mirmetCfgWrite stack value) := by
  intro wf h e; cases e
theorem Sys2Proof.Laws.Encoding.subWave (stack : Nat) (pch : Nat) : Sys2Proof.Laws.Encoding.Statement (.subWave stack pch) := by
  intro wf h e; cases e
theorem Sys2Proof.Laws.Encoding.computeBankRefresh (stack : Nat) (pch : Nat) (bank : Nat) : Sys2Proof.Laws.Encoding.Statement (.computeBankRefresh stack pch bank) := by
  intro wf h e; cases e
theorem Sys2Proof.Laws.Encoding.computeWindowAccess (k : Nat) : Sys2Proof.Laws.Encoding.Statement (.computeWindowAccess k) := by
  intro wf h e; cases e
theorem Sys2Proof.Laws.Encoding.bankDrain (clus : Nat) (bank : Nat) : Sys2Proof.Laws.Encoding.Statement (.bankDrain clus bank) := by
  intro wf h e; cases e
theorem Sys2Proof.Laws.Encoding.copyPiece (core : Nat) (chan : Nat) : Sys2Proof.Laws.Encoding.Statement (.copyPiece core chan) := by
  intro wf h e; cases e
theorem Sys2Proof.Laws.Encoding.chCtlResume (core : Nat) (chan : Nat) : Sys2Proof.Laws.Encoding.Statement (.chCtlResume core chan) := by
  intro wf h e; cases e
theorem Sys2Proof.Laws.Encoding.chCtlAbort (core : Nat) (chan : Nat) : Sys2Proof.Laws.Encoding.Statement (.chCtlAbort core chan) := by
  intro wf h e; cases e
theorem Sys2Proof.Laws.Encoding.slotPresent (core : Nat) (part : Nat) (slot : Nat) : Sys2Proof.Laws.Encoding.Statement (.slotPresent core part slot) := by
  intro wf h e; cases e
theorem Sys2Proof.Laws.Encoding.matrixPass (core : Nat) (part : Nat) : Sys2Proof.Laws.Encoding.Statement (.matrixPass core part) := by
  intro wf h e; cases e
theorem Sys2Proof.Laws.Encoding.passResult (core : Nat) (part : Nat) : Sys2Proof.Laws.Encoding.Statement (.passResult core part) := by
  intro wf h e; cases e
theorem Sys2Proof.Laws.Encoding.lnqTailWrite (vi : Nat) (q : Nat) (value : BitVec 64) : Sys2Proof.Laws.Encoding.Statement (.lnqTailWrite vi q value) := by
  intro wf h e; cases e
theorem Sys2Proof.Laws.Encoding.launchAccept (vi : Nat) (q : Nat) : Sys2Proof.Laws.Encoding.Statement (.launchAccept vi q) := by
  intro wf h e; cases e
theorem Sys2Proof.Laws.Encoding.lnqCfgWrite (vi : Nat) (q : Nat) (value : BitVec 64) : Sys2Proof.Laws.Encoding.Statement (.lnqCfgWrite vi q value) := by
  intro wf h e; cases e
theorem Sys2Proof.Laws.Encoding.lnqBaseWrite (vi : Nat) (q : Nat) (value : BitVec 64) : Sys2Proof.Laws.Encoding.Statement (.lnqBaseWrite vi q value) := by
  intro wf h e; cases e
theorem Sys2Proof.Laws.Encoding.teamDispatch (vi : Nat) (id : Nat) (team : Nat) (core : Nat) : Sys2Proof.Laws.Encoding.Statement (.teamDispatch vi id team core) := by
  intro wf h e; cases e
theorem Sys2Proof.Laws.Encoding.teamRetire (vi : Nat) (id : Nat) (team : Nat) : Sys2Proof.Laws.Encoding.Statement (.teamRetire vi id team) := by
  intro wf h e; cases e
theorem Sys2Proof.Laws.Encoding.memrd (port : Nat) (dec : Nat) (off : Nat) : Sys2Proof.Laws.Encoding.Statement (.memrd port dec off) := by
  intro wf h e; cases e
theorem Sys2Proof.Laws.Encoding.memwr (port : Nat) (dec : Nat) (off : Nat) (value : BitVec 512) : Sys2Proof.Laws.Encoding.Statement (.memwr port dec off value) := by
  intro wf h e; cases e
theorem Sys2Proof.Laws.Encoding.birsp (port : Nat) (part : Nat) (line : Nat) (half : Nat) : Sys2Proof.Laws.Encoding.Statement (.birsp port part line half) := by
  intro wf h e; cases e
theorem Sys2Proof.Laws.Encoding.h2dSnoop (port : Nat) (addr : Nat) : Sys2Proof.Laws.Encoding.Statement (.h2dSnoop port addr) := by
  intro wf h e; cases e
theorem Sys2Proof.Laws.Encoding.rdcurrCompletion (k : Nat) (value : BitVec 1024) (poison : Bool) : Sys2Proof.Laws.Encoding.Statement (.rdcurrCompletion k value poison) := by
  intro wf h e; cases e
theorem Sys2Proof.Laws.Encoding.globalObservation (k : Nat) : Sys2Proof.Laws.Encoding.Statement (.globalObservation k) := by
  intro wf h e; cases e
theorem Sys2Proof.Laws.Encoding.biasReqWrite (vi : Nat) (value : BitVec 64) : Sys2Proof.Laws.Encoding.Statement (.biasReqWrite vi value) := by
  intro wf h e; cases e
theorem Sys2Proof.Laws.Encoding.biasStatWrite (vi : Nat) (value : BitVec 64) : Sys2Proof.Laws.Encoding.Statement (.biasStatWrite vi value) := by
  intro wf h e; cases e
theorem Sys2Proof.Laws.Encoding.biasFlipComplete (part : Nat) (page : Nat) : Sys2Proof.Laws.Encoding.Statement (.biasFlipComplete part page) := by
  intro wf h e; cases e
theorem Sys2Proof.Laws.Encoding.ptmDialogue (hostNs : Nat) (ok : Bool) : Sys2Proof.Laws.Encoding.Statement (.ptmDialogue hostNs ok) := by
  intro wf h e; cases e
theorem Sys2Proof.Laws.Encoding.buithFlit (link : Nat) (crcOk : Bool) : Sys2Proof.Laws.Encoding.Statement (.buithFlit link crcOk) := by
  intro wf h e; cases e
theorem Sys2Proof.Laws.Encoding.hwCfgWrite (j : Nat) (r : Nat) (value : BitVec 64) : Sys2Proof.Laws.Encoding.Statement (.hwCfgWrite j r value) := by
  intro wf h e; cases e
theorem Sys2Proof.Laws.Encoding.quiesce (dies : BitVec 4) : Sys2Proof.Laws.Encoding.Statement (.quiesce dies) := by
  intro wf h e; cases e
theorem Sys2Proof.Laws.Encoding.quiesceDone : Sys2Proof.Laws.Encoding.Statement .quiesceDone := by
  intro wf h e; cases e
theorem Sys2Proof.Laws.Encoding.quiesceTimeout : Sys2Proof.Laws.Encoding.Statement .quiesceTimeout := by
  intro wf h e; cases e
theorem Sys2Proof.Laws.Encoding.release (dies : BitVec 4) : Sys2Proof.Laws.Encoding.Statement (.release dies) := by
  intro wf h e; cases e
theorem Sys2Proof.Laws.Encoding.abort (dies : BitVec 4) : Sys2Proof.Laws.Encoding.Statement (.abort dies) := by
  intro wf h e; cases e
theorem Sys2Proof.Laws.Encoding.partitionRegisterWrite (off : Nat) (value : BitVec 64) : Sys2Proof.Laws.Encoding.Statement (.partitionRegisterWrite off value) := by
  intro wf h e; cases e
theorem Sys2Proof.Laws.Encoding.partQtimeoutWrite (value : BitVec 64) : Sys2Proof.Laws.Encoding.Statement (.partQtimeoutWrite value) := by
  intro wf h e; cases e
theorem Sys2Proof.Laws.Encoding.viPolicyWrite (vi : Nat) (value : BitVec 64) : Sys2Proof.Laws.Encoding.Statement (.viPolicyWrite vi value) := by
  intro wf h e; cases e
theorem Sys2Proof.Laws.Encoding.admSqTailWrite (vi : Nat) (value : BitVec 64) : Sys2Proof.Laws.Encoding.Statement (.admSqTailWrite vi value) := by
  intro wf h e; cases e
theorem Sys2Proof.Laws.Encoding.resync (vi : Nat) : Sys2Proof.Laws.Encoding.Statement (.resync vi) := by
  intro wf h e; cases e
theorem Sys2Proof.Laws.Encoding.imageLoad (vi : Nat) : Sys2Proof.Laws.Encoding.Statement (.imageLoad vi) := by
  intro wf h e; cases e
theorem Sys2Proof.Laws.Encoding.acct (vi : Nat) : Sys2Proof.Laws.Encoding.Statement (.acct vi) := by
  intro wf h e; cases e
theorem Sys2Proof.Laws.Encoding.ctxReset (vi : Nat) : Sys2Proof.Laws.Encoding.Statement (.ctxReset vi) := by
  intro wf h e; cases e
theorem Sys2Proof.Laws.Encoding.adminCompletionWrite (vi : Nat) : Sys2Proof.Laws.Encoding.Statement (.adminCompletionWrite vi) := by
  intro wf h e; cases e
theorem Sys2Proof.Laws.Encoding.admCfgWrite (vi : Nat) (value : BitVec 64) : Sys2Proof.Laws.Encoding.Statement (.admCfgWrite vi value) := by
  intro wf h e; cases e
theorem Sys2Proof.Laws.Encoding.haltWrite (die : Nat) (value : BitVec 8) : Sys2Proof.Laws.Encoding.Statement (.haltWrite die value) := by
  intro wf h e; cases e
theorem Sys2Proof.Laws.Encoding.accountingUpdate (vi : Nat) : Sys2Proof.Laws.Encoding.Statement (.accountingUpdate vi) := by
  intro wf h e; cases e
theorem Sys2Proof.Laws.Encoding.acctRead (vi : Nat) : Sys2Proof.Laws.Encoding.Statement (.acctRead vi) := by
  intro wf h e; cases e
theorem Sys2Proof.Laws.Encoding.pldmSensorRead (sensor : Nat) : Sys2Proof.Laws.Encoding.Statement (.pldmSensorRead sensor) := by
  intro wf h e; cases e
theorem Sys2Proof.Laws.Encoding.spdmRequest (code : BitVec 8) : Sys2Proof.Laws.Encoding.Statement (.spdmRequest code) := by
  intro wf h e; cases e
theorem Sys2Proof.Laws.Encoding.fqCfgWrite (die : Nat) (value : BitVec 64) : Sys2Proof.Laws.Encoding.Statement (.fqCfgWrite die value) := by
  intro wf h e; cases e
theorem Sys2Proof.Laws.Encoding.registerWrite (off : Nat) (value : BitVec 64) : Sys2Proof.Laws.Encoding.Statement (.registerWrite off value) := by
  intro wf h e; cases e
theorem Sys2Proof.Laws.Encoding.nop (q : Quals) : Sys2Proof.Laws.Encoding.Statement (.nop q) := by
  intro wf h e; cases e; rfl
theorem Sys2Proof.Laws.Encoding.land (q : Quals) : Sys2Proof.Laws.Encoding.Statement (.land q) := by
  intro wf h e; cases e; rfl
theorem Sys2Proof.Laws.Encoding.yield (q : Quals) : Sys2Proof.Laws.Encoding.Statement (.yield q) := by
  intro wf h e; cases e; rfl
theorem Sys2Proof.Laws.Encoding.exit (q : Quals) : Sys2Proof.Laws.Encoding.Statement (.exit q) := by
  intro wf h e; cases e; rfl
theorem Sys2Proof.Laws.Encoding.brk (q : Quals) (b : BitVec 6) : Sys2Proof.Laws.Encoding.Statement (.brk q b) := by
  intro wf h e; cases e; rfl
theorem Sys2Proof.Laws.Encoding.trap (q : Quals) (b : BitVec 6) : Sys2Proof.Laws.Encoding.Statement (.trap q b) := by
  intro wf h e; cases e; rfl
theorem Sys2Proof.Laws.Encoding.waitf (q : Quals) (d : BitVec 6) : Sys2Proof.Laws.Encoding.Statement (.waitf q d) := by
  intro wf h e; cases e; rfl
theorem Sys2Proof.Laws.Encoding.prog (q : Quals) (b : BitVec 6) : Sys2Proof.Laws.Encoding.Statement (.prog q b) := by
  intro wf h e; cases e; rfl
theorem Sys2Proof.Laws.Encoding.dphinc (q : Quals) : Sys2Proof.Laws.Encoding.Statement (.dphinc q) := by
  intro wf h e; cases e; rfl
theorem Sys2Proof.Laws.Encoding.br (q : Quals) (x : BitVec 22) : Sys2Proof.Laws.Encoding.Statement (.br q x) := by
  intro wf h e; cases e; exact congrArg some (congrArg (Instr.br q) (by simp only [Head.offset]; exact Sys2Proof.Laws.Encoding.offset_parts x))
theorem Sys2Proof.Laws.Encoding.brm (q : Quals) (x : BitVec 22) : Sys2Proof.Laws.Encoding.Statement (.brm q x) := by
  intro wf h e; cases e; exact congrArg some (congrArg (Instr.brm q) (by simp only [Head.offset]; exact Sys2Proof.Laws.Encoding.offset_parts x))
theorem Sys2Proof.Laws.Encoding.call (q : Quals) (x : BitVec 22) : Sys2Proof.Laws.Encoding.Statement (.call q x) := by
  intro wf h e; cases e; exact congrArg some (congrArg (Instr.call q) (by simp only [Head.offset]; exact Sys2Proof.Laws.Encoding.offset_parts x))
theorem Sys2Proof.Laws.Encoding.jmps (q : Quals) (a : BitVec 6) : Sys2Proof.Laws.Encoding.Statement (.jmps q a) := by
  intro wf h e; cases e; rfl
theorem Sys2Proof.Laws.Encoding.jmpv (q : Quals) (a : BitVec 6) : Sys2Proof.Laws.Encoding.Statement (.jmpv q a) := by
  intro wf h e; cases e; rfl
theorem Sys2Proof.Laws.Encoding.calls (q : Quals) (a : BitVec 6) : Sys2Proof.Laws.Encoding.Statement (.calls q a) := by
  intro wf h e; cases e; rfl
theorem Sys2Proof.Laws.Encoding.ret (q : Quals) : Sys2Proof.Laws.Encoding.Statement (.ret q) := by
  intro wf h e; cases e; rfl
theorem Sys2Proof.Laws.Encoding.join : Sys2Proof.Laws.Encoding.Statement .join := by
  intro wf h e; cases e; rfl
theorem Sys2Proof.Laws.Encoding.joinm : Sys2Proof.Laws.Encoding.Statement .joinm := by
  intro wf h e; cases e; rfl
theorem Sys2Proof.Laws.Encoding.map0 (d : BitVec 4) (a : BitVec 6) : Sys2Proof.Laws.Encoding.Statement (.map0 d a) := by
  intro wf h e; cases e; exact congrArg some (congrArg (fun d => Instr.map0 d a) (Sys2Proof.Laws.Encoding.map_part d))
theorem Sys2Proof.Laws.Encoding.map1 (d : BitVec 4) (a : BitVec 6) : Sys2Proof.Laws.Encoding.Statement (.map1 d a) := by
  intro wf h e; cases e; exact congrArg some (congrArg (fun d => Instr.map1 d a) (Sys2Proof.Laws.Encoding.map_part d))
theorem Sys2Proof.Laws.Encoding.side (d : BitVec 6) : Sys2Proof.Laws.Encoding.Statement (.side d) := by
  intro wf h e; cases e; rfl
theorem Sys2Proof.Laws.Encoding.split (v : BitVec 25) : Sys2Proof.Laws.Encoding.Statement (.split v) := by
  intro wf h e; cases e; rfl
theorem Sys2Proof.Laws.Encoding.emrd (q : Quals) (d : BitVec 6) : Sys2Proof.Laws.Encoding.Statement (.emrd q d) := by
  intro wf h e; cases e; rfl
theorem Sys2Proof.Laws.Encoding.emwr (q : Quals) (a : BitVec 6) : Sys2Proof.Laws.Encoding.Statement (.emwr q a) := by
  intro wf h e; cases e; rfl
theorem Sys2Proof.Laws.Encoding.laneid (q : Quals) (d : BitVec 6) : Sys2Proof.Laws.Encoding.Statement (.laneid q d) := by
  intro wf h e; cases e; rfl
theorem Sys2Proof.Laws.Encoding.emp (q : Quals) (d : BitVec 6) : Sys2Proof.Laws.Encoding.Statement (.emp q d) := by
  intro wf h e; cases e; rfl
theorem Sys2Proof.Laws.Encoding.pathid (d : BitVec 6) : Sys2Proof.Laws.Encoding.Statement (.pathid d) := by
  intro wf h e; cases e; rfl
theorem Sys2Proof.Laws.Encoding.sadd (q : Quals) (d : BitVec 6) (a : BitVec 6) (b : BitVec 6) : Sys2Proof.Laws.Encoding.Statement (.sadd q d a b) := by
  intro wf h e; cases e; rfl
theorem Sys2Proof.Laws.Encoding.ssub (q : Quals) (d : BitVec 6) (a : BitVec 6) (b : BitVec 6) : Sys2Proof.Laws.Encoding.Statement (.ssub q d a b) := by
  intro wf h e; cases e; rfl
theorem Sys2Proof.Laws.Encoding.smul (q : Quals) (d : BitVec 6) (a : BitVec 6) (b : BitVec 6) : Sys2Proof.Laws.Encoding.Statement (.smul q d a b) := by
  intro wf h e; cases e; rfl
theorem Sys2Proof.Laws.Encoding.smulhi (q : Quals) (d : BitVec 6) (a : BitVec 6) (b : BitVec 6) : Sys2Proof.Laws.Encoding.Statement (.smulhi q d a b) := by
  intro wf h e; cases e; rfl
theorem Sys2Proof.Laws.Encoding.smulhu (q : Quals) (d : BitVec 6) (a : BitVec 6) (b : BitVec 6) : Sys2Proof.Laws.Encoding.Statement (.smulhu q d a b) := by
  intro wf h e; cases e; rfl
theorem Sys2Proof.Laws.Encoding.sand (q : Quals) (d : BitVec 6) (a : BitVec 6) (b : BitVec 6) : Sys2Proof.Laws.Encoding.Statement (.sand q d a b) := by
  intro wf h e; cases e; rfl
theorem Sys2Proof.Laws.Encoding.sor (q : Quals) (d : BitVec 6) (a : BitVec 6) (b : BitVec 6) : Sys2Proof.Laws.Encoding.Statement (.sor q d a b) := by
  intro wf h e; cases e; rfl
theorem Sys2Proof.Laws.Encoding.sxor (q : Quals) (d : BitVec 6) (a : BitVec 6) (b : BitVec 6) : Sys2Proof.Laws.Encoding.Statement (.sxor q d a b) := by
  intro wf h e; cases e; rfl
theorem Sys2Proof.Laws.Encoding.sandn (q : Quals) (d : BitVec 6) (a : BitVec 6) (b : BitVec 6) : Sys2Proof.Laws.Encoding.Statement (.sandn q d a b) := by
  intro wf h e; cases e; rfl
theorem Sys2Proof.Laws.Encoding.sshl (q : Quals) (d : BitVec 6) (a : BitVec 6) (b : BitVec 6) : Sys2Proof.Laws.Encoding.Statement (.sshl q d a b) := by
  intro wf h e; cases e; rfl
theorem Sys2Proof.Laws.Encoding.sshr (q : Quals) (d : BitVec 6) (a : BitVec 6) (b : BitVec 6) : Sys2Proof.Laws.Encoding.Statement (.sshr q d a b) := by
  intro wf h e; cases e; rfl
theorem Sys2Proof.Laws.Encoding.ssar (q : Quals) (d : BitVec 6) (a : BitVec 6) (b : BitVec 6) : Sys2Proof.Laws.Encoding.Statement (.ssar q d a b) := by
  intro wf h e; cases e; rfl
theorem Sys2Proof.Laws.Encoding.smin (q : Quals) (d : BitVec 6) (a : BitVec 6) (b : BitVec 6) : Sys2Proof.Laws.Encoding.Statement (.smin q d a b) := by
  intro wf h e; cases e; rfl
theorem Sys2Proof.Laws.Encoding.smax (q : Quals) (d : BitVec 6) (a : BitVec 6) (b : BitVec 6) : Sys2Proof.Laws.Encoding.Statement (.smax q d a b) := by
  intro wf h e; cases e; rfl
theorem Sys2Proof.Laws.Encoding.sminu (q : Quals) (d : BitVec 6) (a : BitVec 6) (b : BitVec 6) : Sys2Proof.Laws.Encoding.Statement (.sminu q d a b) := by
  intro wf h e; cases e; rfl
theorem Sys2Proof.Laws.Encoding.smaxu (q : Quals) (d : BitVec 6) (a : BitVec 6) (b : BitVec 6) : Sys2Proof.Laws.Encoding.Statement (.smaxu q d a b) := by
  intro wf h e; cases e; rfl
theorem Sys2Proof.Laws.Encoding.saddImm6 (q : Quals) (d : BitVec 6) (a : BitVec 6) (i : BitVec 6) : Sys2Proof.Laws.Encoding.Statement (.saddImm6 q d a i) := by
  intro wf h e; cases e; rfl
theorem Sys2Proof.Laws.Encoding.ssubImm6 (q : Quals) (d : BitVec 6) (a : BitVec 6) (i : BitVec 6) : Sys2Proof.Laws.Encoding.Statement (.ssubImm6 q d a i) := by
  intro wf h e; cases e; rfl
theorem Sys2Proof.Laws.Encoding.smulImm6 (q : Quals) (d : BitVec 6) (a : BitVec 6) (i : BitVec 6) : Sys2Proof.Laws.Encoding.Statement (.smulImm6 q d a i) := by
  intro wf h e; cases e; rfl
theorem Sys2Proof.Laws.Encoding.smulhiImm6 (q : Quals) (d : BitVec 6) (a : BitVec 6) (i : BitVec 6) : Sys2Proof.Laws.Encoding.Statement (.smulhiImm6 q d a i) := by
  intro wf h e; cases e; rfl
theorem Sys2Proof.Laws.Encoding.smulhuImm6 (q : Quals) (d : BitVec 6) (a : BitVec 6) (i : BitVec 6) : Sys2Proof.Laws.Encoding.Statement (.smulhuImm6 q d a i) := by
  intro wf h e; cases e; rfl
theorem Sys2Proof.Laws.Encoding.sandImm6 (q : Quals) (d : BitVec 6) (a : BitVec 6) (i : BitVec 6) : Sys2Proof.Laws.Encoding.Statement (.sandImm6 q d a i) := by
  intro wf h e; cases e; rfl
theorem Sys2Proof.Laws.Encoding.sorImm6 (q : Quals) (d : BitVec 6) (a : BitVec 6) (i : BitVec 6) : Sys2Proof.Laws.Encoding.Statement (.sorImm6 q d a i) := by
  intro wf h e; cases e; rfl
theorem Sys2Proof.Laws.Encoding.sxorImm6 (q : Quals) (d : BitVec 6) (a : BitVec 6) (i : BitVec 6) : Sys2Proof.Laws.Encoding.Statement (.sxorImm6 q d a i) := by
  intro wf h e; cases e; rfl
theorem Sys2Proof.Laws.Encoding.sandnImm6 (q : Quals) (d : BitVec 6) (a : BitVec 6) (i : BitVec 6) : Sys2Proof.Laws.Encoding.Statement (.sandnImm6 q d a i) := by
  intro wf h e; cases e; rfl
theorem Sys2Proof.Laws.Encoding.sshlImm6 (q : Quals) (d : BitVec 6) (a : BitVec 6) (i : BitVec 6) : Sys2Proof.Laws.Encoding.Statement (.sshlImm6 q d a i) := by
  intro wf h e; cases e; rfl
theorem Sys2Proof.Laws.Encoding.sshrImm6 (q : Quals) (d : BitVec 6) (a : BitVec 6) (i : BitVec 6) : Sys2Proof.Laws.Encoding.Statement (.sshrImm6 q d a i) := by
  intro wf h e; cases e; rfl
theorem Sys2Proof.Laws.Encoding.ssarImm6 (q : Quals) (d : BitVec 6) (a : BitVec 6) (i : BitVec 6) : Sys2Proof.Laws.Encoding.Statement (.ssarImm6 q d a i) := by
  intro wf h e; cases e; rfl
theorem Sys2Proof.Laws.Encoding.sminImm6 (q : Quals) (d : BitVec 6) (a : BitVec 6) (i : BitVec 6) : Sys2Proof.Laws.Encoding.Statement (.sminImm6 q d a i) := by
  intro wf h e; cases e; rfl
theorem Sys2Proof.Laws.Encoding.smaxImm6 (q : Quals) (d : BitVec 6) (a : BitVec 6) (i : BitVec 6) : Sys2Proof.Laws.Encoding.Statement (.smaxImm6 q d a i) := by
  intro wf h e; cases e; rfl
theorem Sys2Proof.Laws.Encoding.sminuImm6 (q : Quals) (d : BitVec 6) (a : BitVec 6) (i : BitVec 6) : Sys2Proof.Laws.Encoding.Statement (.sminuImm6 q d a i) := by
  intro wf h e; cases e; rfl
theorem Sys2Proof.Laws.Encoding.smaxuImm6 (q : Quals) (d : BitVec 6) (a : BitVec 6) (i : BitVec 6) : Sys2Proof.Laws.Encoding.Statement (.smaxuImm6 q d a i) := by
  intro wf h e; cases e; rfl
theorem Sys2Proof.Laws.Encoding.scmpEq (q : Quals) (d : BitVec 6) (a : BitVec 6) (b : BitVec 6) : Sys2Proof.Laws.Encoding.Statement (.scmpEq q d a b) := by
  intro wf h e; cases e; rfl
theorem Sys2Proof.Laws.Encoding.scmpNe (q : Quals) (d : BitVec 6) (a : BitVec 6) (b : BitVec 6) : Sys2Proof.Laws.Encoding.Statement (.scmpNe q d a b) := by
  intro wf h e; cases e; rfl
theorem Sys2Proof.Laws.Encoding.scmpLt (q : Quals) (d : BitVec 6) (a : BitVec 6) (b : BitVec 6) : Sys2Proof.Laws.Encoding.Statement (.scmpLt q d a b) := by
  intro wf h e; cases e; rfl
theorem Sys2Proof.Laws.Encoding.scmpLe (q : Quals) (d : BitVec 6) (a : BitVec 6) (b : BitVec 6) : Sys2Proof.Laws.Encoding.Statement (.scmpLe q d a b) := by
  intro wf h e; cases e; rfl
theorem Sys2Proof.Laws.Encoding.scmpLtu (q : Quals) (d : BitVec 6) (a : BitVec 6) (b : BitVec 6) : Sys2Proof.Laws.Encoding.Statement (.scmpLtu q d a b) := by
  intro wf h e; cases e; rfl
theorem Sys2Proof.Laws.Encoding.scmpLeu (q : Quals) (d : BitVec 6) (a : BitVec 6) (b : BitVec 6) : Sys2Proof.Laws.Encoding.Statement (.scmpLeu q d a b) := by
  intro wf h e; cases e; rfl
theorem Sys2Proof.Laws.Encoding.scmpBt (q : Quals) (d : BitVec 6) (a : BitVec 6) (b : BitVec 6) : Sys2Proof.Laws.Encoding.Statement (.scmpBt q d a b) := by
  intro wf h e; cases e; rfl
theorem Sys2Proof.Laws.Encoding.smov (q : Quals) (d : BitVec 6) (a : BitVec 6) : Sys2Proof.Laws.Encoding.Statement (.smov q d a) := by
  intro wf h e; rcases q with ⟨g, ext⟩; cases e; cases ext <;> rfl
theorem Sys2Proof.Laws.Encoding.ldi (g : BitVec 3) (d : BitVec 6) (v : BitVec 25) : Sys2Proof.Laws.Encoding.Statement (.ldi g d v) := by
  intro wf h e; cases e; rfl
theorem Sys2Proof.Laws.Encoding.ldih (g : BitVec 3) (d : BitVec 6) (v : BitVec 25) : Sys2Proof.Laws.Encoding.Statement (.ldih g d v) := by
  intro wf h e; cases e; rfl
theorem Sys2Proof.Laws.Encoding.wfld (q : Quals) (d : BitVec 6) (b : BitVec 6) : Sys2Proof.Laws.Encoding.Statement (.wfld q d b) := by
  intro wf h e; rcases q with ⟨g, ext⟩; cases e; cases ext <;> rfl
theorem Sys2Proof.Laws.Encoding.sclz (q : Quals) (d : BitVec 6) (a : BitVec 6) : Sys2Proof.Laws.Encoding.Statement (.sclz q d a) := by
  intro wf h e; rcases q with ⟨g, ext⟩; cases e; cases ext <;> rfl
theorem Sys2Proof.Laws.Encoding.spopc (q : Quals) (d : BitVec 6) (a : BitVec 6) : Sys2Proof.Laws.Encoding.Statement (.spopc q d a) := by
  intro wf h e; rcases q with ⟨g, ext⟩; cases e; cases ext <;> rfl
theorem Sys2Proof.Laws.Encoding.sbrev (q : Quals) (d : BitVec 6) (a : BitVec 6) : Sys2Proof.Laws.Encoding.Statement (.sbrev q d a) := by
  intro wf h e; rcases q with ⟨g, ext⟩; cases e; cases ext <;> rfl
theorem Sys2Proof.Laws.Encoding.vext (q : Quals) (d : BitVec 6) (a : BitVec 6) (b : BitVec 6) : Sys2Proof.Laws.Encoding.Statement (.vext q d a b) := by
  intro wf h e; rcases q with ⟨g, ext⟩; cases e; cases ext <;> rfl
theorem Sys2Proof.Laws.Encoding.sext32 (q : Quals) (d : BitVec 6) (a : BitVec 6) : Sys2Proof.Laws.Encoding.Statement (.sext32 q d a) := by
  intro wf h e; rcases q with ⟨g, ext⟩; cases e; cases ext <;> rfl
theorem Sys2Proof.Laws.Encoding.iadd (q : Quals) (d : BitVec 6) (a : BitVec 6) (b : BitVec 6) : Sys2Proof.Laws.Encoding.Statement (.iadd q d a b) := by
  intro wf h e; cases e; rfl
theorem Sys2Proof.Laws.Encoding.isub (q : Quals) (d : BitVec 6) (a : BitVec 6) (b : BitVec 6) : Sys2Proof.Laws.Encoding.Statement (.isub q d a b) := by
  intro wf h e; cases e; rfl
theorem Sys2Proof.Laws.Encoding.imul (q : Quals) (d : BitVec 6) (a : BitVec 6) (b : BitVec 6) : Sys2Proof.Laws.Encoding.Statement (.imul q d a b) := by
  intro wf h e; cases e; rfl
theorem Sys2Proof.Laws.Encoding.imulhi (q : Quals) (d : BitVec 6) (a : BitVec 6) (b : BitVec 6) : Sys2Proof.Laws.Encoding.Statement (.imulhi q d a b) := by
  intro wf h e; cases e; rfl
theorem Sys2Proof.Laws.Encoding.imulhu (q : Quals) (d : BitVec 6) (a : BitVec 6) (b : BitVec 6) : Sys2Proof.Laws.Encoding.Statement (.imulhu q d a b) := by
  intro wf h e; cases e; rfl
theorem Sys2Proof.Laws.Encoding.and (q : Quals) (d : BitVec 6) (a : BitVec 6) (b : BitVec 6) : Sys2Proof.Laws.Encoding.Statement (.and q d a b) := by
  intro wf h e; cases e; rfl
theorem Sys2Proof.Laws.Encoding.or (q : Quals) (d : BitVec 6) (a : BitVec 6) (b : BitVec 6) : Sys2Proof.Laws.Encoding.Statement (.or q d a b) := by
  intro wf h e; cases e; rfl
theorem Sys2Proof.Laws.Encoding.xor (q : Quals) (d : BitVec 6) (a : BitVec 6) (b : BitVec 6) : Sys2Proof.Laws.Encoding.Statement (.xor q d a b) := by
  intro wf h e; cases e; rfl
theorem Sys2Proof.Laws.Encoding.andn (q : Quals) (d : BitVec 6) (a : BitVec 6) (b : BitVec 6) : Sys2Proof.Laws.Encoding.Statement (.andn q d a b) := by
  intro wf h e; cases e; rfl
theorem Sys2Proof.Laws.Encoding.shl (q : Quals) (d : BitVec 6) (a : BitVec 6) (b : BitVec 6) : Sys2Proof.Laws.Encoding.Statement (.shl q d a b) := by
  intro wf h e; cases e; rfl
theorem Sys2Proof.Laws.Encoding.shr (q : Quals) (d : BitVec 6) (a : BitVec 6) (b : BitVec 6) : Sys2Proof.Laws.Encoding.Statement (.shr q d a b) := by
  intro wf h e; cases e; rfl
theorem Sys2Proof.Laws.Encoding.sar (q : Quals) (d : BitVec 6) (a : BitVec 6) (b : BitVec 6) : Sys2Proof.Laws.Encoding.Statement (.sar q d a b) := by
  intro wf h e; cases e; rfl
theorem Sys2Proof.Laws.Encoding.imin (q : Quals) (d : BitVec 6) (a : BitVec 6) (b : BitVec 6) : Sys2Proof.Laws.Encoding.Statement (.imin q d a b) := by
  intro wf h e; cases e; rfl
theorem Sys2Proof.Laws.Encoding.imax (q : Quals) (d : BitVec 6) (a : BitVec 6) (b : BitVec 6) : Sys2Proof.Laws.Encoding.Statement (.imax q d a b) := by
  intro wf h e; cases e; rfl
theorem Sys2Proof.Laws.Encoding.iminu (q : Quals) (d : BitVec 6) (a : BitVec 6) (b : BitVec 6) : Sys2Proof.Laws.Encoding.Statement (.iminu q d a b) := by
  intro wf h e; cases e; rfl
theorem Sys2Proof.Laws.Encoding.imaxu (q : Quals) (d : BitVec 6) (a : BitVec 6) (b : BitVec 6) : Sys2Proof.Laws.Encoding.Statement (.imaxu q d a b) := by
  intro wf h e; cases e; rfl
theorem Sys2Proof.Laws.Encoding.iaddImm6 (q : Quals) (d : BitVec 6) (a : BitVec 6) (i : BitVec 6) : Sys2Proof.Laws.Encoding.Statement (.iaddImm6 q d a i) := by
  intro wf h e; cases e; rfl
theorem Sys2Proof.Laws.Encoding.isubImm6 (q : Quals) (d : BitVec 6) (a : BitVec 6) (i : BitVec 6) : Sys2Proof.Laws.Encoding.Statement (.isubImm6 q d a i) := by
  intro wf h e; cases e; rfl
theorem Sys2Proof.Laws.Encoding.imulImm6 (q : Quals) (d : BitVec 6) (a : BitVec 6) (i : BitVec 6) : Sys2Proof.Laws.Encoding.Statement (.imulImm6 q d a i) := by
  intro wf h e; cases e; rfl
theorem Sys2Proof.Laws.Encoding.imulhiImm6 (q : Quals) (d : BitVec 6) (a : BitVec 6) (i : BitVec 6) : Sys2Proof.Laws.Encoding.Statement (.imulhiImm6 q d a i) := by
  intro wf h e; cases e; rfl
theorem Sys2Proof.Laws.Encoding.imulhuImm6 (q : Quals) (d : BitVec 6) (a : BitVec 6) (i : BitVec 6) : Sys2Proof.Laws.Encoding.Statement (.imulhuImm6 q d a i) := by
  intro wf h e; cases e; rfl
theorem Sys2Proof.Laws.Encoding.andImm6 (q : Quals) (d : BitVec 6) (a : BitVec 6) (i : BitVec 6) : Sys2Proof.Laws.Encoding.Statement (.andImm6 q d a i) := by
  intro wf h e; cases e; rfl
theorem Sys2Proof.Laws.Encoding.orImm6 (q : Quals) (d : BitVec 6) (a : BitVec 6) (i : BitVec 6) : Sys2Proof.Laws.Encoding.Statement (.orImm6 q d a i) := by
  intro wf h e; cases e; rfl
theorem Sys2Proof.Laws.Encoding.xorImm6 (q : Quals) (d : BitVec 6) (a : BitVec 6) (i : BitVec 6) : Sys2Proof.Laws.Encoding.Statement (.xorImm6 q d a i) := by
  intro wf h e; cases e; rfl
theorem Sys2Proof.Laws.Encoding.andnImm6 (q : Quals) (d : BitVec 6) (a : BitVec 6) (i : BitVec 6) : Sys2Proof.Laws.Encoding.Statement (.andnImm6 q d a i) := by
  intro wf h e; cases e; rfl
theorem Sys2Proof.Laws.Encoding.shlImm6 (q : Quals) (d : BitVec 6) (a : BitVec 6) (i : BitVec 6) : Sys2Proof.Laws.Encoding.Statement (.shlImm6 q d a i) := by
  intro wf h e; cases e; rfl
theorem Sys2Proof.Laws.Encoding.shrImm6 (q : Quals) (d : BitVec 6) (a : BitVec 6) (i : BitVec 6) : Sys2Proof.Laws.Encoding.Statement (.shrImm6 q d a i) := by
  intro wf h e; cases e; rfl
theorem Sys2Proof.Laws.Encoding.sarImm6 (q : Quals) (d : BitVec 6) (a : BitVec 6) (i : BitVec 6) : Sys2Proof.Laws.Encoding.Statement (.sarImm6 q d a i) := by
  intro wf h e; cases e; rfl
theorem Sys2Proof.Laws.Encoding.iminImm6 (q : Quals) (d : BitVec 6) (a : BitVec 6) (i : BitVec 6) : Sys2Proof.Laws.Encoding.Statement (.iminImm6 q d a i) := by
  intro wf h e; cases e; rfl
theorem Sys2Proof.Laws.Encoding.imaxImm6 (q : Quals) (d : BitVec 6) (a : BitVec 6) (i : BitVec 6) : Sys2Proof.Laws.Encoding.Statement (.imaxImm6 q d a i) := by
  intro wf h e; cases e; rfl
theorem Sys2Proof.Laws.Encoding.iminuImm6 (q : Quals) (d : BitVec 6) (a : BitVec 6) (i : BitVec 6) : Sys2Proof.Laws.Encoding.Statement (.iminuImm6 q d a i) := by
  intro wf h e; cases e; rfl
theorem Sys2Proof.Laws.Encoding.imaxuImm6 (q : Quals) (d : BitVec 6) (a : BitVec 6) (i : BitVec 6) : Sys2Proof.Laws.Encoding.Statement (.imaxuImm6 q d a i) := by
  intro wf h e; cases e; rfl
theorem Sys2Proof.Laws.Encoding.imad (q : Quals) (d : BitVec 6) (a : BitVec 6) (b : BitVec 6) : Sys2Proof.Laws.Encoding.Statement (.imad q d a b) := by
  intro wf h e; cases e; rfl
theorem Sys2Proof.Laws.Encoding.vclz (q : Quals) (d : BitVec 6) (a : BitVec 6) : Sys2Proof.Laws.Encoding.Statement (.vclz q d a) := by
  intro wf h e; cases e; rfl
theorem Sys2Proof.Laws.Encoding.vpopc (q : Quals) (d : BitVec 6) (a : BitVec 6) : Sys2Proof.Laws.Encoding.Statement (.vpopc q d a) := by
  intro wf h e; cases e; rfl
theorem Sys2Proof.Laws.Encoding.vbrev (q : Quals) (d : BitVec 6) (a : BitVec 6) : Sys2Proof.Laws.Encoding.Statement (.vbrev q d a) := by
  intro wf h e; cases e; rfl
theorem Sys2Proof.Laws.Encoding.bfe (q : Quals) (d : BitVec 6) (a : BitVec 6) (b : BitVec 6) : Sys2Proof.Laws.Encoding.Statement (.bfe q d a b) := by
  intro wf h e; cases e; rfl
theorem Sys2Proof.Laws.Encoding.bfi (q : Quals) (d : BitVec 6) (a : BitVec 6) (b : BitVec 6) : Sys2Proof.Laws.Encoding.Statement (.bfi q d a b) := by
  intro wf h e; cases e; rfl
theorem Sys2Proof.Laws.Encoding.bysel (q : Quals) (d : BitVec 6) (a : BitVec 6) (b : BitVec 6) : Sys2Proof.Laws.Encoding.Statement (.bysel q d a b) := by
  intro wf h e; cases e; rfl
theorem Sys2Proof.Laws.Encoding.i8dot4 (q : Quals) (d : BitVec 6) (a : BitVec 6) (b : BitVec 6) : Sys2Proof.Laws.Encoding.Statement (.i8dot4 q d a b) := by
  intro wf h e; cases e; rfl
theorem Sys2Proof.Laws.Encoding.n8dot4 (q : Quals) (d : BitVec 6) (a : BitVec 6) (b : BitVec 6) : Sys2Proof.Laws.Encoding.Statement (.n8dot4 q d a b) := by
  intro wf h e; cases e; rfl
theorem Sys2Proof.Laws.Encoding.icmpEq (q : Quals) (d : BitVec 6) (a : BitVec 6) (b : BitVec 6) : Sys2Proof.Laws.Encoding.Statement (.icmpEq q d a b) := by
  intro wf h e; cases e; rfl
theorem Sys2Proof.Laws.Encoding.icmpNe (q : Quals) (d : BitVec 6) (a : BitVec 6) (b : BitVec 6) : Sys2Proof.Laws.Encoding.Statement (.icmpNe q d a b) := by
  intro wf h e; cases e; rfl
theorem Sys2Proof.Laws.Encoding.icmpLt (q : Quals) (d : BitVec 6) (a : BitVec 6) (b : BitVec 6) : Sys2Proof.Laws.Encoding.Statement (.icmpLt q d a b) := by
  intro wf h e; cases e; rfl
theorem Sys2Proof.Laws.Encoding.icmpLe (q : Quals) (d : BitVec 6) (a : BitVec 6) (b : BitVec 6) : Sys2Proof.Laws.Encoding.Statement (.icmpLe q d a b) := by
  intro wf h e; cases e; rfl
theorem Sys2Proof.Laws.Encoding.icmpGt (q : Quals) (d : BitVec 6) (a : BitVec 6) (b : BitVec 6) : Sys2Proof.Laws.Encoding.Statement (.icmpGt q d a b) := by
  intro wf h e; cases e; rfl
theorem Sys2Proof.Laws.Encoding.icmpGe (q : Quals) (d : BitVec 6) (a : BitVec 6) (b : BitVec 6) : Sys2Proof.Laws.Encoding.Statement (.icmpGe q d a b) := by
  intro wf h e; cases e; rfl
theorem Sys2Proof.Laws.Encoding.icmpLtu (q : Quals) (d : BitVec 6) (a : BitVec 6) (b : BitVec 6) : Sys2Proof.Laws.Encoding.Statement (.icmpLtu q d a b) := by
  intro wf h e; cases e; rfl
theorem Sys2Proof.Laws.Encoding.icmpLeu (q : Quals) (d : BitVec 6) (a : BitVec 6) (b : BitVec 6) : Sys2Proof.Laws.Encoding.Statement (.icmpLeu q d a b) := by
  intro wf h e; cases e; rfl
theorem Sys2Proof.Laws.Encoding.icmpGtu (q : Quals) (d : BitVec 6) (a : BitVec 6) (b : BitVec 6) : Sys2Proof.Laws.Encoding.Statement (.icmpGtu q d a b) := by
  intro wf h e; cases e; rfl
theorem Sys2Proof.Laws.Encoding.icmpGeu (q : Quals) (d : BitVec 6) (a : BitVec 6) (b : BitVec 6) : Sys2Proof.Laws.Encoding.Statement (.icmpGeu q d a b) := by
  intro wf h e; cases e; rfl
theorem Sys2Proof.Laws.Encoding.icmpBt (q : Quals) (d : BitVec 6) (a : BitVec 6) (b : BitVec 6) : Sys2Proof.Laws.Encoding.Statement (.icmpBt q d a b) := by
  intro wf h e; cases e; rfl
theorem Sys2Proof.Laws.Encoding.vmov (q : Quals) (d : BitVec 6) (a : BitVec 6) : Sys2Proof.Laws.Encoding.Statement (.vmov q d a) := by
  intro wf h e; rcases q with ⟨g, ext⟩; cases e; cases ext <;> rfl
theorem Sys2Proof.Laws.Encoding.sel (q : Quals) (d : BitVec 6) (a : BitVec 6) (b : BitVec 6) : Sys2Proof.Laws.Encoding.Statement (.sel q d a b) := by
  intro wf h e; rcases q with ⟨g, ext⟩; cases e; cases ext <;> rfl
theorem Sys2Proof.Laws.Encoding.bcst (q : Quals) (d : BitVec 6) (a : BitVec 6) : Sys2Proof.Laws.Encoding.Statement (.bcst q d a) := by
  intro wf h e; rcases q with ⟨g, ext⟩; cases e; cases ext <;> rfl
theorem Sys2Proof.Laws.Encoding.ldiv (g : BitVec 3) (d : BitVec 6) (v : BitVec 25) : Sys2Proof.Laws.Encoding.Statement (.ldiv g d v) := by
  intro wf h e; cases e; rfl
theorem Sys2Proof.Laws.Encoding.vins (q : Quals) (d : BitVec 6) (a : BitVec 6) (b : BitVec 6) : Sys2Proof.Laws.Encoding.Statement (.vins q d a b) := by
  intro wf h e; rcases q with ⟨g, ext⟩; cases e; cases ext <;> rfl
theorem Sys2Proof.Laws.Encoding.pand (q : Quals) (d : BitVec 6) (a : BitVec 6) (b : BitVec 6) : Sys2Proof.Laws.Encoding.Statement (.pand q d a b) := by
  intro wf h e; cases e; rfl
theorem Sys2Proof.Laws.Encoding.por (q : Quals) (d : BitVec 6) (a : BitVec 6) (b : BitVec 6) : Sys2Proof.Laws.Encoding.Statement (.por q d a b) := by
  intro wf h e; cases e; rfl
theorem Sys2Proof.Laws.Encoding.pxor (q : Quals) (d : BitVec 6) (a : BitVec 6) (b : BitVec 6) : Sys2Proof.Laws.Encoding.Statement (.pxor q d a b) := by
  intro wf h e; cases e; rfl
theorem Sys2Proof.Laws.Encoding.pandn (q : Quals) (d : BitVec 6) (a : BitVec 6) (b : BitVec 6) : Sys2Proof.Laws.Encoding.Statement (.pandn q d a b) := by
  intro wf h e; cases e; rfl
theorem Sys2Proof.Laws.Encoding.porn (q : Quals) (d : BitVec 6) (a : BitVec 6) (b : BitVec 6) : Sys2Proof.Laws.Encoding.Statement (.porn q d a b) := by
  intro wf h e; cases e; rfl
theorem Sys2Proof.Laws.Encoding.pnot (q : Quals) (d : BitVec 6) (a : BitVec 6) : Sys2Proof.Laws.Encoding.Statement (.pnot q d a) := by
  intro wf h e; cases e; rfl
theorem Sys2Proof.Laws.Encoding.pmov (q : Quals) (d : BitVec 6) (a : BitVec 6) : Sys2Proof.Laws.Encoding.Statement (.pmov q d a) := by
  intro wf h e; cases e; rfl
theorem Sys2Proof.Laws.Encoding.pset (q : Quals) (d : BitVec 6) : Sys2Proof.Laws.Encoding.Statement (.pset q d) := by
  intro wf h e; cases e; rfl
theorem Sys2Proof.Laws.Encoding.pclr (q : Quals) (d : BitVec 6) : Sys2Proof.Laws.Encoding.Statement (.pclr q d) := by
  intro wf h e; cases e; rfl
theorem Sys2Proof.Laws.Encoding.p2s (q : Quals) (d : BitVec 6) (a : BitVec 6) : Sys2Proof.Laws.Encoding.Statement (.p2s q d a) := by
  intro wf h e; cases e; rfl
theorem Sys2Proof.Laws.Encoding.s2p (q : Quals) (d : BitVec 6) (a : BitVec 6) : Sys2Proof.Laws.Encoding.Statement (.s2p q d a) := by
  intro wf h e; cases e; rfl
theorem Sys2Proof.Laws.Encoding.ppop (q : Quals) (d : BitVec 6) (a : BitVec 6) : Sys2Proof.Laws.Encoding.Statement (.ppop q d a) := by
  intro wf h e; cases e; rfl
theorem Sys2Proof.Laws.Encoding.pfirst (q : Quals) (d : BitVec 6) (a : BitVec 6) : Sys2Proof.Laws.Encoding.Statement (.pfirst q d a) := by
  intro wf h e; cases e; rfl
theorem Sys2Proof.Laws.Encoding.shfl (q : Quals) (d : BitVec 6) (a : BitVec 6) (b : BitVec 6) : Sys2Proof.Laws.Encoding.Statement (.shfl q d a b) := by
  intro wf h e; cases e; rfl
theorem Sys2Proof.Laws.Encoding.shfls (q : Quals) (d : BitVec 6) (a : BitVec 6) (b : BitVec 6) : Sys2Proof.Laws.Encoding.Statement (.shfls q d a b) := by
  intro wf h e; cases e; rfl
theorem Sys2Proof.Laws.Encoding.xredAddI32 (q : Quals) (d : BitVec 6) (a : BitVec 6) (b : BitVec 6) : Sys2Proof.Laws.Encoding.Statement (.xredAddI32 q d a b) := by
  intro wf h e; cases e; rfl
theorem Sys2Proof.Laws.Encoding.xredMinI32 (q : Quals) (d : BitVec 6) (a : BitVec 6) (b : BitVec 6) : Sys2Proof.Laws.Encoding.Statement (.xredMinI32 q d a b) := by
  intro wf h e; cases e; rfl
theorem Sys2Proof.Laws.Encoding.xredMaxI32 (q : Quals) (d : BitVec 6) (a : BitVec 6) (b : BitVec 6) : Sys2Proof.Laws.Encoding.Statement (.xredMaxI32 q d a b) := by
  intro wf h e; cases e; rfl
theorem Sys2Proof.Laws.Encoding.xredMinu (q : Quals) (d : BitVec 6) (a : BitVec 6) (b : BitVec 6) : Sys2Proof.Laws.Encoding.Statement (.xredMinu q d a b) := by
  intro wf h e; cases e; rfl
theorem Sys2Proof.Laws.Encoding.xredMaxu (q : Quals) (d : BitVec 6) (a : BitVec 6) (b : BitVec 6) : Sys2Proof.Laws.Encoding.Statement (.xredMaxu q d a b) := by
  intro wf h e; cases e; rfl
theorem Sys2Proof.Laws.Encoding.xredAnd (q : Quals) (d : BitVec 6) (a : BitVec 6) (b : BitVec 6) : Sys2Proof.Laws.Encoding.Statement (.xredAnd q d a b) := by
  intro wf h e; cases e; rfl
theorem Sys2Proof.Laws.Encoding.xredOr (q : Quals) (d : BitVec 6) (a : BitVec 6) (b : BitVec 6) : Sys2Proof.Laws.Encoding.Statement (.xredOr q d a b) := by
  intro wf h e; cases e; rfl
theorem Sys2Proof.Laws.Encoding.xredXor (q : Quals) (d : BitVec 6) (a : BitVec 6) (b : BitVec 6) : Sys2Proof.Laws.Encoding.Statement (.xredXor q d a b) := by
  intro wf h e; cases e; rfl
theorem Sys2Proof.Laws.Encoding.xredAddF32 (q : Quals) (d : BitVec 6) (a : BitVec 6) (b : BitVec 6) : Sys2Proof.Laws.Encoding.Statement (.xredAddF32 q d a b) := by
  intro wf h e; cases e; rfl
theorem Sys2Proof.Laws.Encoding.xredMinF32 (q : Quals) (d : BitVec 6) (a : BitVec 6) (b : BitVec 6) : Sys2Proof.Laws.Encoding.Statement (.xredMinF32 q d a b) := by
  intro wf h e; cases e; rfl
theorem Sys2Proof.Laws.Encoding.xredMaxF32 (q : Quals) (d : BitVec 6) (a : BitVec 6) (b : BitVec 6) : Sys2Proof.Laws.Encoding.Statement (.xredMaxF32 q d a b) := by
  intro wf h e; cases e; rfl
theorem Sys2Proof.Laws.Encoding.xscanAddI32 (q : Quals) (d : BitVec 6) (a : BitVec 6) (b : BitVec 6) : Sys2Proof.Laws.Encoding.Statement (.xscanAddI32 q d a b) := by
  intro wf h e; cases e; rfl
theorem Sys2Proof.Laws.Encoding.xscanAddF32 (q : Quals) (d : BitVec 6) (a : BitVec 6) (b : BitVec 6) : Sys2Proof.Laws.Encoding.Statement (.xscanAddF32 q d a b) := by
  intro wf h e; cases e; rfl
theorem Sys2Proof.Laws.Encoding.xscanMaxF32 (q : Quals) (d : BitVec 6) (a : BitVec 6) (b : BitVec 6) : Sys2Proof.Laws.Encoding.Statement (.xscanMaxF32 q d a b) := by
  intro wf h e; cases e; rfl
theorem Sys2Proof.Laws.Encoding.xscanMinF32 (q : Quals) (d : BitVec 6) (a : BitVec 6) (b : BitVec 6) : Sys2Proof.Laws.Encoding.Statement (.xscanMinF32 q d a b) := by
  intro wf h e; cases e; rfl
theorem Sys2Proof.Laws.Encoding.xscanMaxI32 (q : Quals) (d : BitVec 6) (a : BitVec 6) (b : BitVec 6) : Sys2Proof.Laws.Encoding.Statement (.xscanMaxI32 q d a b) := by
  intro wf h e; cases e; rfl
theorem Sys2Proof.Laws.Encoding.xscanOr (q : Quals) (d : BitVec 6) (a : BitVec 6) (b : BitVec 6) : Sys2Proof.Laws.Encoding.Statement (.xscanOr q d a b) := by
  intro wf h e; cases e; rfl
theorem Sys2Proof.Laws.Encoding.xvoteAll (q : Quals) (d : BitVec 6) (a : BitVec 6) (b : BitVec 6) : Sys2Proof.Laws.Encoding.Statement (.xvoteAll q d a b) := by
  intro wf h e; cases e; rfl
theorem Sys2Proof.Laws.Encoding.xvoteAny (q : Quals) (d : BitVec 6) (a : BitVec 6) (b : BitVec 6) : Sys2Proof.Laws.Encoding.Statement (.xvoteAny q d a b) := by
  intro wf h e; cases e; rfl
theorem Sys2Proof.Laws.Encoding.xvoteBallot (q : Quals) (d : BitVec 6) (a : BitVec 6) (b : BitVec 6) : Sys2Proof.Laws.Encoding.Statement (.xvoteBallot q d a b) := by
  intro wf h e; cases e; rfl
theorem Sys2Proof.Laws.Encoding.xvoteMatch (q : Quals) (d : BitVec 6) (a : BitVec 6) (b : BitVec 6) : Sys2Proof.Laws.Encoding.Statement (.xvoteMatch q d a b) := by
  intro wf h e; cases e; rfl
theorem Sys2Proof.Laws.Encoding.fadd (q : Quals) (d : BitVec 6) (a : BitVec 6) (b : BitVec 6) : Sys2Proof.Laws.Encoding.Statement (.fadd q d a b) := by
  intro wf h e; cases e; rfl
theorem Sys2Proof.Laws.Encoding.fsub (q : Quals) (d : BitVec 6) (a : BitVec 6) (b : BitVec 6) : Sys2Proof.Laws.Encoding.Statement (.fsub q d a b) := by
  intro wf h e; cases e; rfl
theorem Sys2Proof.Laws.Encoding.fmul (q : Quals) (d : BitVec 6) (a : BitVec 6) (b : BitVec 6) : Sys2Proof.Laws.Encoding.Statement (.fmul q d a b) := by
  intro wf h e; cases e; rfl
theorem Sys2Proof.Laws.Encoding.fmin (q : Quals) (d : BitVec 6) (a : BitVec 6) (b : BitVec 6) : Sys2Proof.Laws.Encoding.Statement (.fmin q d a b) := by
  intro wf h e; cases e; rfl
theorem Sys2Proof.Laws.Encoding.fmax (q : Quals) (d : BitVec 6) (a : BitVec 6) (b : BitVec 6) : Sys2Proof.Laws.Encoding.Statement (.fmax q d a b) := by
  intro wf h e; cases e; rfl
theorem Sys2Proof.Laws.Encoding.fminn (q : Quals) (d : BitVec 6) (a : BitVec 6) (b : BitVec 6) : Sys2Proof.Laws.Encoding.Statement (.fminn q d a b) := by
  intro wf h e; cases e; rfl
theorem Sys2Proof.Laws.Encoding.fmaxn (q : Quals) (d : BitVec 6) (a : BitVec 6) (b : BitVec 6) : Sys2Proof.Laws.Encoding.Statement (.fmaxn q d a b) := by
  intro wf h e; cases e; rfl
theorem Sys2Proof.Laws.Encoding.fabs (q : Quals) (d : BitVec 6) (a : BitVec 6) : Sys2Proof.Laws.Encoding.Statement (.fabs q d a) := by
  intro wf h e; cases e; rfl
theorem Sys2Proof.Laws.Encoding.fneg (q : Quals) (d : BitVec 6) (a : BitVec 6) : Sys2Proof.Laws.Encoding.Statement (.fneg q d a) := by
  intro wf h e; cases e; rfl
theorem Sys2Proof.Laws.Encoding.fcps (q : Quals) (d : BitVec 6) (a : BitVec 6) (b : BitVec 6) : Sys2Proof.Laws.Encoding.Statement (.fcps q d a b) := by
  intro wf h e; cases e; rfl
theorem Sys2Proof.Laws.Encoding.fflr (q : Quals) (d : BitVec 6) (a : BitVec 6) : Sys2Proof.Laws.Encoding.Statement (.fflr q d a) := by
  intro wf h e; cases e; rfl
theorem Sys2Proof.Laws.Encoding.fcel (q : Quals) (d : BitVec 6) (a : BitVec 6) : Sys2Proof.Laws.Encoding.Statement (.fcel q d a) := by
  intro wf h e; cases e; rfl
theorem Sys2Proof.Laws.Encoding.ftrc (q : Quals) (d : BitVec 6) (a : BitVec 6) : Sys2Proof.Laws.Encoding.Statement (.ftrc q d a) := by
  intro wf h e; cases e; rfl
theorem Sys2Proof.Laws.Encoding.frni (q : Quals) (d : BitVec 6) (a : BitVec 6) : Sys2Proof.Laws.Encoding.Statement (.frni q d a) := by
  intro wf h e; cases e; rfl
theorem Sys2Proof.Laws.Encoding.hadd2 (q : Quals) (d : BitVec 6) (a : BitVec 6) (b : BitVec 6) : Sys2Proof.Laws.Encoding.Statement (.hadd2 q d a b) := by
  intro wf h e; cases e; rfl
theorem Sys2Proof.Laws.Encoding.hmul2 (q : Quals) (d : BitVec 6) (a : BitVec 6) (b : BitVec 6) : Sys2Proof.Laws.Encoding.Statement (.hmul2 q d a b) := by
  intro wf h e; cases e; rfl
theorem Sys2Proof.Laws.Encoding.hmin2 (q : Quals) (d : BitVec 6) (a : BitVec 6) (b : BitVec 6) : Sys2Proof.Laws.Encoding.Statement (.hmin2 q d a b) := by
  intro wf h e; cases e; rfl
theorem Sys2Proof.Laws.Encoding.hmax2 (q : Quals) (d : BitVec 6) (a : BitVec 6) (b : BitVec 6) : Sys2Proof.Laws.Encoding.Statement (.hmax2 q d a b) := by
  intro wf h e; cases e; rfl
theorem Sys2Proof.Laws.Encoding.badd2 (q : Quals) (d : BitVec 6) (a : BitVec 6) (b : BitVec 6) : Sys2Proof.Laws.Encoding.Statement (.badd2 q d a b) := by
  intro wf h e; cases e; rfl
theorem Sys2Proof.Laws.Encoding.bmul2 (q : Quals) (d : BitVec 6) (a : BitVec 6) (b : BitVec 6) : Sys2Proof.Laws.Encoding.Statement (.bmul2 q d a b) := by
  intro wf h e; cases e; rfl
theorem Sys2Proof.Laws.Encoding.bmin2 (q : Quals) (d : BitVec 6) (a : BitVec 6) (b : BitVec 6) : Sys2Proof.Laws.Encoding.Statement (.bmin2 q d a b) := by
  intro wf h e; cases e; rfl
theorem Sys2Proof.Laws.Encoding.bmax2 (q : Quals) (d : BitVec 6) (a : BitVec 6) (b : BitVec 6) : Sys2Proof.Laws.Encoding.Statement (.bmax2 q d a b) := by
  intro wf h e; cases e; rfl
theorem Sys2Proof.Laws.Encoding.fma (q : Quals) (d : BitVec 6) (a : BitVec 6) (b : BitVec 6) : Sys2Proof.Laws.Encoding.Statement (.fma q d a b) := by
  intro wf h e; rcases q with ⟨g, ext⟩; cases e; cases ext <;> rfl
theorem Sys2Proof.Laws.Encoding.fms (q : Quals) (d : BitVec 6) (a : BitVec 6) (b : BitVec 6) : Sys2Proof.Laws.Encoding.Statement (.fms q d a b) := by
  intro wf h e; rcases q with ⟨g, ext⟩; cases e; cases ext <;> rfl
theorem Sys2Proof.Laws.Encoding.fnma (q : Quals) (d : BitVec 6) (a : BitVec 6) (b : BitVec 6) : Sys2Proof.Laws.Encoding.Statement (.fnma q d a b) := by
  intro wf h e; rcases q with ⟨g, ext⟩; cases e; cases ext <;> rfl
theorem Sys2Proof.Laws.Encoding.fma3 (g : BitVec 3) (d : BitVec 6) (a : BitVec 6) (b : BitVec 6) (c : BitVec 6) (sx : BitVec 2) : Sys2Proof.Laws.Encoding.Statement (.fma3 g d a b c sx) := by
  intro wf h e; cases e; rfl
theorem Sys2Proof.Laws.Encoding.hfma2 (q : Quals) (d : BitVec 6) (a : BitVec 6) (b : BitVec 6) : Sys2Proof.Laws.Encoding.Statement (.hfma2 q d a b) := by
  intro wf h e; rcases q with ⟨g, ext⟩; cases e; cases ext <;> rfl
theorem Sys2Proof.Laws.Encoding.bfma2 (q : Quals) (d : BitVec 6) (a : BitVec 6) (b : BitVec 6) : Sys2Proof.Laws.Encoding.Statement (.bfma2 q d a b) := by
  intro wf h e; rcases q with ⟨g, ext⟩; cases e; cases ext <;> rfl
theorem Sys2Proof.Laws.Encoding.fcmpEq (q : Quals) (d : BitVec 6) (a : BitVec 6) (b : BitVec 6) : Sys2Proof.Laws.Encoding.Statement (.fcmpEq q d a b) := by
  intro wf h e; rcases q with ⟨g, ext⟩; cases e; cases ext <;> rfl
theorem Sys2Proof.Laws.Encoding.fcmpNe (q : Quals) (d : BitVec 6) (a : BitVec 6) (b : BitVec 6) : Sys2Proof.Laws.Encoding.Statement (.fcmpNe q d a b) := by
  intro wf h e; rcases q with ⟨g, ext⟩; cases e; cases ext <;> rfl
theorem Sys2Proof.Laws.Encoding.fcmpLt (q : Quals) (d : BitVec 6) (a : BitVec 6) (b : BitVec 6) : Sys2Proof.Laws.Encoding.Statement (.fcmpLt q d a b) := by
  intro wf h e; rcases q with ⟨g, ext⟩; cases e; cases ext <;> rfl
theorem Sys2Proof.Laws.Encoding.fcmpLe (q : Quals) (d : BitVec 6) (a : BitVec 6) (b : BitVec 6) : Sys2Proof.Laws.Encoding.Statement (.fcmpLe q d a b) := by
  intro wf h e; rcases q with ⟨g, ext⟩; cases e; cases ext <;> rfl
theorem Sys2Proof.Laws.Encoding.fcmpGt (q : Quals) (d : BitVec 6) (a : BitVec 6) (b : BitVec 6) : Sys2Proof.Laws.Encoding.Statement (.fcmpGt q d a b) := by
  intro wf h e; rcases q with ⟨g, ext⟩; cases e; cases ext <;> rfl
theorem Sys2Proof.Laws.Encoding.fcmpGe (q : Quals) (d : BitVec 6) (a : BitVec 6) (b : BitVec 6) : Sys2Proof.Laws.Encoding.Statement (.fcmpGe q d a b) := by
  intro wf h e; rcases q with ⟨g, ext⟩; cases e; cases ext <;> rfl
theorem Sys2Proof.Laws.Encoding.fcmpUno (q : Quals) (d : BitVec 6) (a : BitVec 6) (b : BitVec 6) : Sys2Proof.Laws.Encoding.Statement (.fcmpUno q d a b) := by
  intro wf h e; rcases q with ⟨g, ext⟩; cases e; cases ext <;> rfl
theorem Sys2Proof.Laws.Encoding.fcmpOrd (q : Quals) (d : BitVec 6) (a : BitVec 6) (b : BitVec 6) : Sys2Proof.Laws.Encoding.Statement (.fcmpOrd q d a b) := by
  intro wf h e; rcases q with ⟨g, ext⟩; cases e; cases ext <;> rfl
theorem Sys2Proof.Laws.Encoding.fcmpClass (g : BitVec 3) (d : BitVec 6) (a : BitVec 6) (v : BitVec 25) : Sys2Proof.Laws.Encoding.Statement (.fcmpClass g d a v) := by
  intro wf h e; cases e; rfl
theorem Sys2Proof.Laws.Encoding.frcp (q : Quals) (d : BitVec 6) (a : BitVec 6) : Sys2Proof.Laws.Encoding.Statement (.frcp q d a) := by
  intro wf h e; cases e; rfl
theorem Sys2Proof.Laws.Encoding.frsq (q : Quals) (d : BitVec 6) (a : BitVec 6) : Sys2Proof.Laws.Encoding.Statement (.frsq q d a) := by
  intro wf h e; cases e; rfl
theorem Sys2Proof.Laws.Encoding.fsqrt (q : Quals) (d : BitVec 6) (a : BitVec 6) : Sys2Proof.Laws.Encoding.Statement (.fsqrt q d a) := by
  intro wf h e; cases e; rfl
theorem Sys2Proof.Laws.Encoding.fexp2 (q : Quals) (d : BitVec 6) (a : BitVec 6) : Sys2Proof.Laws.Encoding.Statement (.fexp2 q d a) := by
  intro wf h e; cases e; rfl
theorem Sys2Proof.Laws.Encoding.flog2 (q : Quals) (d : BitVec 6) (a : BitVec 6) : Sys2Proof.Laws.Encoding.Statement (.flog2 q d a) := by
  intro wf h e; cases e; rfl
theorem Sys2Proof.Laws.Encoding.fdiv (q : Quals) (d : BitVec 6) (a : BitVec 6) (b : BitVec 6) : Sys2Proof.Laws.Encoding.Statement (.fdiv q d a b) := by
  intro wf h e; cases e; rfl
theorem Sys2Proof.Laws.Encoding.cvtF16F32 (q : Quals) (d : BitVec 6) (a : BitVec 6) (n : BitVec 2) (s : BitVec 1) (r : BitVec 3) : Sys2Proof.Laws.Encoding.Statement (.cvtF16F32 q d a n s r) := by
  intro wf h e; cases e; show some (Instr.cvtF16F32 q d a ((n ++ s ++ r).extractLsb' 4 2) ((n ++ s ++ r).extractLsb' 3 1) ((n ++ s ++ r).extractLsb' 0 3)) = _; rw [(Sys2Proof.Laws.Encoding.cvt_part n s r).1, (Sys2Proof.Laws.Encoding.cvt_part n s r).2.1, (Sys2Proof.Laws.Encoding.cvt_part n s r).2.2]
theorem Sys2Proof.Laws.Encoding.cvtBf16F32 (q : Quals) (d : BitVec 6) (a : BitVec 6) (n : BitVec 2) (s : BitVec 1) (r : BitVec 3) : Sys2Proof.Laws.Encoding.Statement (.cvtBf16F32 q d a n s r) := by
  intro wf h e; cases e; show some (Instr.cvtBf16F32 q d a ((n ++ s ++ r).extractLsb' 4 2) ((n ++ s ++ r).extractLsb' 3 1) ((n ++ s ++ r).extractLsb' 0 3)) = _; rw [(Sys2Proof.Laws.Encoding.cvt_part n s r).1, (Sys2Proof.Laws.Encoding.cvt_part n s r).2.1, (Sys2Proof.Laws.Encoding.cvt_part n s r).2.2]
theorem Sys2Proof.Laws.Encoding.cvtF8e4F32 (q : Quals) (d : BitVec 6) (a : BitVec 6) (n : BitVec 2) (s : BitVec 1) (r : BitVec 3) : Sys2Proof.Laws.Encoding.Statement (.cvtF8e4F32 q d a n s r) := by
  intro wf h e; cases e; show some (Instr.cvtF8e4F32 q d a ((n ++ s ++ r).extractLsb' 4 2) ((n ++ s ++ r).extractLsb' 3 1) ((n ++ s ++ r).extractLsb' 0 3)) = _; rw [(Sys2Proof.Laws.Encoding.cvt_part n s r).1, (Sys2Proof.Laws.Encoding.cvt_part n s r).2.1, (Sys2Proof.Laws.Encoding.cvt_part n s r).2.2]
theorem Sys2Proof.Laws.Encoding.cvtF8e5F32 (q : Quals) (d : BitVec 6) (a : BitVec 6) (n : BitVec 2) (s : BitVec 1) (r : BitVec 3) : Sys2Proof.Laws.Encoding.Statement (.cvtF8e5F32 q d a n s r) := by
  intro wf h e; cases e; show some (Instr.cvtF8e5F32 q d a ((n ++ s ++ r).extractLsb' 4 2) ((n ++ s ++ r).extractLsb' 3 1) ((n ++ s ++ r).extractLsb' 0 3)) = _; rw [(Sys2Proof.Laws.Encoding.cvt_part n s r).1, (Sys2Proof.Laws.Encoding.cvt_part n s r).2.1, (Sys2Proof.Laws.Encoding.cvt_part n s r).2.2]
theorem Sys2Proof.Laws.Encoding.cvtF32F16 (q : Quals) (d : BitVec 6) (a : BitVec 6) (n : BitVec 2) : Sys2Proof.Laws.Encoding.Statement (.cvtF32F16 q d a n) := by
  intro wf h e; cases e; show some (Instr.cvtF32F16 q d a ((n ++ 0#1 ++ 0#3).extractLsb' 4 2)) = _; rw [(Sys2Proof.Laws.Encoding.cvt_part n 0#1 0#3).1]
theorem Sys2Proof.Laws.Encoding.cvtF32Bf16 (q : Quals) (d : BitVec 6) (a : BitVec 6) (n : BitVec 2) : Sys2Proof.Laws.Encoding.Statement (.cvtF32Bf16 q d a n) := by
  intro wf h e; cases e; show some (Instr.cvtF32Bf16 q d a ((n ++ 0#1 ++ 0#3).extractLsb' 4 2)) = _; rw [(Sys2Proof.Laws.Encoding.cvt_part n 0#1 0#3).1]
theorem Sys2Proof.Laws.Encoding.cvtF32F8e4 (q : Quals) (d : BitVec 6) (a : BitVec 6) (n : BitVec 2) : Sys2Proof.Laws.Encoding.Statement (.cvtF32F8e4 q d a n) := by
  intro wf h e; cases e; show some (Instr.cvtF32F8e4 q d a ((n ++ 0#1 ++ 0#3).extractLsb' 4 2)) = _; rw [(Sys2Proof.Laws.Encoding.cvt_part n 0#1 0#3).1]
theorem Sys2Proof.Laws.Encoding.cvtF32F8e5 (q : Quals) (d : BitVec 6) (a : BitVec 6) (n : BitVec 2) : Sys2Proof.Laws.Encoding.Statement (.cvtF32F8e5 q d a n) := by
  intro wf h e; cases e; show some (Instr.cvtF32F8e5 q d a ((n ++ 0#1 ++ 0#3).extractLsb' 4 2)) = _; rw [(Sys2Proof.Laws.Encoding.cvt_part n 0#1 0#3).1]
theorem Sys2Proof.Laws.Encoding.cvtI32F32 (q : Quals) (d : BitVec 6) (a : BitVec 6) (s : BitVec 1) (r : BitVec 3) : Sys2Proof.Laws.Encoding.Statement (.cvtI32F32 q d a s r) := by
  intro wf h e; cases e; show some (Instr.cvtI32F32 q d a ((0#2 ++ s ++ r).extractLsb' 3 1) ((0#2 ++ s ++ r).extractLsb' 0 3)) = _; rw [(Sys2Proof.Laws.Encoding.cvt_part 0#2 s r).2.1, (Sys2Proof.Laws.Encoding.cvt_part 0#2 s r).2.2]
theorem Sys2Proof.Laws.Encoding.cvtN32F32 (q : Quals) (d : BitVec 6) (a : BitVec 6) (s : BitVec 1) (r : BitVec 3) : Sys2Proof.Laws.Encoding.Statement (.cvtN32F32 q d a s r) := by
  intro wf h e; cases e; show some (Instr.cvtN32F32 q d a ((0#2 ++ s ++ r).extractLsb' 3 1) ((0#2 ++ s ++ r).extractLsb' 0 3)) = _; rw [(Sys2Proof.Laws.Encoding.cvt_part 0#2 s r).2.1, (Sys2Proof.Laws.Encoding.cvt_part 0#2 s r).2.2]
theorem Sys2Proof.Laws.Encoding.cvtF32I32 (q : Quals) (d : BitVec 6) (a : BitVec 6) (r : BitVec 3) : Sys2Proof.Laws.Encoding.Statement (.cvtF32I32 q d a r) := by
  intro wf h e; cases e; show some (Instr.cvtF32I32 q d a ((0#2 ++ 0#1 ++ r).extractLsb' 0 3)) = _; rw [(Sys2Proof.Laws.Encoding.cvt_part 0#2 0#1 r).2.2]
theorem Sys2Proof.Laws.Encoding.cvtF32N32 (q : Quals) (d : BitVec 6) (a : BitVec 6) (r : BitVec 3) : Sys2Proof.Laws.Encoding.Statement (.cvtF32N32 q d a r) := by
  intro wf h e; cases e; show some (Instr.cvtF32N32 q d a ((0#2 ++ 0#1 ++ r).extractLsb' 0 3)) = _; rw [(Sys2Proof.Laws.Encoding.cvt_part 0#2 0#1 r).2.2]
theorem Sys2Proof.Laws.Encoding.cbk (q : Quals) (d : BitVec 6) (a : BitVec 6) (n : BitVec 3) : Sys2Proof.Laws.Encoding.Statement (.cbk q d a n) := by
  intro wf h e; cases e; show some (Instr.cbk q d a ((0#3 ++ n).extractLsb' 0 3)) = _; rw [Sys2Proof.Laws.Encoding.cvt_round n]
theorem Sys2Proof.Laws.Encoding.pk2h (q : Quals) (d : BitVec 6) (a : BitVec 6) (b : BitVec 6) : Sys2Proof.Laws.Encoding.Statement (.pk2h q d a b) := by
  intro wf h e; cases e; rfl
theorem Sys2Proof.Laws.Encoding.pkhi (q : Quals) (d : BitVec 6) (a : BitVec 6) (b : BitVec 6) : Sys2Proof.Laws.Encoding.Statement (.pkhi q d a b) := by
  intro wf h e; cases e; rfl
theorem Sys2Proof.Laws.Encoding.pkb01 (q : Quals) (d : BitVec 6) (a : BitVec 6) (b : BitVec 6) : Sys2Proof.Laws.Encoding.Statement (.pkb01 q d a b) := by
  intro wf h e; cases e; rfl
theorem Sys2Proof.Laws.Encoding.pkb23 (q : Quals) (d : BitVec 6) (a : BitVec 6) (b : BitVec 6) : Sys2Proof.Laws.Encoding.Statement (.pkb23 q d a b) := by
  intro wf h e; cases e; rfl
theorem Sys2Proof.Laws.Encoding.upklo (q : Quals) (d : BitVec 6) (a : BitVec 6) : Sys2Proof.Laws.Encoding.Statement (.upklo q d a) := by
  intro wf h e; cases e; rfl
theorem Sys2Proof.Laws.Encoding.upkhi (q : Quals) (d : BitVec 6) (a : BitVec 6) : Sys2Proof.Laws.Encoding.Statement (.upkhi q d a) := by
  intro wf h e; cases e; rfl
theorem Sys2Proof.Laws.Encoding.ldB8z (q : Quals) (d : BitVec 6) (a : BitVec 6) (s : BitVec 6) : Sys2Proof.Laws.Encoding.Statement (.ldB8z q d a s) := by
  intro wf h e; cases e; rfl
theorem Sys2Proof.Laws.Encoding.ldB8s (q : Quals) (d : BitVec 6) (a : BitVec 6) (s : BitVec 6) : Sys2Proof.Laws.Encoding.Statement (.ldB8s q d a s) := by
  intro wf h e; cases e; rfl
theorem Sys2Proof.Laws.Encoding.ldB16z (q : Quals) (d : BitVec 6) (a : BitVec 6) (s : BitVec 6) : Sys2Proof.Laws.Encoding.Statement (.ldB16z q d a s) := by
  intro wf h e; cases e; rfl
theorem Sys2Proof.Laws.Encoding.ldB16s (q : Quals) (d : BitVec 6) (a : BitVec 6) (s : BitVec 6) : Sys2Proof.Laws.Encoding.Statement (.ldB16s q d a s) := by
  intro wf h e; cases e; rfl
theorem Sys2Proof.Laws.Encoding.ldB32 (q : Quals) (d : BitVec 6) (a : BitVec 6) (s : BitVec 6) : Sys2Proof.Laws.Encoding.Statement (.ldB32 q d a s) := by
  intro wf h e; cases e; rfl
theorem Sys2Proof.Laws.Encoding.ldB64 (q : Quals) (d : BitVec 6) (a : BitVec 6) (s : BitVec 6) : Sys2Proof.Laws.Encoding.Statement (.ldB64 q d a s) := by
  intro wf h e; cases e; rfl
theorem Sys2Proof.Laws.Encoding.ldB128 (q : Quals) (d : BitVec 6) (a : BitVec 6) (s : BitVec 6) : Sys2Proof.Laws.Encoding.Statement (.ldB128 q d a s) := by
  intro wf h e; cases e; rfl
theorem Sys2Proof.Laws.Encoding.ldW32 (q : Quals) (d : BitVec 6) (a : BitVec 6) : Sys2Proof.Laws.Encoding.Statement (.ldW32 q d a) := by
  intro wf h e; cases e; rfl
theorem Sys2Proof.Laws.Encoding.stB8 (q : Quals) (d : BitVec 6) (a : BitVec 6) (s : BitVec 6) : Sys2Proof.Laws.Encoding.Statement (.stB8 q d a s) := by
  intro wf h e; cases e; rfl
theorem Sys2Proof.Laws.Encoding.stB16 (q : Quals) (d : BitVec 6) (a : BitVec 6) (s : BitVec 6) : Sys2Proof.Laws.Encoding.Statement (.stB16 q d a s) := by
  intro wf h e; cases e; rfl
theorem Sys2Proof.Laws.Encoding.stB32 (q : Quals) (d : BitVec 6) (a : BitVec 6) (s : BitVec 6) : Sys2Proof.Laws.Encoding.Statement (.stB32 q d a s) := by
  intro wf h e; cases e; rfl
theorem Sys2Proof.Laws.Encoding.stB64 (q : Quals) (d : BitVec 6) (a : BitVec 6) (s : BitVec 6) : Sys2Proof.Laws.Encoding.Statement (.stB64 q d a s) := by
  intro wf h e; cases e; rfl
theorem Sys2Proof.Laws.Encoding.stB128 (q : Quals) (d : BitVec 6) (a : BitVec 6) (s : BitVec 6) : Sys2Proof.Laws.Encoding.Statement (.stB128 q d a s) := by
  intro wf h e; cases e; rfl
theorem Sys2Proof.Laws.Encoding.stW32 (q : Quals) (d : BitVec 6) (a : BitVec 6) : Sys2Proof.Laws.Encoding.Statement (.stW32 q d a) := by
  intro wf h e; cases e; rfl
theorem Sys2Proof.Laws.Encoding.lduB32z (q : Quals) (d : BitVec 6) (s : BitVec 6) : Sys2Proof.Laws.Encoding.Statement (.lduB32z q d s) := by
  intro wf h e; cases e; rfl
theorem Sys2Proof.Laws.Encoding.lduB32s (q : Quals) (d : BitVec 6) (s : BitVec 6) : Sys2Proof.Laws.Encoding.Statement (.lduB32s q d s) := by
  intro wf h e; cases e; rfl
theorem Sys2Proof.Laws.Encoding.lduB64 (q : Quals) (d : BitVec 6) (s : BitVec 6) : Sys2Proof.Laws.Encoding.Statement (.lduB64 q d s) := by
  intro wf h e; cases e; rfl
theorem Sys2Proof.Laws.Encoding.stuB32 (q : Quals) (d : BitVec 6) (s : BitVec 6) : Sys2Proof.Laws.Encoding.Statement (.stuB32 q d s) := by
  intro wf h e; cases e; rfl
theorem Sys2Proof.Laws.Encoding.stuB64 (q : Quals) (d : BitVec 6) (s : BitVec 6) : Sys2Proof.Laws.Encoding.Statement (.stuB64 q d s) := by
  intro wf h e; cases e; rfl
theorem Sys2Proof.Laws.Encoding.ldxB8z (g : BitVec 3) (d : BitVec 6) (a : BitVec 6) (s : BitVec 6) (m : MemX) : Sys2Proof.Laws.Encoding.Statement (.ldxB8z g d a s m) := by
  intro wf h e; cases e; rfl
theorem Sys2Proof.Laws.Encoding.ldxB8s (g : BitVec 3) (d : BitVec 6) (a : BitVec 6) (s : BitVec 6) (m : MemX) : Sys2Proof.Laws.Encoding.Statement (.ldxB8s g d a s m) := by
  intro wf h e; cases e; rfl
theorem Sys2Proof.Laws.Encoding.ldxB16z (g : BitVec 3) (d : BitVec 6) (a : BitVec 6) (s : BitVec 6) (m : MemX) : Sys2Proof.Laws.Encoding.Statement (.ldxB16z g d a s m) := by
  intro wf h e; cases e; rfl
theorem Sys2Proof.Laws.Encoding.ldxB16s (g : BitVec 3) (d : BitVec 6) (a : BitVec 6) (s : BitVec 6) (m : MemX) : Sys2Proof.Laws.Encoding.Statement (.ldxB16s g d a s m) := by
  intro wf h e; cases e; rfl
theorem Sys2Proof.Laws.Encoding.ldxB32 (g : BitVec 3) (d : BitVec 6) (a : BitVec 6) (s : BitVec 6) (m : MemX) : Sys2Proof.Laws.Encoding.Statement (.ldxB32 g d a s m) := by
  intro wf h e; cases e; rfl
theorem Sys2Proof.Laws.Encoding.ldxB64 (g : BitVec 3) (d : BitVec 6) (a : BitVec 6) (s : BitVec 6) (m : MemX) : Sys2Proof.Laws.Encoding.Statement (.ldxB64 g d a s m) := by
  intro wf h e; cases e; rfl
theorem Sys2Proof.Laws.Encoding.ldxB128 (g : BitVec 3) (d : BitVec 6) (a : BitVec 6) (s : BitVec 6) (m : MemX) : Sys2Proof.Laws.Encoding.Statement (.ldxB128 g d a s m) := by
  intro wf h e; cases e; rfl
theorem Sys2Proof.Laws.Encoding.stxB8 (g : BitVec 3) (d : BitVec 6) (a : BitVec 6) (s : BitVec 6) (m : MemX) : Sys2Proof.Laws.Encoding.Statement (.stxB8 g d a s m) := by
  intro wf h e; cases e; rfl
theorem Sys2Proof.Laws.Encoding.stxB16 (g : BitVec 3) (d : BitVec 6) (a : BitVec 6) (s : BitVec 6) (m : MemX) : Sys2Proof.Laws.Encoding.Statement (.stxB16 g d a s m) := by
  intro wf h e; cases e; rfl
theorem Sys2Proof.Laws.Encoding.stxB32 (g : BitVec 3) (d : BitVec 6) (a : BitVec 6) (s : BitVec 6) (m : MemX) : Sys2Proof.Laws.Encoding.Statement (.stxB32 g d a s m) := by
  intro wf h e; cases e; rfl
theorem Sys2Proof.Laws.Encoding.stxB64 (g : BitVec 3) (d : BitVec 6) (a : BitVec 6) (s : BitVec 6) (m : MemX) : Sys2Proof.Laws.Encoding.Statement (.stxB64 g d a s m) := by
  intro wf h e; cases e; rfl
theorem Sys2Proof.Laws.Encoding.stxB128 (g : BitVec 3) (d : BitVec 6) (a : BitVec 6) (s : BitVec 6) (m : MemX) : Sys2Proof.Laws.Encoding.Statement (.stxB128 g d a s m) := by
  intro wf h e; cases e; rfl
theorem Sys2Proof.Laws.Encoding.atomAddI32 (g : BitVec 3) (d : BitVec 6) (a : BitVec 6) (s : BitVec 6) (m : MemX) : Sys2Proof.Laws.Encoding.Statement (.atomAddI32 g d a s m) := by
  intro wf h e; cases e; rfl
theorem Sys2Proof.Laws.Encoding.atomAddF32 (g : BitVec 3) (d : BitVec 6) (a : BitVec 6) (s : BitVec 6) (m : MemX) : Sys2Proof.Laws.Encoding.Statement (.atomAddF32 g d a s m) := by
  intro wf h e; cases e; rfl
theorem Sys2Proof.Laws.Encoding.atomMinI32 (g : BitVec 3) (d : BitVec 6) (a : BitVec 6) (s : BitVec 6) (m : MemX) : Sys2Proof.Laws.Encoding.Statement (.atomMinI32 g d a s m) := by
  intro wf h e; cases e; rfl
theorem Sys2Proof.Laws.Encoding.atomMaxI32 (g : BitVec 3) (d : BitVec 6) (a : BitVec 6) (s : BitVec 6) (m : MemX) : Sys2Proof.Laws.Encoding.Statement (.atomMaxI32 g d a s m) := by
  intro wf h e; cases e; rfl
theorem Sys2Proof.Laws.Encoding.atomMinu (g : BitVec 3) (d : BitVec 6) (a : BitVec 6) (s : BitVec 6) (m : MemX) : Sys2Proof.Laws.Encoding.Statement (.atomMinu g d a s m) := by
  intro wf h e; cases e; rfl
theorem Sys2Proof.Laws.Encoding.atomMaxu (g : BitVec 3) (d : BitVec 6) (a : BitVec 6) (s : BitVec 6) (m : MemX) : Sys2Proof.Laws.Encoding.Statement (.atomMaxu g d a s m) := by
  intro wf h e; cases e; rfl
theorem Sys2Proof.Laws.Encoding.atomAnd (g : BitVec 3) (d : BitVec 6) (a : BitVec 6) (s : BitVec 6) (m : MemX) : Sys2Proof.Laws.Encoding.Statement (.atomAnd g d a s m) := by
  intro wf h e; cases e; rfl
theorem Sys2Proof.Laws.Encoding.atomOr (g : BitVec 3) (d : BitVec 6) (a : BitVec 6) (s : BitVec 6) (m : MemX) : Sys2Proof.Laws.Encoding.Statement (.atomOr g d a s m) := by
  intro wf h e; cases e; rfl
theorem Sys2Proof.Laws.Encoding.atomXor (g : BitVec 3) (d : BitVec 6) (a : BitVec 6) (s : BitVec 6) (m : MemX) : Sys2Proof.Laws.Encoding.Statement (.atomXor g d a s m) := by
  intro wf h e; cases e; rfl
theorem Sys2Proof.Laws.Encoding.atomXchg (g : BitVec 3) (d : BitVec 6) (a : BitVec 6) (s : BitVec 6) (m : MemX) : Sys2Proof.Laws.Encoding.Statement (.atomXchg g d a s m) := by
  intro wf h e; cases e; rfl
theorem Sys2Proof.Laws.Encoding.atomIncw (g : BitVec 3) (d : BitVec 6) (a : BitVec 6) (s : BitVec 6) (m : MemX) : Sys2Proof.Laws.Encoding.Statement (.atomIncw g d a s m) := by
  intro wf h e; cases e; rfl
theorem Sys2Proof.Laws.Encoding.atomDecw (g : BitVec 3) (d : BitVec 6) (a : BitVec 6) (s : BitVec 6) (m : MemX) : Sys2Proof.Laws.Encoding.Statement (.atomDecw g d a s m) := by
  intro wf h e; cases e; rfl
theorem Sys2Proof.Laws.Encoding.atomAddI64 (g : BitVec 3) (d : BitVec 6) (a : BitVec 6) (s : BitVec 6) (m : MemX) : Sys2Proof.Laws.Encoding.Statement (.atomAddI64 g d a s m) := by
  intro wf h e; cases e; rfl
theorem Sys2Proof.Laws.Encoding.atomXchg64 (g : BitVec 3) (d : BitVec 6) (a : BitVec 6) (s : BitVec 6) (m : MemX) : Sys2Proof.Laws.Encoding.Statement (.atomXchg64 g d a s m) := by
  intro wf h e; cases e; rfl
theorem Sys2Proof.Laws.Encoding.atomAddH2 (g : BitVec 3) (d : BitVec 6) (a : BitVec 6) (s : BitVec 6) (m : MemX) : Sys2Proof.Laws.Encoding.Statement (.atomAddH2 g d a s m) := by
  intro wf h e; cases e; rfl
theorem Sys2Proof.Laws.Encoding.atomAddB2 (g : BitVec 3) (d : BitVec 6) (a : BitVec 6) (s : BitVec 6) (m : MemX) : Sys2Proof.Laws.Encoding.Statement (.atomAddB2 g d a s m) := by
  intro wf h e; cases e; rfl
theorem Sys2Proof.Laws.Encoding.redAddI32 (g : BitVec 3) (d : BitVec 6) (a : BitVec 6) (s : BitVec 6) (m : MemX) : Sys2Proof.Laws.Encoding.Statement (.redAddI32 g d a s m) := by
  intro wf h e; cases e; rfl
theorem Sys2Proof.Laws.Encoding.redAddF32 (g : BitVec 3) (d : BitVec 6) (a : BitVec 6) (s : BitVec 6) (m : MemX) : Sys2Proof.Laws.Encoding.Statement (.redAddF32 g d a s m) := by
  intro wf h e; cases e; rfl
theorem Sys2Proof.Laws.Encoding.redMinI32 (g : BitVec 3) (d : BitVec 6) (a : BitVec 6) (s : BitVec 6) (m : MemX) : Sys2Proof.Laws.Encoding.Statement (.redMinI32 g d a s m) := by
  intro wf h e; cases e; rfl
theorem Sys2Proof.Laws.Encoding.redMaxI32 (g : BitVec 3) (d : BitVec 6) (a : BitVec 6) (s : BitVec 6) (m : MemX) : Sys2Proof.Laws.Encoding.Statement (.redMaxI32 g d a s m) := by
  intro wf h e; cases e; rfl
theorem Sys2Proof.Laws.Encoding.redMinu (g : BitVec 3) (d : BitVec 6) (a : BitVec 6) (s : BitVec 6) (m : MemX) : Sys2Proof.Laws.Encoding.Statement (.redMinu g d a s m) := by
  intro wf h e; cases e; rfl
theorem Sys2Proof.Laws.Encoding.redMaxu (g : BitVec 3) (d : BitVec 6) (a : BitVec 6) (s : BitVec 6) (m : MemX) : Sys2Proof.Laws.Encoding.Statement (.redMaxu g d a s m) := by
  intro wf h e; cases e; rfl
theorem Sys2Proof.Laws.Encoding.redAnd (g : BitVec 3) (d : BitVec 6) (a : BitVec 6) (s : BitVec 6) (m : MemX) : Sys2Proof.Laws.Encoding.Statement (.redAnd g d a s m) := by
  intro wf h e; cases e; rfl
theorem Sys2Proof.Laws.Encoding.redOr (g : BitVec 3) (d : BitVec 6) (a : BitVec 6) (s : BitVec 6) (m : MemX) : Sys2Proof.Laws.Encoding.Statement (.redOr g d a s m) := by
  intro wf h e; cases e; rfl
theorem Sys2Proof.Laws.Encoding.redXor (g : BitVec 3) (d : BitVec 6) (a : BitVec 6) (s : BitVec 6) (m : MemX) : Sys2Proof.Laws.Encoding.Statement (.redXor g d a s m) := by
  intro wf h e; cases e; rfl
theorem Sys2Proof.Laws.Encoding.redXchg (g : BitVec 3) (d : BitVec 6) (a : BitVec 6) (s : BitVec 6) (m : MemX) : Sys2Proof.Laws.Encoding.Statement (.redXchg g d a s m) := by
  intro wf h e; cases e; rfl
theorem Sys2Proof.Laws.Encoding.redIncw (g : BitVec 3) (d : BitVec 6) (a : BitVec 6) (s : BitVec 6) (m : MemX) : Sys2Proof.Laws.Encoding.Statement (.redIncw g d a s m) := by
  intro wf h e; cases e; rfl
theorem Sys2Proof.Laws.Encoding.redDecw (g : BitVec 3) (d : BitVec 6) (a : BitVec 6) (s : BitVec 6) (m : MemX) : Sys2Proof.Laws.Encoding.Statement (.redDecw g d a s m) := by
  intro wf h e; cases e; rfl
theorem Sys2Proof.Laws.Encoding.redAddI64 (g : BitVec 3) (d : BitVec 6) (a : BitVec 6) (s : BitVec 6) (m : MemX) : Sys2Proof.Laws.Encoding.Statement (.redAddI64 g d a s m) := by
  intro wf h e; cases e; rfl
theorem Sys2Proof.Laws.Encoding.redXchg64 (g : BitVec 3) (d : BitVec 6) (a : BitVec 6) (s : BitVec 6) (m : MemX) : Sys2Proof.Laws.Encoding.Statement (.redXchg64 g d a s m) := by
  intro wf h e; cases e; rfl
theorem Sys2Proof.Laws.Encoding.redAddH2 (g : BitVec 3) (d : BitVec 6) (a : BitVec 6) (s : BitVec 6) (m : MemX) : Sys2Proof.Laws.Encoding.Statement (.redAddH2 g d a s m) := by
  intro wf h e; cases e; rfl
theorem Sys2Proof.Laws.Encoding.redAddB2 (g : BitVec 3) (d : BitVec 6) (a : BitVec 6) (s : BitVec 6) (m : MemX) : Sys2Proof.Laws.Encoding.Statement (.redAddB2 g d a s m) := by
  intro wf h e; cases e; rfl
theorem Sys2Proof.Laws.Encoding.cas32 (g : BitVec 3) (d : BitVec 6) (a : BitVec 6) (s : BitVec 6) (m : MemX) : Sys2Proof.Laws.Encoding.Statement (.cas32 g d a s m) := by
  intro wf h e; cases e; rfl
theorem Sys2Proof.Laws.Encoding.cas64 (g : BitVec 3) (d : BitVec 6) (a : BitVec 6) (s : BitVec 6) (m : MemX) : Sys2Proof.Laws.Encoding.Statement (.cas64 g d a s m) := by
  intro wf h e; cases e; rfl
theorem Sys2Proof.Laws.Encoding.fence (m : MemX) : Sys2Proof.Laws.Encoding.Statement (.fence m) := by
  intro wf h e; cases e; rfl
theorem Sys2Proof.Laws.Encoding.fenceEng (m : MemX) : Sys2Proof.Laws.Encoding.Statement (.fenceEng m) := by
  intro wf h e; cases e; rfl
theorem Sys2Proof.Laws.Encoding.pref (q : Quals) (s : BitVec 6) : Sys2Proof.Laws.Encoding.Statement (.pref q s) := by
  intro wf h e; cases e; rfl
theorem Sys2Proof.Laws.Encoding.cwb (q : Quals) (s : BitVec 6) : Sys2Proof.Laws.Encoding.Statement (.cwb q s) := by
  intro wf h e; cases e; rfl
theorem Sys2Proof.Laws.Encoding.cinv (q : Quals) (s : BitVec 6) : Sys2Proof.Laws.Encoding.Statement (.cinv q s) := by
  intro wf h e; cases e; rfl
theorem Sys2Proof.Laws.Encoding.czero (q : Quals) (s : BitVec 6) : Sys2Proof.Laws.Encoding.Statement (.czero q s) := by
  intro wf h e; cases e; rfl
theorem Sys2Proof.Laws.Encoding.bankm (q : Quals) (a : BitVec 6) (s : BitVec 6) : Sys2Proof.Laws.Encoding.Statement (.bankm q a s) := by
  intro wf h e; cases e; rfl
theorem Sys2Proof.Laws.Encoding.cevt (q : Quals) (s : BitVec 6) : Sys2Proof.Laws.Encoding.Statement (.cevt q s) := by
  intro wf h e; cases e; rfl
theorem Sys2Proof.Laws.Encoding.spill (q : Quals) (d : BitVec 6) (a : BitVec 6) (s : BitVec 6) : Sys2Proof.Laws.Encoding.Statement (.spill q d a s) := by
  intro wf h e; cases e; rfl
theorem Sys2Proof.Laws.Encoding.fill (q : Quals) (d : BitVec 6) (a : BitVec 6) (s : BitVec 6) : Sys2Proof.Laws.Encoding.Statement (.fill q d a s) := by
  intro wf h e; cases e; rfl
theorem Sys2Proof.Laws.Encoding.ldoF8 (q : Quals) (d : BitVec 6) (s : BitVec 6) : Sys2Proof.Laws.Encoding.Statement (.ldoF8 q d s) := by
  intro wf h e; cases e; rfl
theorem Sys2Proof.Laws.Encoding.ldoBf16 (q : Quals) (d : BitVec 6) (s : BitVec 6) : Sys2Proof.Laws.Encoding.Statement (.ldoBf16 q d s) := by
  intro wf h e; cases e; rfl
theorem Sys2Proof.Laws.Encoding.ldoQ4n (q : Quals) (d : BitVec 6) (s : BitVec 6) : Sys2Proof.Laws.Encoding.Statement (.ldoQ4n q d s) := by
  intro wf h e; cases e; rfl
theorem Sys2Proof.Laws.Encoding.claim (q : Quals) (d : BitVec 6) : Sys2Proof.Laws.Encoding.Statement (.claim q d) := by
  intro wf h e; cases e; rfl
theorem Sys2Proof.Laws.Encoding.rels (q : Quals) (d : BitVec 6) : Sys2Proof.Laws.Encoding.Statement (.rels q d) := by
  intro wf h e; cases e; rfl
theorem Sys2Proof.Laws.Encoding.slotq (q : Quals) (d : BitVec 6) (a : BitVec 6) : Sys2Proof.Laws.Encoding.Statement (.slotq q d a) := by
  intro wf h e; cases e; rfl
theorem Sys2Proof.Laws.Encoding.mmaE4e4 (q : Quals) (d : BitVec 6) (a : BitVec 6) (b : BitVec 6) : Sys2Proof.Laws.Encoding.Statement (.mmaE4e4 q d a b) := by
  intro wf h e; cases e; rfl
theorem Sys2Proof.Laws.Encoding.mmaE5e4 (q : Quals) (d : BitVec 6) (a : BitVec 6) (b : BitVec 6) : Sys2Proof.Laws.Encoding.Statement (.mmaE5e4 q d a b) := by
  intro wf h e; cases e; rfl
theorem Sys2Proof.Laws.Encoding.mmaE4e5 (q : Quals) (d : BitVec 6) (a : BitVec 6) (b : BitVec 6) : Sys2Proof.Laws.Encoding.Statement (.mmaE4e5 q d a b) := by
  intro wf h e; cases e; rfl
theorem Sys2Proof.Laws.Encoding.mmaE5e5 (q : Quals) (d : BitVec 6) (a : BitVec 6) (b : BitVec 6) : Sys2Proof.Laws.Encoding.Statement (.mmaE5e5 q d a b) := by
  intro wf h e; cases e; rfl
theorem Sys2Proof.Laws.Encoding.mmaBf16 (q : Quals) (d : BitVec 6) (a : BitVec 6) (b : BitVec 6) : Sys2Proof.Laws.Encoding.Statement (.mmaBf16 q d a b) := by
  intro wf h e; cases e; rfl
theorem Sys2Proof.Laws.Encoding.mmaF16 (q : Quals) (d : BitVec 6) (a : BitVec 6) (b : BitVec 6) : Sys2Proof.Laws.Encoding.Statement (.mmaF16 q d a b) := by
  intro wf h e; cases e; rfl
theorem Sys2Proof.Laws.Encoding.mmaE4q4 (q : Quals) (d : BitVec 6) (a : BitVec 6) (b : BitVec 6) : Sys2Proof.Laws.Encoding.Statement (.mmaE4q4 q d a b) := by
  intro wf h e; cases e; rfl
theorem Sys2Proof.Laws.Encoding.mmaI8 (q : Quals) (d : BitVec 6) (a : BitVec 6) (b : BitVec 6) : Sys2Proof.Laws.Encoding.Statement (.mmaI8 q d a b) := by
  intro wf h e; cases e; rfl
theorem Sys2Proof.Laws.Encoding.mmspE4e4 (g : BitVec 3) (d : BitVec 6) (a : BitVec 6) (b : BitVec 6) (c : BitVec 6) (sx : BitVec 2) : Sys2Proof.Laws.Encoding.Statement (.mmspE4e4 g d a b c sx) := by
  intro wf h e; cases e; rfl
theorem Sys2Proof.Laws.Encoding.mmspBf16 (g : BitVec 3) (d : BitVec 6) (a : BitVec 6) (b : BitVec 6) (c : BitVec 6) (sx : BitVec 2) : Sys2Proof.Laws.Encoding.Statement (.mmspBf16 g d a b c sx) := by
  intro wf h e; cases e; rfl
theorem Sys2Proof.Laws.Encoding.mmspI8 (g : BitVec 3) (d : BitVec 6) (a : BitVec 6) (b : BitVec 6) (c : BitVec 6) (sx : BitVec 2) : Sys2Proof.Laws.Encoding.Statement (.mmspI8 g d a b c sx) := by
  intro wf h e; cases e; rfl
theorem Sys2Proof.Laws.Encoding.cpy (q : Quals) (d : BitVec 6) (a : BitVec 6) (b : BitVec 6) (c : BitVec 3) : Sys2Proof.Laws.Encoding.Statement (.cpy q d a b c) := by
  intro wf h e; rcases q with ⟨g, ext⟩; cases e
  cases ext <;> first
    | (show (if (0#1 ++ c).getLsbD 3 then none else some (Instr.cpy _ d a b ((0#1 ++ c).extractLsb' 0 3))) = _
       rw [(Sys2Proof.Laws.Encoding.chan_part c).1, (Sys2Proof.Laws.Encoding.chan_part c).2]; rfl)
    | (exfalso; have hf := Sys2Proof.Laws.Encoding.chan_form c; simp [Instr.wf, Instr.view, Head.ok, Head.form, hf, Head.extOk, Head.extKind] at wf)
theorem Sys2Proof.Laws.Encoding.cpy2d (g : BitVec 3) (d : BitVec 6) (a : BitVec 6) (b : BitVec 6) (c : BitVec 3) (rows : BitVec 12) (pitch : BitVec 13) : Sys2Proof.Laws.Encoding.Statement (.cpy2d g d a b c rows pitch) := by
  intro wf h e; cases e; show (if (1#1 ++ c).getLsbD 3 then some (Instr.cpy2d g d a b ((1#1 ++ c).extractLsb' 0 3) rows pitch) else none) = _; rw [(Sys2Proof.Laws.Encoding.chan2_part c).1, (Sys2Proof.Laws.Encoding.chan2_part c).2]; rfl
theorem Sys2Proof.Laws.Encoding.twait (q : Quals) (a : BitVec 6) (c : BitVec 3) : Sys2Proof.Laws.Encoding.Statement (.twait q a c) := by
  intro wf h e; cases e; show (if (0#1 ++ c).getLsbD 3 then none else some (Instr.twait q a ((0#1 ++ c).extractLsb' 0 3))) = _; rw [(Sys2Proof.Laws.Encoding.chan_part c).1, (Sys2Proof.Laws.Encoding.chan_part c).2]; rfl
theorem Sys2Proof.Laws.Encoding.treadIss (q : Quals) (d : BitVec 6) (c : BitVec 3) : Sys2Proof.Laws.Encoding.Statement (.treadIss q d c) := by
  intro wf h e; cases e; show (if (0#1 ++ c).getLsbD 3 then none else some (Instr.treadIss q d ((0#1 ++ c).extractLsb' 0 3))) = _; rw [(Sys2Proof.Laws.Encoding.chan_part c).1, (Sys2Proof.Laws.Encoding.chan_part c).2]; rfl
theorem Sys2Proof.Laws.Encoding.treadDone (q : Quals) (d : BitVec 6) (c : BitVec 3) : Sys2Proof.Laws.Encoding.Statement (.treadDone q d c) := by
  intro wf h e; cases e; show (if (0#1 ++ c).getLsbD 3 then none else some (Instr.treadDone q d ((0#1 ++ c).extractLsb' 0 3))) = _; rw [(Sys2Proof.Laws.Encoding.chan_part c).1, (Sys2Proof.Laws.Encoding.chan_part c).2]; rfl
theorem Sys2Proof.Laws.Encoding.treadWp (q : Quals) (d : BitVec 6) (c : BitVec 3) : Sys2Proof.Laws.Encoding.Statement (.treadWp q d c) := by
  intro wf h e; cases e; show (if (0#1 ++ c).getLsbD 3 then none else some (Instr.treadWp q d ((0#1 ++ c).extractLsb' 0 3))) = _; rw [(Sys2Proof.Laws.Encoding.chan_part c).1, (Sys2Proof.Laws.Encoding.chan_part c).2]; rfl
theorem Sys2Proof.Laws.Encoding.wpwait (q : Quals) (a : BitVec 6) (c : BitVec 3) : Sys2Proof.Laws.Encoding.Statement (.wpwait q a c) := by
  intro wf h e; cases e; show (if (0#1 ++ c).getLsbD 3 then none else some (Instr.wpwait q a ((0#1 ++ c).extractLsb' 0 3))) = _; rw [(Sys2Proof.Laws.Encoding.chan_part c).1, (Sys2Proof.Laws.Encoding.chan_part c).2]; rfl
theorem Sys2Proof.Laws.Encoding.qpush (q : Quals) (d : BitVec 6) (a : BitVec 6) : Sys2Proof.Laws.Encoding.Statement (.qpush q d a) := by
  intro wf h e; cases e; rfl
theorem Sys2Proof.Laws.Encoding.qpushTry (q : Quals) (d : BitVec 6) (a : BitVec 6) (b : BitVec 6) : Sys2Proof.Laws.Encoding.Statement (.qpushTry q d a b) := by
  intro wf h e; cases e; rfl
theorem Sys2Proof.Laws.Encoding.qpop (q : Quals) (d : BitVec 6) (a : BitVec 6) : Sys2Proof.Laws.Encoding.Statement (.qpop q d a) := by
  intro wf h e; cases e; rfl
theorem Sys2Proof.Laws.Encoding.qpopTry (q : Quals) (d : BitVec 6) (a : BitVec 6) (b : BitVec 6) : Sys2Proof.Laws.Encoding.Statement (.qpopTry q d a b) := by
  intro wf h e; cases e; rfl
theorem Sys2Proof.Laws.Encoding.qinit (q : Quals) (d : BitVec 6) (a : BitVec 6) (b : BitVec 6) : Sys2Proof.Laws.Encoding.Statement (.qinit q d a b) := by
  intro wf h e; cases e; rfl
theorem Sys2Proof.Laws.Encoding.qallow (q : Quals) (d : BitVec 6) (a : BitVec 6) : Sys2Proof.Laws.Encoding.Statement (.qallow q d a) := by
  intro wf h e; cases e; rfl
theorem Sys2Proof.Laws.Encoding.qclose (q : Quals) (d : BitVec 6) : Sys2Proof.Laws.Encoding.Statement (.qclose q d) := by
  intro wf h e; cases e; rfl
theorem Sys2Proof.Laws.Encoding.binit (q : Quals) (d : BitVec 6) (a : BitVec 6) : Sys2Proof.Laws.Encoding.Statement (.binit q d a) := by
  intro wf h e; cases e; rfl
theorem Sys2Proof.Laws.Encoding.barr (q : Quals) (d : BitVec 6) : Sys2Proof.Laws.Encoding.Statement (.barr q d) := by
  intro wf h e; cases e; rfl
theorem Sys2Proof.Laws.Encoding.bwait (q : Quals) (d : BitVec 6) : Sys2Proof.Laws.Encoding.Statement (.bwait q d) := by
  intro wf h e; cases e; rfl
theorem Sys2Proof.Laws.Encoding.bsync (q : Quals) (d : BitVec 6) : Sys2Proof.Laws.Encoding.Statement (.bsync q d) := by
  intro wf h e; cases e; rfl
theorem Sys2Proof.Laws.Encoding.barrn (q : Quals) (d : BitVec 6) (a : BitVec 6) : Sys2Proof.Laws.Encoding.Statement (.barrn q d a) := by
  intro wf h e; cases e; rfl
theorem Sys2Proof.Laws.Encoding.homeL (q : Quals) (d : BitVec 6) : Sys2Proof.Laws.Encoding.Statement (.homeL q d) := by
  intro wf h e; cases e; rfl
theorem Sys2Proof.Laws.Encoding.homeK (q : Quals) (d : BitVec 6) : Sys2Proof.Laws.Encoding.Statement (.homeK q d) := by
  intro wf h e; cases e; rfl
theorem Sys2Proof.Laws.Encoding.homeH (q : Quals) (d : BitVec 6) (a : BitVec 6) : Sys2Proof.Laws.Encoding.Statement (.homeH q d a) := by
  intro wf h e; cases e; rfl
theorem Sys2Proof.Laws.Encoding.homeM (q : Quals) (d : BitVec 6) (a : BitVec 6) : Sys2Proof.Laws.Encoding.Statement (.homeM q d a) := by
  intro wf h e; cases e; rfl
theorem Sys2Proof.Laws.Encoding.drain (q : Quals) : Sys2Proof.Laws.Encoding.Statement (.drain q) := by
  intro wf h e; cases e; rfl
theorem Sys2Proof.Laws.Encoding.mfpm (q : Quals) (d : BitVec 6) (a : BitVec 6) : Sys2Proof.Laws.Encoding.Statement (.mfpm q d a) := by
  intro wf h e; cases e; rfl
theorem Sys2Proof.Laws.Encoding.quota (q : Quals) (a : BitVec 6) : Sys2Proof.Laws.Encoding.Statement (.quota q a) := by
  intro wf h e; cases e; rfl
theorem Sys2Proof.Laws.Encoding.akey (q : Quals) (d : BitVec 6) (a : BitVec 6) : Sys2Proof.Laws.Encoding.Statement (.akey q d a) := by
  intro wf h e; cases e; rfl
theorem Sys2Proof.Laws.Encoding.aact (q : Quals) (d : BitVec 6) (a : BitVec 6) : Sys2Proof.Laws.Encoding.Statement (.aact q d a) := by
  intro wf h e; cases e; rfl
theorem Sys2Proof.Laws.Encoding.acmp (q : Quals) (d : BitVec 6) : Sys2Proof.Laws.Encoding.Statement (.acmp q d) := by
  intro wf h e; cases e; rfl
theorem Sys2Proof.Laws.Encoding.acmpa (q : Quals) (d : BitVec 6) : Sys2Proof.Laws.Encoding.Statement (.acmpa q d) := by
  intro wf h e; cases e; rfl
theorem Sys2Proof.Laws.Encoding.acmpo (q : Quals) (d : BitVec 6) : Sys2Proof.Laws.Encoding.Statement (.acmpo q d) := by
  intro wf h e; cases e; rfl
theorem Sys2Proof.Laws.Encoding.awrt (q : Quals) (d : BitVec 6) : Sys2Proof.Laws.Encoding.Statement (.awrt q d) := by
  intro wf h e; cases e; rfl
theorem Sys2Proof.Laws.Encoding.apass (q : Quals) (d : BitVec 6) (a : BitVec 6) : Sys2Proof.Laws.Encoding.Statement (.apass q d a) := by
  intro wf h e; cases e; rfl
theorem Sys2Proof.Laws.Encoding.apre (q : Quals) (d : BitVec 6) : Sys2Proof.Laws.Encoding.Statement (.apre q d) := by
  intro wf h e; cases e; rfl
theorem Sys2Proof.Laws.Encoding.ardt (q : Quals) (d : BitVec 6) (b : BitVec 6) : Sys2Proof.Laws.Encoding.Statement (.ardt q d b) := by
  intro wf h e; cases e; rfl
theorem Sys2Proof.Laws.Encoding.acnt (q : Quals) (d : BitVec 6) : Sys2Proof.Laws.Encoding.Statement (.acnt q d) := by
  intro wf h e; cases e; rfl
theorem Sys2Proof.Laws.Encoding.launch (q : Quals) (d : BitVec 6) (a : BitVec 6) : Sys2Proof.Laws.Encoding.Statement (.launch q d a) := by
  intro wf h e; cases e; rfl
theorem Sys2Proof.Laws.Encoding.tsig (q : Quals) : Sys2Proof.Laws.Encoding.Statement (.tsig q) := by
  intro wf h e; cases e; rfl
theorem Sys2Proof.Laws.Encoding.evset (q : Quals) (a : BitVec 6) : Sys2Proof.Laws.Encoding.Statement (.evset q a) := by
  intro wf h e; cases e; rfl
theorem Sys2Proof.Laws.Encoding.evwait (q : Quals) (a : BitVec 6) : Sys2Proof.Laws.Encoding.Statement (.evwait q a) := by
  intro wf h e; cases e; rfl
theorem Sys2Proof.Laws.Encoding.lstat (q : Quals) (d : BitVec 6) (a : BitVec 6) : Sys2Proof.Laws.Encoding.Statement (.lstat q d a) := by
  intro wf h e; cases e; rfl
theorem Sys2Proof.Laws.Encoding.mfs (q : Quals) (d : BitVec 6) (b : BitVec 6) : Sys2Proof.Laws.Encoding.Statement (.mfs q d b) := by
  intro wf h e; rcases q with ⟨g, ext⟩; cases e; cases ext <;> rfl
theorem Sys2Proof.Laws.Encoding.mts (q : Quals) (a : BitVec 6) (b : BitVec 6) : Sys2Proof.Laws.Encoding.Statement (.mts q a b) := by
  intro wf h e; rcases q with ⟨g, ext⟩; cases e; cases ext <;> rfl
theorem Sys2Proof.Laws.Encoding.tlbi (g : BitVec 3) (a : BitVec 6) (b : BitVec 6) (m : MemX) : Sys2Proof.Laws.Encoding.Statement (.tlbi g a b m) := by
  intro wf h e; cases e; rfl
theorem Sys2Proof.Laws.Encoding.ctxsv (q : Quals) (d : BitVec 6) (a : BitVec 6) (b : BitVec 6) : Sys2Proof.Laws.Encoding.Statement (.ctxsv q d a b) := by
  intro wf h e; rcases q with ⟨g, ext⟩; cases e; cases ext <;> rfl
theorem Sys2Proof.Laws.Encoding.ctxrs (q : Quals) (d : BitVec 6) (a : BitVec 6) : Sys2Proof.Laws.Encoding.Statement (.ctxrs q d a) := by
  intro wf h e; rcases q with ⟨g, ext⟩; cases e; cases ext <;> rfl
theorem Sys2Proof.Laws.Encoding.winrd (q : Quals) (d : BitVec 6) (a : BitVec 6) : Sys2Proof.Laws.Encoding.Statement (.winrd q d a) := by
  intro wf h e; rcases q with ⟨g, ext⟩; cases e; cases ext <;> rfl
theorem Sys2Proof.Laws.Encoding.winwr (q : Quals) (a : BitVec 6) (b : BitVec 6) : Sys2Proof.Laws.Encoding.Statement (.winwr q a b) := by
  intro wf h e; rcases q with ⟨g, ext⟩; cases e; cases ext <;> rfl
theorem Sys2Proof.Laws.Encoding.resume (q : Quals) (a : BitVec 6) : Sys2Proof.Laws.Encoding.Statement (.resume q a) := by
  intro wf h e; rcases q with ⟨g, ext⟩; cases e; cases ext <;> rfl
theorem Sys2Proof.Laws.Encoding.ptload (q : Quals) (d : BitVec 6) (a : BitVec 6) (b : BitVec 6) : Sys2Proof.Laws.Encoding.Statement (.ptload q d a b) := by
  intro wf h e; rcases q with ⟨g, ext⟩; cases e; cases ext <;> rfl
theorem Sys2Proof.Laws.Encoding.bias (q : Quals) (d : BitVec 6) (a : BitVec 6) : Sys2Proof.Laws.Encoding.Statement (.bias q d a) := by
  intro wf h e; rcases q with ⟨g, ext⟩; cases e; cases ext <;> rfl
theorem Sys2Proof.Laws.Encoding.dtime (q : Quals) (d : BitVec 6) : Sys2Proof.Laws.Encoding.Statement (.dtime q d) := by
  intro wf h e; rcases q with ⟨g, ext⟩; cases e; cases ext <;> rfl
theorem Sys2Proof.Laws.Encoding.configurationRequest (port : Nat) (reg : Nat) : Sys2Proof.Laws.Encoding.Statement (.configurationRequest port reg) := by
  intro wf h e; cases e
theorem Sys2Proof.Laws.Encoding.replicaFill (k : Nat) : Sys2Proof.Laws.Encoding.Statement (.replicaFill k) := by
  intro wf h e; cases e
theorem Sys2Proof.Laws.Encoding.backInvalidation (k : Nat) : Sys2Proof.Laws.Encoding.Statement (.backInvalidation k) := by
  intro wf h e; cases e
end

