-- ==== Sys2Proof/Laws/State.lean ====
section
/-!
SUPPORT. The updates of the machine, of a group and of its registers, field by field: what each leaves as it was.
-/
namespace Sys2Proof.Machine

/-! ### setGroup -/

@[simp] theorem State.setGroup_clk (s : State) (core grp : Nat) (g : Group) : (s.setGroup core grp g).clk = s.clk := rfl
@[simp] theorem State.setGroup_mem (s : State) (core grp : Nat) (g : Group) : (s.setGroup core grp g).mem = s.mem := rfl
@[simp] theorem State.setGroup_poison (s : State) (core grp : Nat) (g : Group) : (s.setGroup core grp g).poison = s.poison := rfl
@[simp] theorem State.setGroup_ue (s : State) (core grp : Nat) (g : Group) : (s.setGroup core grp g).ue = s.ue := rfl
@[simp] theorem State.setGroup_ce (s : State) (core grp : Nat) (g : Group) : (s.setGroup core grp g).ce = s.ce := rfl
@[simp] theorem State.setGroup_mreg (s : State) (core grp : Nat) (g : Group) : (s.setGroup core grp g).mreg = s.mreg := rfl
@[simp] theorem State.setGroup_groups (s : State) (core grp : Nat) (g : Group) : (s.setGroup core grp g).groups = s.groups.put (groupKey core grp) g := rfl
@[simp] theorem State.setGroup_teams (s : State) (core grp : Nat) (g : Group) : (s.setGroup core grp g).teams = s.teams := rfl
@[simp] theorem State.setGroup_ctxs (s : State) (core grp : Nat) (g : Group) : (s.setGroup core grp g).ctxs = s.ctxs := rfl
@[simp] theorem State.setGroup_parts (s : State) (core grp : Nat) (g : Group) : (s.setGroup core grp g).parts = s.parts := rfl
@[simp] theorem State.setGroup_chans (s : State) (core grp : Nat) (g : Group) : (s.setGroup core grp g).chans = s.chans := rfl
@[simp] theorem State.setGroup_clusters (s : State) (core grp : Nat) (g : Group) : (s.setGroup core grp g).clusters = s.clusters := rfl
@[simp] theorem State.setGroup_homes (s : State) (core grp : Nat) (g : Group) : (s.setGroup core grp g).homes = s.homes := rfl
@[simp] theorem State.setGroup_replicas (s : State) (core grp : Nat) (g : Group) : (s.setGroup core grp g).replicas = s.replicas := rfl
@[simp] theorem State.setGroup_net (s : State) (core grp : Nat) (g : Group) : (s.setGroup core grp g).net = s.net := rfl
@[simp] theorem State.setGroup_tag (s : State) (core grp : Nat) (g : Group) : (s.setGroup core grp g).tag = s.tag := rfl
@[simp] theorem State.setGroup_images (s : State) (core grp : Nat) (g : Group) : (s.setGroup core grp g).images = s.images := rfl
@[simp] theorem State.setGroup_units (s : State) (core grp : Nat) (g : Group) : (s.setGroup core grp g).units = s.units := rfl
@[simp] theorem State.setGroup_tlb (s : State) (core grp : Nat) (g : Group) : (s.setGroup core grp g).tlb = s.tlb := rfl
@[simp] theorem State.setGroup_mgmt (s : State) (core grp : Nat) (g : Group) : (s.setGroup core grp g).mgmt = s.mgmt := rfl
@[simp] theorem State.setGroup_acct (s : State) (core grp : Nat) (g : Group) : (s.setGroup core grp g).acct = s.acct := rfl
@[simp] theorem State.setGroup_out (s : State) (core grp : Nat) (g : Group) : (s.setGroup core grp g).out = s.out := rfl
@[simp] theorem State.setGroup_flash (s : State) (core grp : Nat) (g : Group) : (s.setGroup core grp g).flash = s.flash := rfl
@[simp] theorem State.setGroup_corrected (s : State) (core grp : Nat) (g : Group) : (s.setGroup core grp g).corrected = s.corrected := rfl
@[simp] theorem State.setGroup_running (s : State) (core grp : Nat) (g : Group) : (s.setGroup core grp g).running = s.running := rfl
@[simp] theorem State.setGroup_agenda (s : State) (core grp : Nat) (g : Group) : (s.setGroup core grp g).agenda = s.agenda := rfl
@[simp] theorem State.setGroup_iss (s : State) (core grp : Nat) (g : Group) : (s.setGroup core grp g).iss = s.iss := rfl
@[simp] theorem State.setGroup_free (s : State) (core grp : Nat) (g : Group) : (s.setGroup core grp g).free = s.free := rfl

/-! ### setPart -/

@[simp] theorem State.setPart_clk (s : State) (core part : Nat) (p : Part) : (s.setPart core part p).clk = s.clk := rfl
@[simp] theorem State.setPart_mem (s : State) (core part : Nat) (p : Part) : (s.setPart core part p).mem = s.mem := rfl
@[simp] theorem State.setPart_poison (s : State) (core part : Nat) (p : Part) : (s.setPart core part p).poison = s.poison := rfl
@[simp] theorem State.setPart_ue (s : State) (core part : Nat) (p : Part) : (s.setPart core part p).ue = s.ue := rfl
@[simp] theorem State.setPart_ce (s : State) (core part : Nat) (p : Part) : (s.setPart core part p).ce = s.ce := rfl
@[simp] theorem State.setPart_mreg (s : State) (core part : Nat) (p : Part) : (s.setPart core part p).mreg = s.mreg := rfl
@[simp] theorem State.setPart_groups (s : State) (core part : Nat) (p : Part) : (s.setPart core part p).groups = s.groups := rfl
@[simp] theorem State.setPart_teams (s : State) (core part : Nat) (p : Part) : (s.setPart core part p).teams = s.teams := rfl
@[simp] theorem State.setPart_ctxs (s : State) (core part : Nat) (p : Part) : (s.setPart core part p).ctxs = s.ctxs := rfl
@[simp] theorem State.setPart_parts (s : State) (core part : Nat) (p : Part) : (s.setPart core part p).parts = s.parts.put (partKey core part) p := rfl
@[simp] theorem State.setPart_chans (s : State) (core part : Nat) (p : Part) : (s.setPart core part p).chans = s.chans := rfl
@[simp] theorem State.setPart_clusters (s : State) (core part : Nat) (p : Part) : (s.setPart core part p).clusters = s.clusters := rfl
@[simp] theorem State.setPart_homes (s : State) (core part : Nat) (p : Part) : (s.setPart core part p).homes = s.homes := rfl
@[simp] theorem State.setPart_replicas (s : State) (core part : Nat) (p : Part) : (s.setPart core part p).replicas = s.replicas := rfl
@[simp] theorem State.setPart_net (s : State) (core part : Nat) (p : Part) : (s.setPart core part p).net = s.net := rfl
@[simp] theorem State.setPart_tag (s : State) (core part : Nat) (p : Part) : (s.setPart core part p).tag = s.tag := rfl
@[simp] theorem State.setPart_images (s : State) (core part : Nat) (p : Part) : (s.setPart core part p).images = s.images := rfl
@[simp] theorem State.setPart_units (s : State) (core part : Nat) (p : Part) : (s.setPart core part p).units = s.units := rfl
@[simp] theorem State.setPart_tlb (s : State) (core part : Nat) (p : Part) : (s.setPart core part p).tlb = s.tlb := rfl
@[simp] theorem State.setPart_mgmt (s : State) (core part : Nat) (p : Part) : (s.setPart core part p).mgmt = s.mgmt := rfl
@[simp] theorem State.setPart_acct (s : State) (core part : Nat) (p : Part) : (s.setPart core part p).acct = s.acct := rfl
@[simp] theorem State.setPart_out (s : State) (core part : Nat) (p : Part) : (s.setPart core part p).out = s.out := rfl
@[simp] theorem State.setPart_flash (s : State) (core part : Nat) (p : Part) : (s.setPart core part p).flash = s.flash := rfl
@[simp] theorem State.setPart_corrected (s : State) (core part : Nat) (p : Part) : (s.setPart core part p).corrected = s.corrected := rfl
@[simp] theorem State.setPart_running (s : State) (core part : Nat) (p : Part) : (s.setPart core part p).running = s.running := rfl
@[simp] theorem State.setPart_agenda (s : State) (core part : Nat) (p : Part) : (s.setPart core part p).agenda = s.agenda := rfl
@[simp] theorem State.setPart_iss (s : State) (core part : Nat) (p : Part) : (s.setPart core part p).iss = s.iss := rfl
@[simp] theorem State.setPart_free (s : State) (core part : Nat) (p : Part) : (s.setPart core part p).free = s.free := rfl

/-! ### setCtx -/

@[simp] theorem State.setCtx_clk (s : State) (vi : Nat) (c : Context) : (s.setCtx vi c).clk = s.clk := rfl
@[simp] theorem State.setCtx_mem (s : State) (vi : Nat) (c : Context) : (s.setCtx vi c).mem = s.mem := rfl
@[simp] theorem State.setCtx_poison (s : State) (vi : Nat) (c : Context) : (s.setCtx vi c).poison = s.poison := rfl
@[simp] theorem State.setCtx_ue (s : State) (vi : Nat) (c : Context) : (s.setCtx vi c).ue = s.ue := rfl
@[simp] theorem State.setCtx_ce (s : State) (vi : Nat) (c : Context) : (s.setCtx vi c).ce = s.ce := rfl
@[simp] theorem State.setCtx_mreg (s : State) (vi : Nat) (c : Context) : (s.setCtx vi c).mreg = s.mreg := rfl
@[simp] theorem State.setCtx_groups (s : State) (vi : Nat) (c : Context) : (s.setCtx vi c).groups = s.groups := rfl
@[simp] theorem State.setCtx_teams (s : State) (vi : Nat) (c : Context) : (s.setCtx vi c).teams = s.teams := rfl
@[simp] theorem State.setCtx_ctxs (s : State) (vi : Nat) (c : Context) : (s.setCtx vi c).ctxs = s.ctxs.put vi c := rfl
@[simp] theorem State.setCtx_parts (s : State) (vi : Nat) (c : Context) : (s.setCtx vi c).parts = s.parts := rfl
@[simp] theorem State.setCtx_chans (s : State) (vi : Nat) (c : Context) : (s.setCtx vi c).chans = s.chans := rfl
@[simp] theorem State.setCtx_clusters (s : State) (vi : Nat) (c : Context) : (s.setCtx vi c).clusters = s.clusters := rfl
@[simp] theorem State.setCtx_homes (s : State) (vi : Nat) (c : Context) : (s.setCtx vi c).homes = s.homes := rfl
@[simp] theorem State.setCtx_replicas (s : State) (vi : Nat) (c : Context) : (s.setCtx vi c).replicas = s.replicas := rfl
@[simp] theorem State.setCtx_net (s : State) (vi : Nat) (c : Context) : (s.setCtx vi c).net = s.net := rfl
@[simp] theorem State.setCtx_tag (s : State) (vi : Nat) (c : Context) : (s.setCtx vi c).tag = s.tag := rfl
@[simp] theorem State.setCtx_images (s : State) (vi : Nat) (c : Context) : (s.setCtx vi c).images = s.images := rfl
@[simp] theorem State.setCtx_units (s : State) (vi : Nat) (c : Context) : (s.setCtx vi c).units = s.units := rfl
@[simp] theorem State.setCtx_tlb (s : State) (vi : Nat) (c : Context) : (s.setCtx vi c).tlb = s.tlb := rfl
@[simp] theorem State.setCtx_mgmt (s : State) (vi : Nat) (c : Context) : (s.setCtx vi c).mgmt = s.mgmt := rfl
@[simp] theorem State.setCtx_acct (s : State) (vi : Nat) (c : Context) : (s.setCtx vi c).acct = s.acct := rfl
@[simp] theorem State.setCtx_out (s : State) (vi : Nat) (c : Context) : (s.setCtx vi c).out = s.out := rfl
@[simp] theorem State.setCtx_flash (s : State) (vi : Nat) (c : Context) : (s.setCtx vi c).flash = s.flash := rfl
@[simp] theorem State.setCtx_corrected (s : State) (vi : Nat) (c : Context) : (s.setCtx vi c).corrected = s.corrected := rfl
@[simp] theorem State.setCtx_running (s : State) (vi : Nat) (c : Context) : (s.setCtx vi c).running = s.running := rfl
@[simp] theorem State.setCtx_agenda (s : State) (vi : Nat) (c : Context) : (s.setCtx vi c).agenda = s.agenda := rfl
@[simp] theorem State.setCtx_iss (s : State) (vi : Nat) (c : Context) : (s.setCtx vi c).iss = s.iss := rfl
@[simp] theorem State.setCtx_free (s : State) (vi : Nat) (c : Context) : (s.setCtx vi c).free = s.free := rfl

/-! ### setMr -/

@[simp] theorem State.setMr_clk (s : State) (off : Nat) (x : DWord) : (s.setMr off x).clk = s.clk := rfl
@[simp] theorem State.setMr_mem (s : State) (off : Nat) (x : DWord) : (s.setMr off x).mem = s.mem := rfl
@[simp] theorem State.setMr_poison (s : State) (off : Nat) (x : DWord) : (s.setMr off x).poison = s.poison := rfl
@[simp] theorem State.setMr_ue (s : State) (off : Nat) (x : DWord) : (s.setMr off x).ue = s.ue := rfl
@[simp] theorem State.setMr_ce (s : State) (off : Nat) (x : DWord) : (s.setMr off x).ce = s.ce := rfl
@[simp] theorem State.setMr_mreg (s : State) (off : Nat) (x : DWord) : (s.setMr off x).mreg = s.mreg.put off x := rfl
@[simp] theorem State.setMr_groups (s : State) (off : Nat) (x : DWord) : (s.setMr off x).groups = s.groups := rfl
@[simp] theorem State.setMr_teams (s : State) (off : Nat) (x : DWord) : (s.setMr off x).teams = s.teams := rfl
@[simp] theorem State.setMr_ctxs (s : State) (off : Nat) (x : DWord) : (s.setMr off x).ctxs = s.ctxs := rfl
@[simp] theorem State.setMr_parts (s : State) (off : Nat) (x : DWord) : (s.setMr off x).parts = s.parts := rfl
@[simp] theorem State.setMr_chans (s : State) (off : Nat) (x : DWord) : (s.setMr off x).chans = s.chans := rfl
@[simp] theorem State.setMr_clusters (s : State) (off : Nat) (x : DWord) : (s.setMr off x).clusters = s.clusters := rfl
@[simp] theorem State.setMr_homes (s : State) (off : Nat) (x : DWord) : (s.setMr off x).homes = s.homes := rfl
@[simp] theorem State.setMr_replicas (s : State) (off : Nat) (x : DWord) : (s.setMr off x).replicas = s.replicas := rfl
@[simp] theorem State.setMr_net (s : State) (off : Nat) (x : DWord) : (s.setMr off x).net = s.net := rfl
@[simp] theorem State.setMr_tag (s : State) (off : Nat) (x : DWord) : (s.setMr off x).tag = s.tag := rfl
@[simp] theorem State.setMr_images (s : State) (off : Nat) (x : DWord) : (s.setMr off x).images = s.images := rfl
@[simp] theorem State.setMr_units (s : State) (off : Nat) (x : DWord) : (s.setMr off x).units = s.units := rfl
@[simp] theorem State.setMr_tlb (s : State) (off : Nat) (x : DWord) : (s.setMr off x).tlb = s.tlb := rfl
@[simp] theorem State.setMr_mgmt (s : State) (off : Nat) (x : DWord) : (s.setMr off x).mgmt = s.mgmt := rfl
@[simp] theorem State.setMr_acct (s : State) (off : Nat) (x : DWord) : (s.setMr off x).acct = s.acct := rfl
@[simp] theorem State.setMr_out (s : State) (off : Nat) (x : DWord) : (s.setMr off x).out = s.out := rfl
@[simp] theorem State.setMr_flash (s : State) (off : Nat) (x : DWord) : (s.setMr off x).flash = s.flash := rfl
@[simp] theorem State.setMr_corrected (s : State) (off : Nat) (x : DWord) : (s.setMr off x).corrected = s.corrected := rfl
@[simp] theorem State.setMr_running (s : State) (off : Nat) (x : DWord) : (s.setMr off x).running = s.running := rfl
@[simp] theorem State.setMr_agenda (s : State) (off : Nat) (x : DWord) : (s.setMr off x).agenda = s.agenda := rfl
@[simp] theorem State.setMr_iss (s : State) (off : Nat) (x : DWord) : (s.setMr off x).iss = s.iss := rfl
@[simp] theorem State.setMr_free (s : State) (off : Nat) (x : DWord) : (s.setMr off x).free = s.free := rfl

/-! ### writeBytes -/

@[simp] theorem State.writeBytes_clk (s : State) (cell : Nat) (bs : List Byte) : (s.writeBytes cell bs).clk = s.clk := rfl
@[simp] theorem State.writeBytes_mem (s : State) (cell : Nat) (bs : List Byte) : (s.writeBytes cell bs).mem = Memory.setBytes s.mem cell bs := rfl
@[simp] theorem State.writeBytes_poison (s : State) (cell : Nat) (bs : List Byte) : (s.writeBytes cell bs).poison = s.poison := rfl
@[simp] theorem State.writeBytes_ue (s : State) (cell : Nat) (bs : List Byte) : (s.writeBytes cell bs).ue = s.ue := rfl
@[simp] theorem State.writeBytes_ce (s : State) (cell : Nat) (bs : List Byte) : (s.writeBytes cell bs).ce = s.ce := rfl
@[simp] theorem State.writeBytes_mreg (s : State) (cell : Nat) (bs : List Byte) : (s.writeBytes cell bs).mreg = s.mreg := rfl
@[simp] theorem State.writeBytes_groups (s : State) (cell : Nat) (bs : List Byte) : (s.writeBytes cell bs).groups = s.groups := rfl
@[simp] theorem State.writeBytes_teams (s : State) (cell : Nat) (bs : List Byte) : (s.writeBytes cell bs).teams = s.teams := rfl
@[simp] theorem State.writeBytes_ctxs (s : State) (cell : Nat) (bs : List Byte) : (s.writeBytes cell bs).ctxs = s.ctxs := rfl
@[simp] theorem State.writeBytes_parts (s : State) (cell : Nat) (bs : List Byte) : (s.writeBytes cell bs).parts = s.parts := rfl
@[simp] theorem State.writeBytes_chans (s : State) (cell : Nat) (bs : List Byte) : (s.writeBytes cell bs).chans = s.chans := rfl
@[simp] theorem State.writeBytes_clusters (s : State) (cell : Nat) (bs : List Byte) : (s.writeBytes cell bs).clusters = s.clusters := rfl
@[simp] theorem State.writeBytes_homes (s : State) (cell : Nat) (bs : List Byte) : (s.writeBytes cell bs).homes = s.homes := rfl
@[simp] theorem State.writeBytes_replicas (s : State) (cell : Nat) (bs : List Byte) : (s.writeBytes cell bs).replicas = s.replicas := rfl
@[simp] theorem State.writeBytes_net (s : State) (cell : Nat) (bs : List Byte) : (s.writeBytes cell bs).net = s.net := rfl
@[simp] theorem State.writeBytes_tag (s : State) (cell : Nat) (bs : List Byte) : (s.writeBytes cell bs).tag = s.tag := rfl
@[simp] theorem State.writeBytes_images (s : State) (cell : Nat) (bs : List Byte) : (s.writeBytes cell bs).images = s.images := rfl
@[simp] theorem State.writeBytes_units (s : State) (cell : Nat) (bs : List Byte) : (s.writeBytes cell bs).units = s.units := rfl
@[simp] theorem State.writeBytes_tlb (s : State) (cell : Nat) (bs : List Byte) : (s.writeBytes cell bs).tlb = s.tlb := rfl
@[simp] theorem State.writeBytes_mgmt (s : State) (cell : Nat) (bs : List Byte) : (s.writeBytes cell bs).mgmt = s.mgmt := rfl
@[simp] theorem State.writeBytes_acct (s : State) (cell : Nat) (bs : List Byte) : (s.writeBytes cell bs).acct = s.acct := rfl
@[simp] theorem State.writeBytes_out (s : State) (cell : Nat) (bs : List Byte) : (s.writeBytes cell bs).out = s.out := rfl
@[simp] theorem State.writeBytes_flash (s : State) (cell : Nat) (bs : List Byte) : (s.writeBytes cell bs).flash = s.flash := rfl
@[simp] theorem State.writeBytes_corrected (s : State) (cell : Nat) (bs : List Byte) : (s.writeBytes cell bs).corrected = s.corrected := rfl
@[simp] theorem State.writeBytes_running (s : State) (cell : Nat) (bs : List Byte) : (s.writeBytes cell bs).running = s.running := rfl
@[simp] theorem State.writeBytes_agenda (s : State) (cell : Nat) (bs : List Byte) : (s.writeBytes cell bs).agenda = s.agenda := rfl
@[simp] theorem State.writeBytes_iss (s : State) (cell : Nat) (bs : List Byte) : (s.writeBytes cell bs).iss = s.iss := rfl
@[simp] theorem State.writeBytes_free (s : State) (cell : Nat) (bs : List Byte) : (s.writeBytes cell bs).free = s.free := rfl

/-! ### setHome -/

@[simp] theorem State.setHome_clk (s : State) (part line : Nat) (h : HomeLine) : (s.setHome part line h).clk = s.clk := rfl
@[simp] theorem State.setHome_mem (s : State) (part line : Nat) (h : HomeLine) : (s.setHome part line h).mem = s.mem := rfl
@[simp] theorem State.setHome_poison (s : State) (part line : Nat) (h : HomeLine) : (s.setHome part line h).poison = s.poison := rfl
@[simp] theorem State.setHome_ue (s : State) (part line : Nat) (h : HomeLine) : (s.setHome part line h).ue = s.ue := rfl
@[simp] theorem State.setHome_ce (s : State) (part line : Nat) (h : HomeLine) : (s.setHome part line h).ce = s.ce := rfl
@[simp] theorem State.setHome_mreg (s : State) (part line : Nat) (h : HomeLine) : (s.setHome part line h).mreg = s.mreg := rfl
@[simp] theorem State.setHome_groups (s : State) (part line : Nat) (h : HomeLine) : (s.setHome part line h).groups = s.groups := rfl
@[simp] theorem State.setHome_teams (s : State) (part line : Nat) (h : HomeLine) : (s.setHome part line h).teams = s.teams := rfl
@[simp] theorem State.setHome_ctxs (s : State) (part line : Nat) (h : HomeLine) : (s.setHome part line h).ctxs = s.ctxs := rfl
@[simp] theorem State.setHome_parts (s : State) (part line : Nat) (h : HomeLine) : (s.setHome part line h).parts = s.parts := rfl
@[simp] theorem State.setHome_chans (s : State) (part line : Nat) (h : HomeLine) : (s.setHome part line h).chans = s.chans := rfl
@[simp] theorem State.setHome_clusters (s : State) (part line : Nat) (h : HomeLine) : (s.setHome part line h).clusters = s.clusters := rfl
@[simp] theorem State.setHome_homes (s : State) (part line : Nat) (h : HomeLine) : (s.setHome part line h).homes = s.homes.put (homeKey part line) h := rfl
@[simp] theorem State.setHome_replicas (s : State) (part line : Nat) (h : HomeLine) : (s.setHome part line h).replicas = s.replicas := rfl
@[simp] theorem State.setHome_net (s : State) (part line : Nat) (h : HomeLine) : (s.setHome part line h).net = s.net := rfl
@[simp] theorem State.setHome_tag (s : State) (part line : Nat) (h : HomeLine) : (s.setHome part line h).tag = s.tag := rfl
@[simp] theorem State.setHome_images (s : State) (part line : Nat) (h : HomeLine) : (s.setHome part line h).images = s.images := rfl
@[simp] theorem State.setHome_units (s : State) (part line : Nat) (h : HomeLine) : (s.setHome part line h).units = s.units := rfl
@[simp] theorem State.setHome_tlb (s : State) (part line : Nat) (h : HomeLine) : (s.setHome part line h).tlb = s.tlb := rfl
@[simp] theorem State.setHome_mgmt (s : State) (part line : Nat) (h : HomeLine) : (s.setHome part line h).mgmt = s.mgmt := rfl
@[simp] theorem State.setHome_acct (s : State) (part line : Nat) (h : HomeLine) : (s.setHome part line h).acct = s.acct := rfl
@[simp] theorem State.setHome_out (s : State) (part line : Nat) (h : HomeLine) : (s.setHome part line h).out = s.out := rfl
@[simp] theorem State.setHome_flash (s : State) (part line : Nat) (h : HomeLine) : (s.setHome part line h).flash = s.flash := rfl
@[simp] theorem State.setHome_corrected (s : State) (part line : Nat) (h : HomeLine) : (s.setHome part line h).corrected = s.corrected := rfl
@[simp] theorem State.setHome_running (s : State) (part line : Nat) (h : HomeLine) : (s.setHome part line h).running = s.running := rfl
@[simp] theorem State.setHome_agenda (s : State) (part line : Nat) (h : HomeLine) : (s.setHome part line h).agenda = s.agenda := rfl
@[simp] theorem State.setHome_iss (s : State) (part line : Nat) (h : HomeLine) : (s.setHome part line h).iss = s.iss := rfl
@[simp] theorem State.setHome_free (s : State) (part line : Nat) (h : HomeLine) : (s.setHome part line h).free = s.free := rfl

/-! ### setCluster -/

@[simp] theorem State.setCluster_clk (s : State) (c : Nat) (x : Cluster) : (s.setCluster c x).clk = s.clk := rfl
@[simp] theorem State.setCluster_mem (s : State) (c : Nat) (x : Cluster) : (s.setCluster c x).mem = s.mem := rfl
@[simp] theorem State.setCluster_poison (s : State) (c : Nat) (x : Cluster) : (s.setCluster c x).poison = s.poison := rfl
@[simp] theorem State.setCluster_ue (s : State) (c : Nat) (x : Cluster) : (s.setCluster c x).ue = s.ue := rfl
@[simp] theorem State.setCluster_ce (s : State) (c : Nat) (x : Cluster) : (s.setCluster c x).ce = s.ce := rfl
@[simp] theorem State.setCluster_mreg (s : State) (c : Nat) (x : Cluster) : (s.setCluster c x).mreg = s.mreg := rfl
@[simp] theorem State.setCluster_groups (s : State) (c : Nat) (x : Cluster) : (s.setCluster c x).groups = s.groups := rfl
@[simp] theorem State.setCluster_teams (s : State) (c : Nat) (x : Cluster) : (s.setCluster c x).teams = s.teams := rfl
@[simp] theorem State.setCluster_ctxs (s : State) (c : Nat) (x : Cluster) : (s.setCluster c x).ctxs = s.ctxs := rfl
@[simp] theorem State.setCluster_parts (s : State) (c : Nat) (x : Cluster) : (s.setCluster c x).parts = s.parts := rfl
@[simp] theorem State.setCluster_chans (s : State) (c : Nat) (x : Cluster) : (s.setCluster c x).chans = s.chans := rfl
@[simp] theorem State.setCluster_clusters (s : State) (c : Nat) (x : Cluster) : (s.setCluster c x).clusters = s.clusters.put c x := rfl
@[simp] theorem State.setCluster_homes (s : State) (c : Nat) (x : Cluster) : (s.setCluster c x).homes = s.homes := rfl
@[simp] theorem State.setCluster_replicas (s : State) (c : Nat) (x : Cluster) : (s.setCluster c x).replicas = s.replicas := rfl
@[simp] theorem State.setCluster_net (s : State) (c : Nat) (x : Cluster) : (s.setCluster c x).net = s.net := rfl
@[simp] theorem State.setCluster_tag (s : State) (c : Nat) (x : Cluster) : (s.setCluster c x).tag = s.tag := rfl
@[simp] theorem State.setCluster_images (s : State) (c : Nat) (x : Cluster) : (s.setCluster c x).images = s.images := rfl
@[simp] theorem State.setCluster_units (s : State) (c : Nat) (x : Cluster) : (s.setCluster c x).units = s.units := rfl
@[simp] theorem State.setCluster_tlb (s : State) (c : Nat) (x : Cluster) : (s.setCluster c x).tlb = s.tlb := rfl
@[simp] theorem State.setCluster_mgmt (s : State) (c : Nat) (x : Cluster) : (s.setCluster c x).mgmt = s.mgmt := rfl
@[simp] theorem State.setCluster_acct (s : State) (c : Nat) (x : Cluster) : (s.setCluster c x).acct = s.acct := rfl
@[simp] theorem State.setCluster_out (s : State) (c : Nat) (x : Cluster) : (s.setCluster c x).out = s.out := rfl
@[simp] theorem State.setCluster_flash (s : State) (c : Nat) (x : Cluster) : (s.setCluster c x).flash = s.flash := rfl
@[simp] theorem State.setCluster_corrected (s : State) (c : Nat) (x : Cluster) : (s.setCluster c x).corrected = s.corrected := rfl
@[simp] theorem State.setCluster_running (s : State) (c : Nat) (x : Cluster) : (s.setCluster c x).running = s.running := rfl
@[simp] theorem State.setCluster_agenda (s : State) (c : Nat) (x : Cluster) : (s.setCluster c x).agenda = s.agenda := rfl
@[simp] theorem State.setCluster_iss (s : State) (c : Nat) (x : Cluster) : (s.setCluster c x).iss = s.iss := rfl
@[simp] theorem State.setCluster_free (s : State) (c : Nat) (x : Cluster) : (s.setCluster c x).free = s.free := rfl

/-! ### setMunit -/

@[simp] theorem State.setMunit_clk (s : State) (stack pch : Nat) (u : MUnit) : (s.setMunit stack pch u).clk = s.clk := rfl
@[simp] theorem State.setMunit_mem (s : State) (stack pch : Nat) (u : MUnit) : (s.setMunit stack pch u).mem = s.mem := rfl
@[simp] theorem State.setMunit_poison (s : State) (stack pch : Nat) (u : MUnit) : (s.setMunit stack pch u).poison = s.poison := rfl
@[simp] theorem State.setMunit_ue (s : State) (stack pch : Nat) (u : MUnit) : (s.setMunit stack pch u).ue = s.ue := rfl
@[simp] theorem State.setMunit_ce (s : State) (stack pch : Nat) (u : MUnit) : (s.setMunit stack pch u).ce = s.ce := rfl
@[simp] theorem State.setMunit_mreg (s : State) (stack pch : Nat) (u : MUnit) : (s.setMunit stack pch u).mreg = s.mreg := rfl
@[simp] theorem State.setMunit_groups (s : State) (stack pch : Nat) (u : MUnit) : (s.setMunit stack pch u).groups = s.groups := rfl
@[simp] theorem State.setMunit_teams (s : State) (stack pch : Nat) (u : MUnit) : (s.setMunit stack pch u).teams = s.teams := rfl
@[simp] theorem State.setMunit_ctxs (s : State) (stack pch : Nat) (u : MUnit) : (s.setMunit stack pch u).ctxs = s.ctxs := rfl
@[simp] theorem State.setMunit_parts (s : State) (stack pch : Nat) (u : MUnit) : (s.setMunit stack pch u).parts = s.parts := rfl
@[simp] theorem State.setMunit_chans (s : State) (stack pch : Nat) (u : MUnit) : (s.setMunit stack pch u).chans = s.chans := rfl
@[simp] theorem State.setMunit_clusters (s : State) (stack pch : Nat) (u : MUnit) : (s.setMunit stack pch u).clusters = s.clusters := rfl
@[simp] theorem State.setMunit_homes (s : State) (stack pch : Nat) (u : MUnit) : (s.setMunit stack pch u).homes = s.homes := rfl
@[simp] theorem State.setMunit_replicas (s : State) (stack pch : Nat) (u : MUnit) : (s.setMunit stack pch u).replicas = s.replicas := rfl
@[simp] theorem State.setMunit_net (s : State) (stack pch : Nat) (u : MUnit) : (s.setMunit stack pch u).net = s.net := rfl
@[simp] theorem State.setMunit_tag (s : State) (stack pch : Nat) (u : MUnit) : (s.setMunit stack pch u).tag = s.tag := rfl
@[simp] theorem State.setMunit_images (s : State) (stack pch : Nat) (u : MUnit) : (s.setMunit stack pch u).images = s.images := rfl
@[simp] theorem State.setMunit_units (s : State) (stack pch : Nat) (u : MUnit) : (s.setMunit stack pch u).units = s.units.put (unitKey stack pch) u := rfl
@[simp] theorem State.setMunit_tlb (s : State) (stack pch : Nat) (u : MUnit) : (s.setMunit stack pch u).tlb = s.tlb := rfl
@[simp] theorem State.setMunit_mgmt (s : State) (stack pch : Nat) (u : MUnit) : (s.setMunit stack pch u).mgmt = s.mgmt := rfl
@[simp] theorem State.setMunit_acct (s : State) (stack pch : Nat) (u : MUnit) : (s.setMunit stack pch u).acct = s.acct := rfl
@[simp] theorem State.setMunit_out (s : State) (stack pch : Nat) (u : MUnit) : (s.setMunit stack pch u).out = s.out := rfl
@[simp] theorem State.setMunit_flash (s : State) (stack pch : Nat) (u : MUnit) : (s.setMunit stack pch u).flash = s.flash := rfl
@[simp] theorem State.setMunit_corrected (s : State) (stack pch : Nat) (u : MUnit) : (s.setMunit stack pch u).corrected = s.corrected := rfl
@[simp] theorem State.setMunit_running (s : State) (stack pch : Nat) (u : MUnit) : (s.setMunit stack pch u).running = s.running := rfl
@[simp] theorem State.setMunit_agenda (s : State) (stack pch : Nat) (u : MUnit) : (s.setMunit stack pch u).agenda = s.agenda := rfl
@[simp] theorem State.setMunit_iss (s : State) (stack pch : Nat) (u : MUnit) : (s.setMunit stack pch u).iss = s.iss := rfl
@[simp] theorem State.setMunit_free (s : State) (stack pch : Nat) (u : MUnit) : (s.setMunit stack pch u).free = s.free := rfl

/-! ### setChan -/

@[simp] theorem State.setChan_clk (s : State) (core n : Nat) (x : Channel) : (s.setChan core n x).clk = s.clk := rfl
@[simp] theorem State.setChan_mem (s : State) (core n : Nat) (x : Channel) : (s.setChan core n x).mem = s.mem := rfl
@[simp] theorem State.setChan_poison (s : State) (core n : Nat) (x : Channel) : (s.setChan core n x).poison = s.poison := rfl
@[simp] theorem State.setChan_ue (s : State) (core n : Nat) (x : Channel) : (s.setChan core n x).ue = s.ue := rfl
@[simp] theorem State.setChan_ce (s : State) (core n : Nat) (x : Channel) : (s.setChan core n x).ce = s.ce := rfl
@[simp] theorem State.setChan_mreg (s : State) (core n : Nat) (x : Channel) : (s.setChan core n x).mreg = s.mreg := rfl
@[simp] theorem State.setChan_groups (s : State) (core n : Nat) (x : Channel) : (s.setChan core n x).groups = s.groups := rfl
@[simp] theorem State.setChan_teams (s : State) (core n : Nat) (x : Channel) : (s.setChan core n x).teams = s.teams := rfl
@[simp] theorem State.setChan_ctxs (s : State) (core n : Nat) (x : Channel) : (s.setChan core n x).ctxs = s.ctxs := rfl
@[simp] theorem State.setChan_parts (s : State) (core n : Nat) (x : Channel) : (s.setChan core n x).parts = s.parts := rfl
@[simp] theorem State.setChan_chans (s : State) (core n : Nat) (x : Channel) : (s.setChan core n x).chans = s.chans.put (chanKey core n) x := rfl
@[simp] theorem State.setChan_clusters (s : State) (core n : Nat) (x : Channel) : (s.setChan core n x).clusters = s.clusters := rfl
@[simp] theorem State.setChan_homes (s : State) (core n : Nat) (x : Channel) : (s.setChan core n x).homes = s.homes := rfl
@[simp] theorem State.setChan_replicas (s : State) (core n : Nat) (x : Channel) : (s.setChan core n x).replicas = s.replicas := rfl
@[simp] theorem State.setChan_net (s : State) (core n : Nat) (x : Channel) : (s.setChan core n x).net = s.net := rfl
@[simp] theorem State.setChan_tag (s : State) (core n : Nat) (x : Channel) : (s.setChan core n x).tag = s.tag := rfl
@[simp] theorem State.setChan_images (s : State) (core n : Nat) (x : Channel) : (s.setChan core n x).images = s.images := rfl
@[simp] theorem State.setChan_units (s : State) (core n : Nat) (x : Channel) : (s.setChan core n x).units = s.units := rfl
@[simp] theorem State.setChan_tlb (s : State) (core n : Nat) (x : Channel) : (s.setChan core n x).tlb = s.tlb := rfl
@[simp] theorem State.setChan_mgmt (s : State) (core n : Nat) (x : Channel) : (s.setChan core n x).mgmt = s.mgmt := rfl
@[simp] theorem State.setChan_acct (s : State) (core n : Nat) (x : Channel) : (s.setChan core n x).acct = s.acct := rfl
@[simp] theorem State.setChan_out (s : State) (core n : Nat) (x : Channel) : (s.setChan core n x).out = s.out := rfl
@[simp] theorem State.setChan_flash (s : State) (core n : Nat) (x : Channel) : (s.setChan core n x).flash = s.flash := rfl
@[simp] theorem State.setChan_corrected (s : State) (core n : Nat) (x : Channel) : (s.setChan core n x).corrected = s.corrected := rfl
@[simp] theorem State.setChan_running (s : State) (core n : Nat) (x : Channel) : (s.setChan core n x).running = s.running := rfl
@[simp] theorem State.setChan_agenda (s : State) (core n : Nat) (x : Channel) : (s.setChan core n x).agenda = s.agenda := rfl
@[simp] theorem State.setChan_iss (s : State) (core n : Nat) (x : Channel) : (s.setChan core n x).iss = s.iss := rfl
@[simp] theorem State.setChan_free (s : State) (core n : Nat) (x : Channel) : (s.setChan core n x).free = s.free := rfl

/-! ### send -/

@[simp] theorem State.send_clk (s : State) (m : Msg) : (s.send m).clk = s.clk := rfl
@[simp] theorem State.send_mem (s : State) (m : Msg) : (s.send m).mem = s.mem := rfl
@[simp] theorem State.send_poison (s : State) (m : Msg) : (s.send m).poison = s.poison := rfl
@[simp] theorem State.send_ue (s : State) (m : Msg) : (s.send m).ue = s.ue := rfl
@[simp] theorem State.send_ce (s : State) (m : Msg) : (s.send m).ce = s.ce := rfl
@[simp] theorem State.send_mreg (s : State) (m : Msg) : (s.send m).mreg = s.mreg := rfl
@[simp] theorem State.send_groups (s : State) (m : Msg) : (s.send m).groups = s.groups := rfl
@[simp] theorem State.send_teams (s : State) (m : Msg) : (s.send m).teams = s.teams := rfl
@[simp] theorem State.send_ctxs (s : State) (m : Msg) : (s.send m).ctxs = s.ctxs := rfl
@[simp] theorem State.send_parts (s : State) (m : Msg) : (s.send m).parts = s.parts := rfl
@[simp] theorem State.send_chans (s : State) (m : Msg) : (s.send m).chans = s.chans := rfl
@[simp] theorem State.send_clusters (s : State) (m : Msg) : (s.send m).clusters = s.clusters := rfl
@[simp] theorem State.send_homes (s : State) (m : Msg) : (s.send m).homes = s.homes := rfl
@[simp] theorem State.send_replicas (s : State) (m : Msg) : (s.send m).replicas = s.replicas := rfl
@[simp] theorem State.send_net (s : State) (m : Msg) : (s.send m).net = s.net ++ [m] := rfl
@[simp] theorem State.send_tag (s : State) (m : Msg) : (s.send m).tag = s.tag := rfl
@[simp] theorem State.send_images (s : State) (m : Msg) : (s.send m).images = s.images := rfl
@[simp] theorem State.send_units (s : State) (m : Msg) : (s.send m).units = s.units := rfl
@[simp] theorem State.send_tlb (s : State) (m : Msg) : (s.send m).tlb = s.tlb := rfl
@[simp] theorem State.send_mgmt (s : State) (m : Msg) : (s.send m).mgmt = s.mgmt := rfl
@[simp] theorem State.send_acct (s : State) (m : Msg) : (s.send m).acct = s.acct := rfl
@[simp] theorem State.send_out (s : State) (m : Msg) : (s.send m).out = s.out := rfl
@[simp] theorem State.send_flash (s : State) (m : Msg) : (s.send m).flash = s.flash := rfl
@[simp] theorem State.send_corrected (s : State) (m : Msg) : (s.send m).corrected = s.corrected := rfl
@[simp] theorem State.send_running (s : State) (m : Msg) : (s.send m).running = s.running := rfl
@[simp] theorem State.send_agenda (s : State) (m : Msg) : (s.send m).agenda = s.agenda := rfl
@[simp] theorem State.send_iss (s : State) (m : Msg) : (s.send m).iss = s.iss := rfl
@[simp] theorem State.send_free (s : State) (m : Msg) : (s.send m).free = s.free := rfl

/-! ### setSlot -/

@[simp] theorem State.setSlot_clk (s : State) (core part o : Nat) (y : Slot) : (s.setSlot core part o y).clk = s.clk := rfl
@[simp] theorem State.setSlot_mem (s : State) (core part o : Nat) (y : Slot) : (s.setSlot core part o y).mem = s.mem := rfl
@[simp] theorem State.setSlot_poison (s : State) (core part o : Nat) (y : Slot) : (s.setSlot core part o y).poison = s.poison := rfl
@[simp] theorem State.setSlot_ue (s : State) (core part o : Nat) (y : Slot) : (s.setSlot core part o y).ue = s.ue := rfl
@[simp] theorem State.setSlot_ce (s : State) (core part o : Nat) (y : Slot) : (s.setSlot core part o y).ce = s.ce := rfl
@[simp] theorem State.setSlot_mreg (s : State) (core part o : Nat) (y : Slot) : (s.setSlot core part o y).mreg = s.mreg := rfl
@[simp] theorem State.setSlot_groups (s : State) (core part o : Nat) (y : Slot) : (s.setSlot core part o y).groups = s.groups := rfl
@[simp] theorem State.setSlot_teams (s : State) (core part o : Nat) (y : Slot) : (s.setSlot core part o y).teams = s.teams := rfl
@[simp] theorem State.setSlot_ctxs (s : State) (core part o : Nat) (y : Slot) : (s.setSlot core part o y).ctxs = s.ctxs := rfl
@[simp] theorem State.setSlot_chans (s : State) (core part o : Nat) (y : Slot) : (s.setSlot core part o y).chans = s.chans := rfl
@[simp] theorem State.setSlot_clusters (s : State) (core part o : Nat) (y : Slot) : (s.setSlot core part o y).clusters = s.clusters := rfl
@[simp] theorem State.setSlot_homes (s : State) (core part o : Nat) (y : Slot) : (s.setSlot core part o y).homes = s.homes := rfl
@[simp] theorem State.setSlot_replicas (s : State) (core part o : Nat) (y : Slot) : (s.setSlot core part o y).replicas = s.replicas := rfl
@[simp] theorem State.setSlot_net (s : State) (core part o : Nat) (y : Slot) : (s.setSlot core part o y).net = s.net := rfl
@[simp] theorem State.setSlot_tag (s : State) (core part o : Nat) (y : Slot) : (s.setSlot core part o y).tag = s.tag := rfl
@[simp] theorem State.setSlot_images (s : State) (core part o : Nat) (y : Slot) : (s.setSlot core part o y).images = s.images := rfl
@[simp] theorem State.setSlot_units (s : State) (core part o : Nat) (y : Slot) : (s.setSlot core part o y).units = s.units := rfl
@[simp] theorem State.setSlot_tlb (s : State) (core part o : Nat) (y : Slot) : (s.setSlot core part o y).tlb = s.tlb := rfl
@[simp] theorem State.setSlot_mgmt (s : State) (core part o : Nat) (y : Slot) : (s.setSlot core part o y).mgmt = s.mgmt := rfl
@[simp] theorem State.setSlot_acct (s : State) (core part o : Nat) (y : Slot) : (s.setSlot core part o y).acct = s.acct := rfl
@[simp] theorem State.setSlot_out (s : State) (core part o : Nat) (y : Slot) : (s.setSlot core part o y).out = s.out := rfl
@[simp] theorem State.setSlot_flash (s : State) (core part o : Nat) (y : Slot) : (s.setSlot core part o y).flash = s.flash := rfl
@[simp] theorem State.setSlot_corrected (s : State) (core part o : Nat) (y : Slot) : (s.setSlot core part o y).corrected = s.corrected := rfl
@[simp] theorem State.setSlot_running (s : State) (core part o : Nat) (y : Slot) : (s.setSlot core part o y).running = s.running := rfl
@[simp] theorem State.setSlot_agenda (s : State) (core part o : Nat) (y : Slot) : (s.setSlot core part o y).agenda = s.agenda := rfl
@[simp] theorem State.setSlot_iss (s : State) (core part o : Nat) (y : Slot) : (s.setSlot core part o y).iss = s.iss := rfl
@[simp] theorem State.setSlot_free (s : State) (core part o : Nat) (y : Slot) : (s.setSlot core part o y).free = s.free := rfl

/-! ### event -/

@[simp] theorem State.event_clk (s : State) (die src detail : Nat) (addr data : DWord) : (s.event die src detail addr data).clk = s.clk := rfl
@[simp] theorem State.event_mem (s : State) (die src detail : Nat) (addr data : DWord) : (s.event die src detail addr data).mem = s.mem := rfl
@[simp] theorem State.event_poison (s : State) (die src detail : Nat) (addr data : DWord) : (s.event die src detail addr data).poison = s.poison := rfl
@[simp] theorem State.event_ue (s : State) (die src detail : Nat) (addr data : DWord) : (s.event die src detail addr data).ue = s.ue := rfl
@[simp] theorem State.event_ce (s : State) (die src detail : Nat) (addr data : DWord) : (s.event die src detail addr data).ce = s.ce := rfl
@[simp] theorem State.event_mreg (s : State) (die src detail : Nat) (addr data : DWord) : (s.event die src detail addr data).mreg = s.mreg := rfl
@[simp] theorem State.event_groups (s : State) (die src detail : Nat) (addr data : DWord) : (s.event die src detail addr data).groups = s.groups := rfl
@[simp] theorem State.event_teams (s : State) (die src detail : Nat) (addr data : DWord) : (s.event die src detail addr data).teams = s.teams := rfl
@[simp] theorem State.event_ctxs (s : State) (die src detail : Nat) (addr data : DWord) : (s.event die src detail addr data).ctxs = s.ctxs := rfl
@[simp] theorem State.event_parts (s : State) (die src detail : Nat) (addr data : DWord) : (s.event die src detail addr data).parts = s.parts := rfl
@[simp] theorem State.event_chans (s : State) (die src detail : Nat) (addr data : DWord) : (s.event die src detail addr data).chans = s.chans := rfl
@[simp] theorem State.event_clusters (s : State) (die src detail : Nat) (addr data : DWord) : (s.event die src detail addr data).clusters = s.clusters := rfl
@[simp] theorem State.event_homes (s : State) (die src detail : Nat) (addr data : DWord) : (s.event die src detail addr data).homes = s.homes := rfl
@[simp] theorem State.event_replicas (s : State) (die src detail : Nat) (addr data : DWord) : (s.event die src detail addr data).replicas = s.replicas := rfl
@[simp] theorem State.event_net (s : State) (die src detail : Nat) (addr data : DWord) : (s.event die src detail addr data).net = s.net := rfl
@[simp] theorem State.event_tag (s : State) (die src detail : Nat) (addr data : DWord) : (s.event die src detail addr data).tag = s.tag := rfl
@[simp] theorem State.event_images (s : State) (die src detail : Nat) (addr data : DWord) : (s.event die src detail addr data).images = s.images := rfl
@[simp] theorem State.event_units (s : State) (die src detail : Nat) (addr data : DWord) : (s.event die src detail addr data).units = s.units := rfl
@[simp] theorem State.event_tlb (s : State) (die src detail : Nat) (addr data : DWord) : (s.event die src detail addr data).tlb = s.tlb := rfl
@[simp] theorem State.event_acct (s : State) (die src detail : Nat) (addr data : DWord) : (s.event die src detail addr data).acct = s.acct := rfl
@[simp] theorem State.event_out (s : State) (die src detail : Nat) (addr data : DWord) : (s.event die src detail addr data).out = s.out := rfl
@[simp] theorem State.event_flash (s : State) (die src detail : Nat) (addr data : DWord) : (s.event die src detail addr data).flash = s.flash := rfl
@[simp] theorem State.event_corrected (s : State) (die src detail : Nat) (addr data : DWord) : (s.event die src detail addr data).corrected = s.corrected := rfl
@[simp] theorem State.event_running (s : State) (die src detail : Nat) (addr data : DWord) : (s.event die src detail addr data).running = s.running := rfl
@[simp] theorem State.event_agenda (s : State) (die src detail : Nat) (addr data : DWord) : (s.event die src detail addr data).agenda = s.agenda := rfl
@[simp] theorem State.event_iss (s : State) (die src detail : Nat) (addr data : DWord) : (s.event die src detail addr data).iss = s.iss := rfl
@[simp] theorem State.event_free (s : State) (die src detail : Nat) (addr data : DWord) : (s.event die src detail addr data).free = s.free := rfl

/-! ### Registers -/

@[simp] theorem Arch.setV_s (a : Arch) (n : Nat) (r : VReg) : (a.setV n r).s = a.s := rfl
@[simp] theorem Arch.setV_sPend (a : Arch) (n : Nat) (r : VReg) : (a.setV n r).sPend = a.sPend := rfl
@[simp] theorem Arch.setV_p (a : Arch) (n : Nat) (r : VReg) : (a.setV n r).p = a.p := rfl
@[simp] theorem Arch.setV_fcr (a : Arch) (n : Nat) (r : VReg) : (a.setV n r).fcr = a.fcr := rfl
@[simp] theorem Arch.setV_fsr (a : Arch) (n : Nat) (r : VReg) : (a.setV n r).fsr = a.fsr := rfl
@[simp] theorem Arch.setV_dph (a : Arch) (n : Nat) (r : VReg) : (a.setV n r).dph = a.dph := rfl
@[simp] theorem Arch.setV_dirty (a : Arch) (n : Nat) (r : VReg) : (a.setV n r).dirty = a.dirty := rfl
@[simp] theorem Arch.setV_paths (a : Arch) (n : Nat) (r : VReg) : (a.setV n r).paths = a.paths := rfl
@[simp] theorem Arch.setPath_v (a : Arch) (i : Nat) (p : Path) : (a.setPath i p).v = a.v := rfl
@[simp] theorem Arch.setPath_s (a : Arch) (i : Nat) (p : Path) : (a.setPath i p).s = a.s := rfl
@[simp] theorem Arch.setPath_sPend (a : Arch) (i : Nat) (p : Path) : (a.setPath i p).sPend = a.sPend := rfl
@[simp] theorem Arch.setPath_p (a : Arch) (i : Nat) (p : Path) : (a.setPath i p).p = a.p := rfl
@[simp] theorem Arch.setPath_fcr (a : Arch) (i : Nat) (p : Path) : (a.setPath i p).fcr = a.fcr := rfl
@[simp] theorem Arch.setPath_fsr (a : Arch) (i : Nat) (p : Path) : (a.setPath i p).fsr = a.fsr := rfl
@[simp] theorem Arch.setPath_dph (a : Arch) (i : Nat) (p : Path) : (a.setPath i p).dph = a.dph := rfl
@[simp] theorem Arch.setPath_dirty (a : Arch) (i : Nat) (p : Path) : (a.setPath i p).dirty = a.dirty := rfl
@[simp] theorem Arch.editPath_v (a : Arch) (i : Nat) (f : Path → Path) : (a.editPath i f).v = a.v := rfl
@[simp] theorem Arch.editPath_s (a : Arch) (i : Nat) (f : Path → Path) : (a.editPath i f).s = a.s := rfl
@[simp] theorem Arch.editPath_sPend (a : Arch) (i : Nat) (f : Path → Path) : (a.editPath i f).sPend = a.sPend := rfl
@[simp] theorem Arch.editPath_p (a : Arch) (i : Nat) (f : Path → Path) : (a.editPath i f).p = a.p := rfl
@[simp] theorem Arch.editPath_fcr (a : Arch) (i : Nat) (f : Path → Path) : (a.editPath i f).fcr = a.fcr := rfl
@[simp] theorem Arch.editPath_fsr (a : Arch) (i : Nat) (f : Path → Path) : (a.editPath i f).fsr = a.fsr := rfl
@[simp] theorem Arch.editPath_dph (a : Arch) (i : Nat) (f : Path → Path) : (a.editPath i f).dph = a.dph := rfl
@[simp] theorem Arch.editPath_dirty (a : Arch) (i : Nat) (f : Path → Path) : (a.editPath i f).dirty = a.dirty := rfl
@[simp] theorem Arch.addFlags_v (a : Arch) (f : Flags) : (a.addFlags f).v = a.v := rfl
@[simp] theorem Arch.addFlags_s (a : Arch) (f : Flags) : (a.addFlags f).s = a.s := rfl
@[simp] theorem Arch.addFlags_sPend (a : Arch) (f : Flags) : (a.addFlags f).sPend = a.sPend := rfl
@[simp] theorem Arch.addFlags_p (a : Arch) (f : Flags) : (a.addFlags f).p = a.p := rfl
@[simp] theorem Arch.addFlags_fcr (a : Arch) (f : Flags) : (a.addFlags f).fcr = a.fcr := rfl
@[simp] theorem Arch.addFlags_dph (a : Arch) (f : Flags) : (a.addFlags f).dph = a.dph := rfl
@[simp] theorem Arch.addFlags_dirty (a : Arch) (f : Flags) : (a.addFlags f).dirty = a.dirty := rfl
@[simp] theorem Arch.addFlags_paths (a : Arch) (f : Flags) : (a.addFlags f).paths = a.paths := rfl
@[simp] theorem Arch.writeV_s (a : Arch) (n : Nat) (m : Mask) (w : Vector Word 32) : (a.writeV n m w).s = a.s := rfl
@[simp] theorem Arch.writeV_sPend (a : Arch) (n : Nat) (m : Mask) (w : Vector Word 32) : (a.writeV n m w).sPend = a.sPend := rfl
@[simp] theorem Arch.writeV_p (a : Arch) (n : Nat) (m : Mask) (w : Vector Word 32) : (a.writeV n m w).p = a.p := rfl
@[simp] theorem Arch.writeV_fcr (a : Arch) (n : Nat) (m : Mask) (w : Vector Word 32) : (a.writeV n m w).fcr = a.fcr := rfl
@[simp] theorem Arch.writeV_fsr (a : Arch) (n : Nat) (m : Mask) (w : Vector Word 32) : (a.writeV n m w).fsr = a.fsr := rfl
@[simp] theorem Arch.writeV_dph (a : Arch) (n : Nat) (m : Mask) (w : Vector Word 32) : (a.writeV n m w).dph = a.dph := rfl
@[simp] theorem Arch.writeV_paths (a : Arch) (n : Nat) (m : Mask) (w : Vector Word 32) : (a.writeV n m w).paths = a.paths := rfl
@[simp] theorem Arch.oweV_s (a : Arch) (n pos : Nat) (m : Mask) : (a.oweV n pos m).s = a.s := rfl
@[simp] theorem Arch.oweV_sPend (a : Arch) (n pos : Nat) (m : Mask) : (a.oweV n pos m).sPend = a.sPend := rfl
@[simp] theorem Arch.oweV_p (a : Arch) (n pos : Nat) (m : Mask) : (a.oweV n pos m).p = a.p := rfl
@[simp] theorem Arch.oweV_fcr (a : Arch) (n pos : Nat) (m : Mask) : (a.oweV n pos m).fcr = a.fcr := rfl
@[simp] theorem Arch.oweV_fsr (a : Arch) (n pos : Nat) (m : Mask) : (a.oweV n pos m).fsr = a.fsr := rfl
@[simp] theorem Arch.oweV_dph (a : Arch) (n pos : Nat) (m : Mask) : (a.oweV n pos m).dph = a.dph := rfl
@[simp] theorem Arch.oweV_paths (a : Arch) (n pos : Nat) (m : Mask) : (a.oweV n pos m).paths = a.paths := rfl
@[simp] theorem Arch.setS_v (a : Arch) (n : BitVec 6) (x : DWord) : (a.setS n x).v = a.v := by unfold Arch.setS; split <;> rfl
@[simp] theorem Arch.setS_p (a : Arch) (n : BitVec 6) (x : DWord) : (a.setS n x).p = a.p := by unfold Arch.setS; split <;> rfl
@[simp] theorem Arch.setS_fcr (a : Arch) (n : BitVec 6) (x : DWord) : (a.setS n x).fcr = a.fcr := by unfold Arch.setS; split <;> rfl
@[simp] theorem Arch.setS_fsr (a : Arch) (n : BitVec 6) (x : DWord) : (a.setS n x).fsr = a.fsr := by unfold Arch.setS; split <;> rfl
@[simp] theorem Arch.setS_dph (a : Arch) (n : BitVec 6) (x : DWord) : (a.setS n x).dph = a.dph := by unfold Arch.setS; split <;> rfl
@[simp] theorem Arch.setS_dirty (a : Arch) (n : BitVec 6) (x : DWord) : (a.setS n x).dirty = a.dirty := by unfold Arch.setS; split <;> rfl
@[simp] theorem Arch.setS_paths (a : Arch) (n : BitVec 6) (x : DWord) : (a.setS n x).paths = a.paths := by unfold Arch.setS; split <;> rfl
@[simp] theorem Arch.setP_v (a : Arch) (n : BitVec 6) (m x : Mask) : (a.setP n m x).v = a.v := by unfold Arch.setP; split <;> rfl
@[simp] theorem Arch.setP_s (a : Arch) (n : BitVec 6) (m x : Mask) : (a.setP n m x).s = a.s := by unfold Arch.setP; split <;> rfl
@[simp] theorem Arch.setP_sPend (a : Arch) (n : BitVec 6) (m x : Mask) : (a.setP n m x).sPend = a.sPend := by unfold Arch.setP; split <;> rfl
@[simp] theorem Arch.setP_fcr (a : Arch) (n : BitVec 6) (m x : Mask) : (a.setP n m x).fcr = a.fcr := by unfold Arch.setP; split <;> rfl
@[simp] theorem Arch.setP_fsr (a : Arch) (n : BitVec 6) (m x : Mask) : (a.setP n m x).fsr = a.fsr := by unfold Arch.setP; split <;> rfl
@[simp] theorem Arch.setP_dph (a : Arch) (n : BitVec 6) (m x : Mask) : (a.setP n m x).dph = a.dph := by unfold Arch.setP; split <;> rfl
@[simp] theorem Arch.setP_dirty (a : Arch) (n : BitVec 6) (m x : Mask) : (a.setP n m x).dirty = a.dirty := by unfold Arch.setP; split <;> rfl
@[simp] theorem Arch.setP_paths (a : Arch) (n : BitVec 6) (m x : Mask) : (a.setP n m x).paths = a.paths := by unfold Arch.setP; split <;> rfl

@[simp] theorem Arch.editPaths_v (a : Arch) (is : List Nat) (f : Path → Path) : (a.editPaths is f).v = a.v := by
  induction is generalizing a with
  | nil => rfl
  | cons i r ih => exact (ih (a.editPath i f)).trans (Arch.editPath_v a i f)
@[simp] theorem Arch.editPaths_s (a : Arch) (is : List Nat) (f : Path → Path) : (a.editPaths is f).s = a.s := by
  induction is generalizing a with
  | nil => rfl
  | cons i r ih => exact (ih (a.editPath i f)).trans (Arch.editPath_s a i f)
@[simp] theorem Arch.editPaths_sPend (a : Arch) (is : List Nat) (f : Path → Path) : (a.editPaths is f).sPend = a.sPend := by
  induction is generalizing a with
  | nil => rfl
  | cons i r ih => exact (ih (a.editPath i f)).trans (Arch.editPath_sPend a i f)
@[simp] theorem Arch.editPaths_p (a : Arch) (is : List Nat) (f : Path → Path) : (a.editPaths is f).p = a.p := by
  induction is generalizing a with
  | nil => rfl
  | cons i r ih => exact (ih (a.editPath i f)).trans (Arch.editPath_p a i f)
@[simp] theorem Arch.editPaths_fcr (a : Arch) (is : List Nat) (f : Path → Path) : (a.editPaths is f).fcr = a.fcr := by
  induction is generalizing a with
  | nil => rfl
  | cons i r ih => exact (ih (a.editPath i f)).trans (Arch.editPath_fcr a i f)
@[simp] theorem Arch.editPaths_fsr (a : Arch) (is : List Nat) (f : Path → Path) : (a.editPaths is f).fsr = a.fsr := by
  induction is generalizing a with
  | nil => rfl
  | cons i r ih => exact (ih (a.editPath i f)).trans (Arch.editPath_fsr a i f)
@[simp] theorem Arch.editPaths_dph (a : Arch) (is : List Nat) (f : Path → Path) : (a.editPaths is f).dph = a.dph := by
  induction is generalizing a with
  | nil => rfl
  | cons i r ih => exact (ih (a.editPath i f)).trans (Arch.editPath_dph a i f)
@[simp] theorem Arch.editPaths_dirty (a : Arch) (is : List Nat) (f : Path → Path) : (a.editPaths is f).dirty = a.dirty := by
  induction is generalizing a with
  | nil => rfl
  | cons i r ih => exact (ih (a.editPath i f)).trans (Arch.editPath_dirty a i f)

@[simp] theorem Arch.supplyV_s (a : Arch) (n pos : Nat) (m : Mask) (w : Vector Word 32) : (a.supplyV n pos m w).s = a.s := by
  unfold Arch.supplyV; dsimp only; split <;> rfl
@[simp] theorem Arch.supplyV_sPend (a : Arch) (n pos : Nat) (m : Mask) (w : Vector Word 32) : (a.supplyV n pos m w).sPend = a.sPend := by
  unfold Arch.supplyV; dsimp only; split <;> rfl
@[simp] theorem Arch.supplyV_p (a : Arch) (n pos : Nat) (m : Mask) (w : Vector Word 32) : (a.supplyV n pos m w).p = a.p := by
  unfold Arch.supplyV; dsimp only; split <;> rfl
@[simp] theorem Arch.supplyV_fcr (a : Arch) (n pos : Nat) (m : Mask) (w : Vector Word 32) : (a.supplyV n pos m w).fcr = a.fcr := by
  unfold Arch.supplyV; dsimp only; split <;> rfl
@[simp] theorem Arch.supplyV_fsr (a : Arch) (n pos : Nat) (m : Mask) (w : Vector Word 32) : (a.supplyV n pos m w).fsr = a.fsr := by
  unfold Arch.supplyV; dsimp only; split <;> rfl
@[simp] theorem Arch.supplyV_dph (a : Arch) (n pos : Nat) (m : Mask) (w : Vector Word 32) : (a.supplyV n pos m w).dph = a.dph := by
  unfold Arch.supplyV; dsimp only; split <;> rfl
@[simp] theorem Arch.supplyV_dirty (a : Arch) (n pos : Nat) (m : Mask) (w : Vector Word 32) : (a.supplyV n pos m w).dirty = a.dirty := by
  unfold Arch.supplyV; dsimp only; split <;> rfl
@[simp] theorem Arch.supplyV_paths (a : Arch) (n pos : Nat) (m : Mask) (w : Vector Word 32) : (a.supplyV n pos m w).paths = a.paths := by
  unfold Arch.supplyV; dsimp only; split <;> rfl

end Sys2Proof.Machine
end

