-- ==== Sys2Proof/Laws/Tables.lean ====
section
/-!
SUPPORT. Tables and memory: what is read after what was written, and that every memory operation keeps the canonical
form.
-/
namespace Sys2Proof.Machine

namespace Table

@[simp] theorem find_nil {α : Type} (k : Nat) : find ([] : Table α) k = none := rfl

@[simp] theorem find_put_same {α : Type} (t : Table α) (k : Nat) (a : α) : find (put t k a) k = some a := by
  induction t with
  | nil => simp [put, find]
  | cons x r ih =>
    obtain ⟨j, b⟩ := x
    simp only [put]
    split
    · simp [find]
    · split
      · simp [find]
      · rename_i h1 h2
        have : ¬ j = k := fun h => h2 h.symm
        simp [find, this, ih]

theorem find_put_other {α : Type} (t : Table α) {k k' : Nat} (a : α) (h : k' ≠ k) : find (put t k a) k' = find t k' := by
  induction t with
  | nil => simp [put, find, Ne.symm h]
  | cons x r ih =>
    obtain ⟨j, b⟩ := x
    simp only [put]
    split
    · simp [find, Ne.symm h]
    · split
      · rename_i h1 h2
        subst h2
        simp [find, Ne.symm h]
      · simp only [find]; split
        · rfl
        · exact ih

@[simp] theorem get_put_same {α : Type} (t : Table α) (k : Nat) (a d : α) : get (put t k a) k d = a := by
  simp [get]

theorem get_put_other {α : Type} (t : Table α) {k k' : Nat} (a d : α) (h : k' ≠ k) : get (put t k a) k' d = get t k' d := by
  simp [get, find_put_other t a h]

theorem put_put_same {α : Type} (t : Table α) (k : Nat) (a b : α) : put (put t k a) k b = put t k b := by
  induction t with
  | nil => simp [put]
  | cons x r ih =>
    obtain ⟨j, c⟩ := x
    simp only [put]
    split
    · simp [put]
    · split
      · simp [put]
      · rename_i h1 h2
        simp [put, h1, h2, ih]

end Table

namespace Memory

/-- Addresses of a canonical memory lie above those before it. -/
theorem wf_cons {a : Nat} {b : Byte} {m : List Host.Cell} :
    wf ((a, b) :: m) = true ↔ b ≠ blank ∧ (∀ x ∈ m.head?, a < x.1) ∧ wf m = true := by
  cases m with
  | nil => simp [wf]
  | cons x r => obtain ⟨a', b'⟩ := x; simp [wf, and_assoc]

theorem wf_tail {x : Host.Cell} {m : List Host.Cell} (h : wf (x :: m) = true) : wf m = true := (wf_cons.mp h).2.2

theorem head_set {m : List Host.Cell} {k a : Nat} {b : Byte} (hw : wf m = true) (h : k < a)
    (hm : ∀ x ∈ m.head?, k < x.1) : ∀ x ∈ (set m a b).head?, k < x.1 := by
  cases m with
  | nil => simp only [set]; split <;> simp_all
  | cons y r =>
    obtain ⟨j, c⟩ := y
    have hj : k < j := hm (j, c) (by simp)
    have hr := (wf_cons.mp hw).2.1
    simp only [set]
    split
    · split <;> simp_all
    · split
      · split
        · exact fun x hx => hj.trans (hr x hx)
        · simp_all
      · simp_all

/-- Writing a byte keeps the canonical form. -/
theorem wf_set {m : List Host.Cell} (a : Nat) (b : Byte) (h : wf m = true) : wf (set m a b) = true := by
  induction m with
  | nil => simp only [set]; split <;> simp_all [wf]
  | cons y r ih =>
    obtain ⟨j, c⟩ := y
    obtain ⟨hc, hr, hw⟩ := wf_cons.mp h
    simp only [set]
    split
    · split
      · exact h
      · rename_i h1 h2
        exact wf_cons.mpr ⟨h2, by simpa using h1, h⟩
    · split
      · split
        · exact hw
        · rename_i h1 h2 h3
          exact wf_cons.mpr ⟨h3, fun x hx => h2 ▸ hr x hx, hw⟩
      · rename_i h1 h2
        exact wf_cons.mpr ⟨hc, head_set hw (by omega) hr, ih hw⟩

/-- Writing bytes keeps the canonical form. -/
theorem wf_setBytes {m : List Host.Cell} (a : Nat) (bs : List Byte) (h : wf m = true) : wf (setBytes m a bs) = true := by
  induction bs generalizing m a with
  | nil => exact h
  | cons b r ih => exact ih (a + 1) (wf_set a b h)

/-- Dropping cells keeps the canonical form. -/
theorem wf_filter {m : List Host.Cell} (p : Host.Cell → Bool) (h : wf m = true) : wf (m.filter p) = true := by
  have key : ∀ (m : List Host.Cell) (k : Nat), wf m = true → (∀ x ∈ m.head?, k < x.1) →
      wf (m.filter p) = true ∧ ∀ x ∈ (m.filter p).head?, k < x.1 := by
    intro m
    induction m with
    | nil => intro k _ _; simp [wf]
    | cons y r ih =>
      intro k hw hk
      obtain ⟨hb, hr, hw'⟩ := wf_cons.mp hw
      obtain ⟨w1, w2⟩ := ih y.1 hw' hr
      have hky : k < y.1 := hk y (by simp)
      by_cases hp : p y = true
      · rw [List.filter_cons_of_pos hp]
        exact ⟨wf_cons.mpr ⟨hb, w2, w1⟩, fun x hx => by simp only [List.head?_cons, Option.mem_def, Option.some.injEq] at hx; exact hx ▸ hky⟩
      · rw [List.filter_cons_of_neg hp]
        exact ⟨w1, fun x hx => hky.trans (w2 x hx)⟩
  cases m with
  | nil => simp [wf]
  | cons y r =>
    obtain ⟨hb, hr, hw'⟩ := wf_cons.mp h
    obtain ⟨w1, w2⟩ := key r y.1 hw' hr
    by_cases hp : p y = true
    · rw [List.filter_cons_of_pos hp]; exact wf_cons.mpr ⟨hb, w2, w1⟩
    · rw [List.filter_cons_of_neg hp]; exact w1

/-- An address below every listed one reads as an unlisted address does. -/
theorem byte_below {m : List Host.Cell} {a : Nat} (hw : wf m = true) (h : ∀ x ∈ m.head?, a < x.1) : byte m a = blank := by
  induction m with
  | nil => rfl
  | cons y r ih =>
    obtain ⟨j, c⟩ := y
    obtain ⟨-, hr, hw'⟩ := wf_cons.mp hw
    have hj : a < j := h (j, c) (by simp)
    have : ¬ j = a := by omega
    simp only [byte, this, if_false]
    exact ih hw' fun x hx => hj.trans (hr x hx)

/-- A byte that has been written is read back. -/
theorem byte_set_same {m : List Host.Cell} (a : Nat) (b : Byte) (h : wf m = true) : byte (set m a b) a = b := by
  induction m with
  | nil => simp only [set]; split <;> simp_all [byte]
  | cons y r ih =>
    obtain ⟨j, c⟩ := y
    obtain ⟨hc, hr, hw⟩ := wf_cons.mp h
    simp only [set]
    split
    · split
      · rename_i h1 h2
        rw [h2]; exact byte_below h (by simpa using h1)
      · simp [byte]
    · split
      · split
        · rename_i h1 h2 h3
          rw [h3]; exact byte_below hw (h2 ▸ hr)
        · simp [byte]
      · rename_i h1 h2
        have : ¬ j = a := fun e => h2 e.symm
        simp only [byte, this, if_false]
        exact ih hw

/-- Every other byte stands. -/
theorem byte_set_other {m : List Host.Cell} {a a' : Nat} (b : Byte) (h : a' ≠ a) : byte (set m a b) a' = byte m a' := by
  induction m with
  | nil => simp only [set]; split <;> simp [byte, Ne.symm h]
  | cons y r ih =>
    obtain ⟨j, c⟩ := y
    simp only [set]
    split
    · split
      · rfl
      · simp [byte, Ne.symm h]
    · split
      · rename_i h1 h2
        subst h2
        split <;> simp [byte, Ne.symm h]
      · simp only [byte]; split
        · rfl
        · exact ih

/-- Bytes outside those written stand. -/
theorem byte_setBytes_other {m : List Host.Cell} {a a' : Nat} {bs : List Byte} (h : a' < a ∨ a + bs.length ≤ a') :
    byte (setBytes m a bs) a' = byte m a' := by
  induction bs generalizing m a with
  | nil => rfl
  | cons b r ih =>
    simp only [List.length_cons] at h
    simp only [setBytes]
    rw [ih (by omega), byte_set_other b (by omega)]

/-- Bytes that have been written are read back. -/
theorem byte_setBytes_same {m : List Host.Cell} {a i : Nat} {bs : List Byte} (hw : wf m = true) (h : i < bs.length) :
    byte (setBytes m a bs) (a + i) = bs[i] := by
  induction bs generalizing m a i with
  | nil => simp at h
  | cons b r ih =>
    simp only [setBytes]
    cases i with
    | zero =>
      have := byte_setBytes_other (m := set m a b) (a := a + 1) (a' := a) (bs := r) (Or.inl (by omega))
      exact this.trans (byte_set_same a b hw)
    | succ k =>
      have := ih (m := set m a b) (a := a + 1) (i := k) (wf_set a b hw) (by simpa using h)
      rw [show a + (k + 1) = a + 1 + k by omega]
      simpa using this

end Memory

end Sys2Proof.Machine
end

