-- ==== Sys2Proof/Safety.lean ====
section
/-!
DEFINITION. The terms in which the claims of this model are stated: when an instruction issues, what it means that only
its group changed and its stream moved on, what a write of a register is, and the forms of the opcode table by shape.
-/
namespace Sys2Proof.Safety

open Sys2Proof.Machine

/-! ### Issuing -/

/-- `c` is the stream of the issue slot, its group, and the registers its sources are read from (03 R52). -/
def Issues (s : State) (c : Ctx) : Prop := s.issueCtx = some c

/-- The decode checks pass: the form's feature bit is set for the group, and a privileged form is in privileged mode
(03 R75, R76). -/
def Allowed (s : State) (c : Ctx) (feat : Option Nat) (priv : Bool) : Prop :=
  (∀ b, feat = some b → (s.features c.iss.core c.g).getLsbD b = true) ∧ (priv = true → isRanene c.iss.core = true)

/-! ### What an instruction changes -/

/-- Of the machine only the issuing stream's group changed, to g; the stream is out of the issue slot, and of the streams
that are issuing only those of this group can have left. Every byte of memory is as it was. -/
structure GroupOnly (c : Ctx) (s t : State) (g : Group) : Prop where
  here : t.group c.iss.core c.iss.grp = some g
  others : ∀ k, k ≠ groupKey c.iss.core c.iss.grp → t.groups.find k = s.groups.find k
  rest : t = { s with groups := t.groups, running := t.running, iss := none }
  runs : ∀ r, (r.1 ≠ c.iss.core ∨ r.2.1 ≠ c.iss.grp) → (r ∈ t.running ↔ r ∈ s.running)
  bytes : ∀ a, Memory.byte t.mem a = Memory.byte s.mem a

/-- An entry of the retire window whose instruction is at `pos`, with the registers after that instruction. -/
def Entry.withAfter (e : Entry) (pos : Nat) (a : Arch) : Entry := if e.pos = pos then { e with after := a } else e

/-- The group after an instruction that leaves the registers `a` and adds `es` to the retire window: the stream has moved
past the instruction, and its position in program order is used (03 R51, 08 R211). -/
def groupAfter (c : Ctx) (a : Arch) (es : List Entry) : Group :=
  { c.g with arch := c.advanceArch a, seq := c.g.seq + 1,
             rob := (c.g.rob ++ es).map fun e => Entry.withAfter e c.g.seq (c.advanceArch a) }

/-- The instruction answers a next state, in which only the issuing group changed: its registers are `a`, `es` joined the
retire window, and the stream has moved on. -/
def Ends (i : Instr) (s : State) (c : Ctx) (a : Arch) (es : List Entry) : Prop :=
  ∃ t, exec i s = .next t ∧ GroupOnly c s t (groupAfter c a es)

/-- Between two states only what translating addresses leaves behind differs: cached translations, the count of corrected errors
and events of unbacked lines (15 R384; 04 R86, R87). -/
def Touches (s u : State) : Prop :=
  u = { s with tlb := u.tlb, corrected := u.corrected, mgmt := { s.mgmt with evWait := u.mgmt.evWait } }

/-- As `Ends`, from the machine u that translating its addresses leaves. -/
def EndsFrom (i : Instr) (s u : State) (c : Ctx) (a : Arch) (es : List Entry) : Prop :=
  Touches s u ∧ ∃ t, exec i s = .next t ∧ GroupOnly c u t (groupAfter c a es)

/-- One scalar register is written: s0 stays 0 (03 Table 03-5), every other register of the group is as it was. -/
structure WritesS (a b : Arch) (d : BitVec 6) (x : DWord) : Prop where
  value : b.sreg d = if d = 0 then 0 else x
  others : ∀ n, n ≠ d → b.sreg n = a.sreg n
  pend : b.sPend = if d = 0 then a.sPend else a.sPend.filter fun q => q.1 != d.toNat
  rest : b = { a with s := b.s, sPend := b.sPend }

/-- The lanes of m of one predicate register are written: p0 reads all ones (03 Table 03-5), every other lane and every
other register of the group is as it was. -/
structure WritesP (a b : Arch) (d : BitVec 6) (m x : Mask) : Prop where
  lanes : ∀ l, l < 32 →
    (b.preg d).getLsbD l = if d = 0 then true else if m.getLsbD l then x.getLsbD l else (a.preg d).getLsbD l
  others : ∀ n, n ≠ d → b.preg n = a.preg n
  rest : b = { a with p := b.p }

/-- The lanes of m of one vector register are written; they are owed no more, and the register is dirty (08 R200). Every
other lane and every other register of the group is as it was. -/
structure WritesV (a b : Arch) (n : Nat) (m : Mask) (w : Nat → Word) : Prop where
  lanes : ∀ l, l < 32 → (b.vreg n).lane l = if m.getLsbD l then w l else (a.vreg n).lane l
  owed : (b.vreg n).prods = disown (a.vreg n).prods m
  place : b.vreg n = { a.vreg n with lanes := (b.vreg n).lanes, prods := (b.vreg n).prods }
  others : ∀ k, k ≠ n → b.vreg k = a.vreg k
  dirty : b.dirty = a.dirty ||| ((1 : BitVec 64) <<< n)
  rest : b = { a with v := b.v, dirty := b.dirty }

/-- A scalar source is x: no LDU still owes it (07 R180), and s0 reads 0. -/
def ReadsS (c : Ctx) (n : BitVec 6) (x : DWord) : Prop :=
  (n = 0 ∨ ∀ q ∈ c.src.sPend, q.1 ≠ n.toNat) ∧ x = c.src.sreg n

/-- Source B of a scalar form: a register, which an EXT.IMM replaces, or a field that is itself the immediate
(03 R57, R64). -/
inductive ScalarSrc where
  | ofB (q : Quals) (b : BitVec 6)
  | imm (x : DWord)
  deriving DecidableEq, Repr

def ScalarSrc.Reads (c : Ctx) (x : DWord) : ScalarSrc → Prop
  | .ofB q b => match Quals.imm? q with
    | some v => x = v.signExtend 64
    | none => ReadsS c b x
  | .imm y => x = y

/-! ### The forms of the opcode table, by shape -/

/-- A form of SALU, SALUI: the operation, the qualifiers, s[D], s[A] and the source B. -/
structure ScalarForm (α : Type) where
  o : α
  q : Quals
  d : BitVec 6
  a : BitVec 6
  b : ScalarSrc

/-- SALU and SALUI (03 Table 03-10, 09 R233). -/
def scalarAluForm (i : Instr) : Option (ScalarForm AluOp) :=
  match i with
  | .sadd q d a b => some ⟨.add, q, d, a, .ofB q b⟩
  | .ssub q d a b => some ⟨.sub, q, d, a, .ofB q b⟩
  | .smul q d a b => some ⟨.mul, q, d, a, .ofB q b⟩
  | .smulhi q d a b => some ⟨.mulhi, q, d, a, .ofB q b⟩
  | .smulhu q d a b => some ⟨.mulhu, q, d, a, .ofB q b⟩
  | .sand q d a b => some ⟨.and, q, d, a, .ofB q b⟩
  | .sor q d a b => some ⟨.or, q, d, a, .ofB q b⟩
  | .sxor q d a b => some ⟨.xor, q, d, a, .ofB q b⟩
  | .sandn q d a b => some ⟨.andn, q, d, a, .ofB q b⟩
  | .sshl q d a b => some ⟨.shl, q, d, a, .ofB q b⟩
  | .sshr q d a b => some ⟨.shr, q, d, a, .ofB q b⟩
  | .ssar q d a b => some ⟨.sar, q, d, a, .ofB q b⟩
  | .smin q d a b => some ⟨.min, q, d, a, .ofB q b⟩
  | .smax q d a b => some ⟨.max, q, d, a, .ofB q b⟩
  | .sminu q d a b => some ⟨.minu, q, d, a, .ofB q b⟩
  | .smaxu q d a b => some ⟨.maxu, q, d, a, .ofB q b⟩
  | .saddImm6 q d a i => some ⟨.add, q, d, a, .imm (i.signExtend 64)⟩
  | .ssubImm6 q d a i => some ⟨.sub, q, d, a, .imm (i.signExtend 64)⟩
  | .smulImm6 q d a i => some ⟨.mul, q, d, a, .imm (i.signExtend 64)⟩
  | .smulhiImm6 q d a i => some ⟨.mulhi, q, d, a, .imm (i.signExtend 64)⟩
  | .smulhuImm6 q d a i => some ⟨.mulhu, q, d, a, .imm (i.signExtend 64)⟩
  | .sandImm6 q d a i => some ⟨.and, q, d, a, .imm (i.signExtend 64)⟩
  | .sorImm6 q d a i => some ⟨.or, q, d, a, .imm (i.signExtend 64)⟩
  | .sxorImm6 q d a i => some ⟨.xor, q, d, a, .imm (i.signExtend 64)⟩
  | .sandnImm6 q d a i => some ⟨.andn, q, d, a, .imm (i.signExtend 64)⟩
  | .sshlImm6 q d a i => some ⟨.shl, q, d, a, .imm (i.signExtend 64)⟩
  | .sshrImm6 q d a i => some ⟨.shr, q, d, a, .imm (i.signExtend 64)⟩
  | .ssarImm6 q d a i => some ⟨.sar, q, d, a, .imm (i.signExtend 64)⟩
  | .sminImm6 q d a i => some ⟨.min, q, d, a, .imm (i.signExtend 64)⟩
  | .smaxImm6 q d a i => some ⟨.max, q, d, a, .imm (i.signExtend 64)⟩
  | .sminuImm6 q d a i => some ⟨.minu, q, d, a, .imm (i.signExtend 64)⟩
  | .smaxuImm6 q d a i => some ⟨.maxu, q, d, a, .imm (i.signExtend 64)⟩
  | _ => none

/-- SCMP (09 R234). -/
def scalarCmpForm (i : Instr) : Option (ScalarForm SCond) :=
  match i with
  | .scmpEq q d a b => some ⟨.eq, q, d, a, .ofB q b⟩
  | .scmpNe q d a b => some ⟨.ne, q, d, a, .ofB q b⟩
  | .scmpLt q d a b => some ⟨.lt, q, d, a, .ofB q b⟩
  | .scmpLe q d a b => some ⟨.le, q, d, a, .ofB q b⟩
  | .scmpLtu q d a b => some ⟨.ltu, q, d, a, .ofB q b⟩
  | .scmpLeu q d a b => some ⟨.leu, q, d, a, .ofB q b⟩
  | .scmpBt q d a b => some ⟨.bt, q, d, a, .ofB q b⟩
  | _ => none

/-- A lane-wise form with a vector destination: the operation, the qualifiers, the fields D, A, B and C, the immediate
that stands for B, and the feature bit the form needs. -/
structure LaneForm where
  o : LaneOp
  q : Quals
  d : BitVec 6
  a : BitVec 6
  b : BitVec 6
  x : BitVec 6
  imm : Option Word
  feat : Option Nat

/-- The lane-wise forms under their guard: VALU, VALUI, VALU2, VMOV, FPU, FPK, FMA, SPC, CVT, PACK and LANEID. -/
def laneForm (i : Instr) : Option LaneForm :=
  match i with
  | .iadd q d a b => some ⟨(.alu .add), q, d, a, b, 0, (Quals.immV q), none⟩
  | .isub q d a b => some ⟨(.alu .sub), q, d, a, b, 0, (Quals.immV q), none⟩
  | .imul q d a b => some ⟨(.alu .mul), q, d, a, b, 0, (Quals.immV q), none⟩
  | .imulhi q d a b => some ⟨(.alu .mulhi), q, d, a, b, 0, (Quals.immV q), none⟩
  | .imulhu q d a b => some ⟨(.alu .mulhu), q, d, a, b, 0, (Quals.immV q), none⟩
  | .and q d a b => some ⟨(.alu .and), q, d, a, b, 0, (Quals.immV q), none⟩
  | .or q d a b => some ⟨(.alu .or), q, d, a, b, 0, (Quals.immV q), none⟩
  | .xor q d a b => some ⟨(.alu .xor), q, d, a, b, 0, (Quals.immV q), none⟩
  | .andn q d a b => some ⟨(.alu .andn), q, d, a, b, 0, (Quals.immV q), none⟩
  | .shl q d a b => some ⟨(.alu .shl), q, d, a, b, 0, (Quals.immV q), none⟩
  | .shr q d a b => some ⟨(.alu .shr), q, d, a, b, 0, (Quals.immV q), none⟩
  | .sar q d a b => some ⟨(.alu .sar), q, d, a, b, 0, (Quals.immV q), none⟩
  | .imin q d a b => some ⟨(.alu .min), q, d, a, b, 0, (Quals.immV q), none⟩
  | .imax q d a b => some ⟨(.alu .max), q, d, a, b, 0, (Quals.immV q), none⟩
  | .iminu q d a b => some ⟨(.alu .minu), q, d, a, b, 0, (Quals.immV q), none⟩
  | .imaxu q d a b => some ⟨(.alu .maxu), q, d, a, b, 0, (Quals.immV q), none⟩
  | .iaddImm6 q d a i => some ⟨(.alu .add), q, d, a, 0, 0, (some (imm6V i)), none⟩
  | .isubImm6 q d a i => some ⟨(.alu .sub), q, d, a, 0, 0, (some (imm6V i)), none⟩
  | .imulImm6 q d a i => some ⟨(.alu .mul), q, d, a, 0, 0, (some (imm6V i)), none⟩
  | .imulhiImm6 q d a i => some ⟨(.alu .mulhi), q, d, a, 0, 0, (some (imm6V i)), none⟩
  | .imulhuImm6 q d a i => some ⟨(.alu .mulhu), q, d, a, 0, 0, (some (imm6V i)), none⟩
  | .andImm6 q d a i => some ⟨(.alu .and), q, d, a, 0, 0, (some (imm6V i)), none⟩
  | .orImm6 q d a i => some ⟨(.alu .or), q, d, a, 0, 0, (some (imm6V i)), none⟩
  | .xorImm6 q d a i => some ⟨(.alu .xor), q, d, a, 0, 0, (some (imm6V i)), none⟩
  | .andnImm6 q d a i => some ⟨(.alu .andn), q, d, a, 0, 0, (some (imm6V i)), none⟩
  | .shlImm6 q d a i => some ⟨(.alu .shl), q, d, a, 0, 0, (some (imm6V i)), none⟩
  | .shrImm6 q d a i => some ⟨(.alu .shr), q, d, a, 0, 0, (some (imm6V i)), none⟩
  | .sarImm6 q d a i => some ⟨(.alu .sar), q, d, a, 0, 0, (some (imm6V i)), none⟩
  | .iminImm6 q d a i => some ⟨(.alu .min), q, d, a, 0, 0, (some (imm6V i)), none⟩
  | .imaxImm6 q d a i => some ⟨(.alu .max), q, d, a, 0, 0, (some (imm6V i)), none⟩
  | .iminuImm6 q d a i => some ⟨(.alu .minu), q, d, a, 0, 0, (some (imm6V i)), none⟩
  | .imaxuImm6 q d a i => some ⟨(.alu .maxu), q, d, a, 0, 0, (some (imm6V i)), none⟩
  | .imad q d a b => some ⟨(.v2 .imad), q, d, a, b, 0, (Quals.immV q), none⟩
  | .bfe q d a b => some ⟨(.v2 .bfe), q, d, a, b, 0, (Quals.immV q), none⟩
  | .bfi q d a b => some ⟨(.v2 .bfi), q, d, a, b, 0, (Quals.immV q), none⟩
  | .bysel q d a b => some ⟨(.v2 .bysel), q, d, a, b, 0, (Quals.immV q), none⟩
  | .i8dot4 q d a b => some ⟨(.v2 .i8dot4), q, d, a, b, 0, (Quals.immV q), none⟩
  | .n8dot4 q d a b => some ⟨(.v2 .n8dot4), q, d, a, b, 0, (Quals.immV q), none⟩
  | .vclz q d a => some ⟨(.v2 .clz), q, d, a, 0, 0, none, none⟩
  | .vpopc q d a => some ⟨(.v2 .popc), q, d, a, 0, 0, none, none⟩
  | .vbrev q d a => some ⟨(.v2 .brev), q, d, a, 0, 0, none, none⟩
  | .vmov q d a => some ⟨.mov, q, d, a, 0, 0, none, none⟩
  | .ldiv g d v => some ⟨.splat, (quals g), d, 0, 0, 0, (some (imm25V v)), none⟩
  | .laneid q d => some ⟨.laneid, q, d, 0, 0, 0, none, none⟩
  | .fadd q d a b => some ⟨(.f32 .add), q, d, a, b, 0, (Quals.immF q), none⟩
  | .fsub q d a b => some ⟨(.f32 .sub), q, d, a, b, 0, (Quals.immF q), none⟩
  | .fmul q d a b => some ⟨(.f32 .mul), q, d, a, b, 0, (Quals.immF q), none⟩
  | .fmin q d a b => some ⟨(.f32 .min), q, d, a, b, 0, (Quals.immF q), none⟩
  | .fmax q d a b => some ⟨(.f32 .max), q, d, a, b, 0, (Quals.immF q), none⟩
  | .fminn q d a b => some ⟨(.f32 .minn), q, d, a, b, 0, (Quals.immF q), none⟩
  | .fmaxn q d a b => some ⟨(.f32 .maxn), q, d, a, b, 0, (Quals.immF q), none⟩
  | .fcps q d a b => some ⟨(.f32 .cps), q, d, a, b, 0, (Quals.immF q), none⟩
  | .fabs q d a => some ⟨(.f32 .abs), q, d, a, 0, 0, none, none⟩
  | .fneg q d a => some ⟨(.f32 .neg), q, d, a, 0, 0, none, none⟩
  | .fflr q d a => some ⟨(.f32 .flr), q, d, a, 0, 0, none, none⟩
  | .fcel q d a => some ⟨(.f32 .cel), q, d, a, 0, 0, none, none⟩
  | .ftrc q d a => some ⟨(.f32 .trc), q, d, a, 0, 0, none, none⟩
  | .frni q d a => some ⟨(.f32 .rni), q, d, a, 0, 0, none, none⟩
  | .hadd2 q d a b => some ⟨(.pk true .add), q, d, a, b, 0, none, none⟩
  | .hmul2 q d a b => some ⟨(.pk true .mul), q, d, a, b, 0, none, none⟩
  | .hmin2 q d a b => some ⟨(.pk true .min), q, d, a, b, 0, none, none⟩
  | .hmax2 q d a b => some ⟨(.pk true .max), q, d, a, b, 0, none, none⟩
  | .badd2 q d a b => some ⟨(.pk false .add), q, d, a, b, 0, none, none⟩
  | .bmul2 q d a b => some ⟨(.pk false .mul), q, d, a, b, 0, none, none⟩
  | .bmin2 q d a b => some ⟨(.pk false .min), q, d, a, b, 0, none, none⟩
  | .bmax2 q d a b => some ⟨(.pk false .max), q, d, a, b, 0, none, none⟩
  | .fma q d a b => some ⟨(.fma .fma), q, d, a, b, 0, (Quals.immF q), none⟩
  | .fms q d a b => some ⟨(.fma .fms), q, d, a, b, 0, (Quals.immF q), none⟩
  | .fnma q d a b => some ⟨(.fma .fnma), q, d, a, b, 0, (Quals.immF q), none⟩
  | .hfma2 q d a b => some ⟨(.fma .hfma2), q, d, a, b, 0, none, none⟩
  | .bfma2 q d a b => some ⟨(.fma .bfma2), q, d, a, b, 0, none, none⟩
  | .frcp q d a => some ⟨(.spc .rcp), q, d, a, 0, 0, none, none⟩
  | .frsq q d a => some ⟨(.spc .rsq), q, d, a, 0, 0, none, none⟩
  | .fsqrt q d a => some ⟨(.spc .sqrt), q, d, a, 0, 0, none, none⟩
  | .fexp2 q d a => some ⟨(.spc .exp2), q, d, a, 0, 0, none, none⟩
  | .flog2 q d a => some ⟨(.spc .log2), q, d, a, 0, 0, none, none⟩
  | .fdiv q d a b => some ⟨(.spc .div), q, d, a, b, 0, none, none⟩
  | .cvtF16F32 q d a n t r => some ⟨(.cvt .toF16 r (t == 1) n.toNat), q, d, a, 0, 0, none, none⟩
  | .cvtBf16F32 q d a n t r => some ⟨(.cvt .toBf16 r (t == 1) n.toNat), q, d, a, 0, 0, none, none⟩
  | .cvtF8e4F32 q d a n t r => some ⟨(.cvt .toF8e4 r (t == 1) n.toNat), q, d, a, 0, 0, none, none⟩
  | .cvtF8e5F32 q d a n t r => some ⟨(.cvt .toF8e5 r (t == 1) n.toNat), q, d, a, 0, 0, none, (some 7)⟩
  | .cvtF32F16 q d a n => some ⟨(.cvt .fromF16 0 false n.toNat), q, d, a, 0, 0, none, none⟩
  | .cvtF32Bf16 q d a n => some ⟨(.cvt .fromBf16 0 false n.toNat), q, d, a, 0, 0, none, none⟩
  | .cvtF32F8e4 q d a n => some ⟨(.cvt .fromF8e4 0 false n.toNat), q, d, a, 0, 0, none, none⟩
  | .cvtF32F8e5 q d a n => some ⟨(.cvt .fromF8e5 0 false n.toNat), q, d, a, 0, 0, none, (some 7)⟩
  | .cvtI32F32 q d a _ r => some ⟨(.cvt .toI32 r false 0), q, d, a, 0, 0, none, none⟩
  | .cvtN32F32 q d a _ r => some ⟨(.cvt .toN32 r false 0), q, d, a, 0, 0, none, none⟩
  | .cvtF32I32 q d a r => some ⟨(.cvt .fromI32 r false 0), q, d, a, 0, 0, none, none⟩
  | .cvtF32N32 q d a r => some ⟨(.cvt .fromN32 r false 0), q, d, a, 0, 0, none, none⟩
  | .cbk q d a n => some ⟨(.cvt .cbk 0 false n.toNat), q, d, a, 0, 0, none, (some 5)⟩
  | .pk2h q d a b => some ⟨(.pack .pk2h), q, d, a, b, 0, none, none⟩
  | .pkhi q d a b => some ⟨(.pack .pkhi), q, d, a, b, 0, none, none⟩
  | .pkb01 q d a b => some ⟨(.pack .pkb01), q, d, a, b, 0, none, none⟩
  | .pkb23 q d a b => some ⟨(.pack .pkb23), q, d, a, b, 0, none, none⟩
  | .upklo q d a => some ⟨(.pack .upklo), q, d, a, 0, 0, none, none⟩
  | .upkhi q d a => some ⟨(.pack .upkhi), q, d, a, 0, 0, none, none⟩
  | .fma3 g d a b x _ => some ⟨.fma .fma3, quals g, d, a, b, x, none, none⟩
  | _ => none

/-! ### Scalar and predicate results -/

/-- The truth of an SCMP condition (09 R234). -/
def scmpTrue (o : SCond) (x y : DWord) : Prop :=
  match o with
  | .eq => x = y
  | .ne => x ≠ y
  | .lt => x.toInt < y.toInt
  | .le => x.toInt ≤ y.toInt
  | .ltu => x.toNat < y.toNat
  | .leu => x.toNat ≤ y.toNat
  | .bt => x.getLsbD (y.toNat % 64) = true

/-- The instruction completes: it writes x to s[d], moves on, and changes nothing else. -/
def SetsS (i : Instr) (s : State) (c : Ctx) (d : BitVec 6) (x : DWord) : Prop :=
  ∃ a, WritesS c.g.arch a d x ∧ Ends i s c a []

/-- The instruction completes: it writes the lanes of m of p[d], moves on, and changes nothing else. -/
def SetsP (i : Instr) (s : State) (c : Ctx) (d : BitVec 6) (m x : Mask) : Prop :=
  ∃ a, WritesP c.g.arch a d m x ∧ Ends i s c a []

/-- The instruction completes: it writes the lanes of m of v[n], moves on, and changes nothing else. -/
def SetsV (i : Instr) (s : State) (c : Ctx) (n : Nat) (m : Mask) (w : Nat → Word) : Prop :=
  ∃ a, WritesV c.g.arch a n m w ∧ Ends i s c a []

/-- The instruction completes and changes nothing but its stream's place. -/
def Idles (i : Instr) (s : State) (c : Ctx) : Prop := Ends i s c c.g.arch []

/-- The source registers of a form, each with its value. -/
def ReadsAll (c : Ctx) (l : List (BitVec 6 × DWord)) : Prop := ∀ r ∈ l, ReadsS c r.1 r.2

/-! ### Lane-wise instructions -/

/-- The lanes of a lane-wise form: one half for each entry of the stream that has an active lane, its registers renamed
(13 R328, R329). -/
def LaneForm.halves (f : LaneForm) (c : Ctx) : List Half :=
  (c.halves (c.active f.q)).map fun h => c.half h.1 h.2 f.d f.a f.b f.x f.imm 0

/-- A permuted source that a consist would rename (13 R328). -/
def permMeld (c : Ctx) (m : ModX) (a b : BitVec 6) (imm : Option Word) : Bool :=
  (m.pa != 0 && c.isW a) || (m.pb != 0 && imm.isNone && c.isW b)

/-- The halves pass the checks of Table 08-4, their sources are full, the retire window has room for their posts, no lane
at L raises an enabled exception, and the halves are of different lanes. -/
structure LaneReady (c : Ctx) (s : State) (o : LaneOp) (m : ModX) (meld : Bool) (hs : List Half) : Prop where
  checks : ∀ h ∈ hs, c.check s (o.need c m meld h) = none
  full : ∀ h ∈ hs, ∀ r ∈ (o.need c m meld h).waits, (c.src.vreg r).full = true
  room : remotePlaces hs = [] ∨ c.g.posts + (remotePlaces hs).length ≤ 32
  clean : ∀ h ∈ hs, h.place = .l → ∀ r ∈ h.results o c.src m, r.2.2 &&& enables c.src.fcr = 0
  apart : hs.Pairwise fun h k => h.act &&& k.act = 0

/-- What a lane-wise instruction does: each active lane of a half at L gets its word; each active lane of a half elsewhere
is owed by the instruction, which is posted to that place; every other lane, register and flag is as it was. -/
structure LaneEffect (c : Ctx) (o : LaneOp) (m : ModX) (hs : List Half) (a : Arch) (es : List Entry) : Prop where
  results : ∀ h ∈ hs, h.place = .l → ∀ r ∈ h.results o c.src m, (a.vreg h.d).lane r.1 = r.2.1
  others : ∀ n l, l < 32 → (∀ h ∈ hs, h.place = .l → h.d = n → h.act.getLsbD l = false) →
    (a.vreg n).lane l = (c.g.arch.vreg n).lane l
  flags : a.fsr = c.g.arch.fsr ||| flagBits (allFlags ((hs.filter fun h => h.place == .l).flatMap fun h =>
    (h.results o c.src m).map fun r => (r.1, r.2.2)))
  named : ∀ n, (∀ h ∈ hs, h.d ≠ n) → a.vreg n = c.g.arch.vreg n
  place : ∀ n, a.vreg n = { c.g.arch.vreg n with lanes := (a.vreg n).lanes, prods := (a.vreg n).prods }
  owed : ∀ h ∈ hs, h.place ≠ .l → (a.vreg h.d).owed c.pos &&& h.act = h.act
  posts : es = (remotePlaces hs).map fun p => { c.entry p (.lane o (hs.filter fun h => h.place == p)) with before := c.g.arch }
  rest : a = { c.g.arch with v := a.v, fsr := a.fsr, dirty := a.dirty }

/-- The instruction completes with the effect of a lane-wise instruction. -/
def SetsLanes (i : Instr) (s : State) (c : Ctx) (o : LaneOp) (m : ModX) (hs : List Half) : Prop :=
  ∃ a es, LaneEffect c o m hs a es ∧ Ends i s c a es

/-! ### Compares of lanes into a predicate -/

/-- A form that compares lanes: VCMP and FCMP. -/
structure CompareForm where
  q : Quals
  d : BitVec 6
  a : BitVec 6
  b : BitVec 6
  two : Bool
  imm : Option Word
  f : Word → Word → Bool × Flags

/-- The truth of a VCMP condition (09 R240). -/
def vcmpTrue (o : VCond) (x y : Word) : Prop :=
  match o with
  | .eq => x = y
  | .ne => x ≠ y
  | .lt => x.toInt < y.toInt
  | .le => x.toInt ≤ y.toInt
  | .gt => x.toInt > y.toInt
  | .ge => x.toInt ≥ y.toInt
  | .ltu => x.toNat < y.toNat
  | .leu => x.toNat ≤ y.toNat
  | .gtu => x.toNat > y.toNat
  | .geu => x.toNat ≥ y.toNat
  | .bt => x.getLsbD (y.toNat % 32) = true

/-- The registers a half of a compare reads: they are checked and waited for at L. -/
def CompareForm.need (f : CompareForm) (c : Ctx) (h : Half) : Need :=
  let m := Quals.modx f.q
  let meld := (m.pa != 0 && c.isW f.a) || (m.pb != 0 && f.two && f.imm.isNone && c.isW f.b)
  let n := { Need.atL with meld := meld }.source m.ta h.a
  if f.two && f.imm.isNone then n.source m.tb h.b else n

def CompareForm.halves (f : CompareForm) (c : Ctx) : List Half :=
  (c.halves (c.active f.q)).map fun h => c.half h.1 h.2 0 f.a f.b 0 f.imm 0

/-- What the compare gives in a lane. -/
def CompareForm.lane (f : CompareForm) (c : Ctx) (h : Half) (l : Nat) : Bool × Flags :=
  f.f (h.word c.src (Quals.modx f.q) l).1 (h.word c.src (Quals.modx f.q) l).2.1

/-- Every half passes its checks, reads full registers and raises no enabled exception, and the halves are of different
lanes. -/
structure CompareReady (f : CompareForm) (c : Ctx) (s : State) : Prop where
  checks : ∀ h ∈ f.halves c, c.check s (f.need c h) = none
  full : ∀ h ∈ f.halves c, ∀ r ∈ (f.need c h).waits, (c.src.vreg r).full = true
  clean : ∀ h ∈ f.halves c, ∀ l ∈ Mask.list h.act, (f.lane c h l).2 &&& enables c.src.fcr = 0
  apart : (f.halves c).Pairwise fun h k => h.act &&& k.act = 0

/-- Each active lane of p[d] gets the compare's truth and %fsr its flags; every other lane and register is as it was. -/
structure CompareEffect (f : CompareForm) (c : Ctx) (a : Arch) : Prop where
  results : ∀ h ∈ f.halves c, ∀ l ∈ Mask.list h.act, f.d ≠ 0 → (a.preg f.d).getLsbD l = (f.lane c h l).1
  others : ∀ n l, l < 32 → (n ≠ f.d ∨ ∀ h ∈ f.halves c, h.act.getLsbD l = false) →
    (a.preg n).getLsbD l = (c.g.arch.preg n).getLsbD l
  flags : a.fsr = c.g.arch.fsr ||| flagBits (allFlags ((f.halves c).flatMap fun h =>
    (Mask.list h.act).map fun l => (l, (f.lane c h l).2)))
  rest : a = { c.g.arch with p := a.p, fsr := a.fsr }

/-! ### Cross-lane instructions -/

/-- What a cross-lane instruction asks: its checks pass and its vector sources are full (Table 08-4, 09 R231, R232). -/
def CrossReady (c : Ctx) (s : State) (m : ModX) (d a : BitVec 6) (b : Option (BitVec 6)) : Prop :=
  c.crossCheck s m d a b = .ok ()

/-- The contributors of a member mask: members that are live; every active lane is a member (09 R245). -/
def Contributors (c : Ctx) (act : Mask) (x : DWord) (who : Mask) : Prop :=
  (∀ l, l < 32 → act.getLsbD l = true → x.getLsbD l = true) ∧
  ∀ l, l < 32 → (who.getLsbD l = true ↔ x.getLsbD l = true ∧ c.src.live.getLsbD l = true)

/-- VCMP (09 R240). -/
def vectorCmpForm (i : Instr) : Option (VCond × Quals × BitVec 6 × BitVec 6 × BitVec 6) :=
  match i with
  | .icmpEq q d a b => some (.eq, q, d, a, b)
  | .icmpNe q d a b => some (.ne, q, d, a, b)
  | .icmpLt q d a b => some (.lt, q, d, a, b)
  | .icmpLe q d a b => some (.le, q, d, a, b)
  | .icmpGt q d a b => some (.gt, q, d, a, b)
  | .icmpGe q d a b => some (.ge, q, d, a, b)
  | .icmpLtu q d a b => some (.ltu, q, d, a, b)
  | .icmpLeu q d a b => some (.leu, q, d, a, b)
  | .icmpGtu q d a b => some (.gtu, q, d, a, b)
  | .icmpGeu q d a b => some (.geu, q, d, a, b)
  | .icmpBt q d a b => some (.bt, q, d, a, b)
  | _ => none

/-- FCMP with two sources (10 Table 10-7). -/
def floatCmpForm (i : Instr) : Option (FCond × Quals × BitVec 6 × BitVec 6 × BitVec 6) :=
  match i with
  | .fcmpEq q d a b => some (.eq, q, d, a, b)
  | .fcmpNe q d a b => some (.ne, q, d, a, b)
  | .fcmpLt q d a b => some (.lt, q, d, a, b)
  | .fcmpLe q d a b => some (.le, q, d, a, b)
  | .fcmpGt q d a b => some (.gt, q, d, a, b)
  | .fcmpGe q d a b => some (.ge, q, d, a, b)
  | .fcmpUno q d a b => some (.uno, q, d, a, b)
  | .fcmpOrd q d a b => some (.ord, q, d, a, b)
  | _ => none

/-- PLOG: the qualifiers, p[D], p[A], p[B] and the function of Table 09-5 on one lane. -/
def predLogicForm (i : Instr) : Option (Quals × BitVec 6 × BitVec 6 × BitVec 6 × (Bool → Bool → Bool)) :=
  match i with
  | .pand q d a b => some (q, d, a, b, fun x y => x && y)
  | .por q d a b => some (q, d, a, b, fun x y => x || y)
  | .pxor q d a b => some (q, d, a, b, fun x y => x != y)
  | .pandn q d a b => some (q, d, a, b, fun x y => x && !y)
  | .porn q d a b => some (q, d, a, b, fun x y => x || !y)
  | .pnot q d a => some (q, d, a, 0, fun x _ => !x)
  | .pmov q d a => some (q, d, a, 0, fun x _ => x)
  | .pset q d => some (q, d, 0, 0, fun _ _ => true)
  | .pclr q d => some (q, d, 0, 0, fun _ _ => false)
  | _ => none

/-- XRED and XSCAN: the operation, whether lane i takes only the contributors up to itself, and the fields. -/
def reduceForm (i : Instr) : Option (RedOp × Bool × Quals × BitVec 6 × BitVec 6 × BitVec 6) :=
  match i with
  | .xredAddI32 q d a b => some (.addI, false, q, d, a, b)
  | .xredMinI32 q d a b => some (.minI, false, q, d, a, b)
  | .xredMaxI32 q d a b => some (.maxI, false, q, d, a, b)
  | .xredMinu q d a b => some (.minu, false, q, d, a, b)
  | .xredMaxu q d a b => some (.maxu, false, q, d, a, b)
  | .xredAnd q d a b => some (.and, false, q, d, a, b)
  | .xredOr q d a b => some (.or, false, q, d, a, b)
  | .xredXor q d a b => some (.xor, false, q, d, a, b)
  | .xredAddF32 q d a b => some (.addF, false, q, d, a, b)
  | .xredMinF32 q d a b => some (.minF, false, q, d, a, b)
  | .xredMaxF32 q d a b => some (.maxF, false, q, d, a, b)
  | .xscanAddI32 q d a b => some (.addI, true, q, d, a, b)
  | .xscanAddF32 q d a b => some (.addF, true, q, d, a, b)
  | .xscanMaxF32 q d a b => some (.maxF, true, q, d, a, b)
  | .xscanMinF32 q d a b => some (.minF, true, q, d, a, b)
  | .xscanMaxI32 q d a b => some (.maxI, true, q, d, a, b)
  | .xscanOr q d a b => some (.or, true, q, d, a, b)
  | _ => none

/-! ### Control flow -/

/-- The group after an instruction that has placed its stream itself: its registers and paths are `a` (13 R315). -/
def groupMoved (c : Ctx) (a : Arch) : Group :=
  { c.g with arch := a, seq := c.g.seq + 1, rob := c.g.rob.map fun e => Entry.withAfter e c.g.seq a }

/-- The instruction answers a next state in which only the issuing group changed, its registers and paths now being `a`. -/
def Lands (i : Instr) (s : State) (c : Ctx) (a : Arch) : Prop :=
  ∃ t, exec i s = .next t ∧ GroupOnly c s t (groupMoved c a)

/-- As `Ends`, for an instruction that also changed the rest of the machine, from s to u. -/
def EndsIn (i : Instr) (s u : State) (c : Ctx) (a : Arch) (es : List Entry) : Prop :=
  ∃ t, exec i s = .next t ∧ GroupOnly c u t (groupAfter c a es)

/-- Two sets of registers that differ in the path table only. -/
def PathsOnly (a b : Arch) : Prop := b = { a with paths := b.paths }

/-- %em of the stream as its entries stand (13 R315). -/
def emNow (c : Ctx) : Mask := c.g.arch.emOf c.ents

/-- A branch of the lanes `t` of a stream of one entry splits it: the lanes become the new entry j at the target, in state
READY with a new run, with the join stack, MELD, SIDE and MAP of their entry; the entry e keeps its other lanes and goes on
with the next word in a new run (13 R315, R316). -/
structure SplitOff (c : Ctx) (a b : Arch) (e j : Nat) (t : Mask) (pn : DWord) : Prop where
  free : (a.path j).valid = false ∧ j < 32
  newLanes : (b.path j).valid = true ∧ (b.path j).mask = t ∧ (b.path j).em = t
  newPlace : (b.path j).pn = pn ∧ (b.path j).slot = 0 ∧ (b.path j).run = 0 ∧ (b.path j).state = .ready
  copied : (b.path j).jstack = (a.path e).jstack ∧ (b.path j).meld = (a.path e).meld ∧
    (b.path j).side = (a.path e).side ∧ (b.path j).map = (a.path e).map ∧ (b.path j).link = none
  kept : (b.path e).mask = (a.path e).mask &&& ~~~ t ∧ (b.path e).em = (a.path e).em &&& ~~~ t ∧
    (b.path e).run = 0 ∧ (b.path e).state = (a.path e).state
  next : (b.path e).pn = ((a.path e).past c.iss.words c.iss.cut).pn ∧
    (b.path e).slot = ((a.path e).past c.iss.words c.iss.cut).slot
  others : ∀ n, n ≠ e → n ≠ j → b.path n = { a.path n with away := (b.path n).away }
  rest : PathsOnly a b

/-- R315 for a stream of one entry whose taken set is t, all to one target, with the registers `a` at the branch: not
taken, uniform, or split. -/
def Branches (i : Instr) (s : State) (c : Ctx) (a : Arch) (t : Mask) (pn : DWord) : Prop :=
  (t = 0 → Ends i s c a []) ∧
  (t ≠ 0 → t = a.emOf c.ents → Lands i s c (a.editPaths c.ents fun p => p.goto pn)) ∧
  (∀ e, c.ents = [e] → t ≠ 0 → t ≠ (a.path e).em → t &&& ~~~ (a.path e).em = 0 →
    (a.path e).em &&& ~~~ (a.path e).mask = 0 → (a.path e).valid = true → a.freeEntry ≠ none →
    ∃ b j, Lands i s c b ∧ SplitOff c a b e j t pn) ∧
  (∀ e f, c.ents = [e, f] → t ≠ 0 → t ≠ a.emOf c.ents → t &&& ~~~ a.emOf c.ents = 0 → e < 32 → f < 32 →
    (a.path e).valid = true → (a.path f).valid = true →
    ∃ b, Lands i s c b ∧ (b.path e).link = none ∧ (b.path f).link = none ∧ PathsOnly a b)

/-- The whole stream is a sided path at the instruction (15 R370 "Path"). -/
structure SidedAt (c : Ctx) (p q : Path) (f : FaultInfo) : Prop where
  place : q.pn = c.iss.pn ∧ q.slot = c.iss.slot
  state : q.state = .siding ∧ q.cause = f.cause ∧ q.run = 0
  kept : q.valid = p.valid ∧ q.mask = p.mask ∧ q.em = p.em ∧ q.jstack = p.jstack ∧ q.meld = p.meld ∧ q.side = p.side ∧
    q.map = p.map

/-- Lanes m of entry e leave as the sided entry j, which resumes at the instruction (15 R370 "Lanes"). -/
structure LanesLeft (c : Ctx) (a b : Arch) (e j : Nat) (m : Mask) (cause : BitVec 8) : Prop where
  newEntry : (b.path j).valid = true ∧ (b.path j).state = .siding ∧ (b.path j).mask = m ∧ (b.path j).em = m ∧
    (b.path j).pn = c.iss.pn ∧ (b.path j).slot = c.iss.slot ∧ (b.path j).cause = cause ∧
    (b.path j).jstack = (a.path e).jstack ∧ (b.path j).meld = (a.path e).meld ∧ (b.path j).side = (a.path e).side
  left : (a.path e).mask &&& ~~~ m ≠ 0 → (b.path e).valid = true ∧ (b.path e).mask = (a.path e).mask &&& ~~~ m ∧
    (b.path e).em = (a.path e).em &&& ~~~ m
  gone : (a.path e).mask &&& ~~~ m = 0 → (b.path e).valid = false
  rest : PathsOnly a b

/-- An indirect jump all of whose lanes in t fail a landing check with a cause: of a path, they leave as one sided entry
(13 R321); where both sides of a consist lose lanes, the whole stream traps with the jump's target (13 R336). -/
def JumpFails (i : Instr) (s : State) (c : Ctx) (t : Mask) (k : BitVec 8) (va : DWord) : Prop :=
  (∀ e m, c.halves t = [(e, m)] → ∃ u g, exec i s = .next u ∧ u.group c.iss.core c.iss.grp = some g ∧
    g.seq = c.g.seq + 1 ∧ (∀ a, Memory.byte u.mem a = Memory.byte s.mem a) ∧
    (∀ n, n ≠ groupKey c.iss.core c.iss.grp → u.groups.find n = s.groups.find n) ∧
    (∀ j, c.g.arch.freeEntry = some j → e < 32 → c.ents.Nodup → (c.g.arch.path e).valid = true → m ≠ 0 →
      LanesLeft c c.g.arch g.arch e j m k)) ∧
  (2 ≤ (c.halves t).length → exec i s = .next (c.trapPath s (FaultInfo.withAddr k va)))

/-! ### Memory instructions -/

/-- The per-lane memory forms, with their qualifiers. -/
def memForm (i : Instr) : Option (MemForm × Quals) :=
  match i with
  | .ldB8z q d a b =>
    some (⟨memOf .load 1 false 0 (Quals.memx q), false, false, (Quals.memx q).ofs, Quals.modx q, d, a, b⟩, q)
  | .ldB8s q d a b =>
    some (⟨memOf .load 1 true 0 (Quals.memx q), false, false, (Quals.memx q).ofs, Quals.modx q, d, a, b⟩, q)
  | .ldB16z q d a b =>
    some (⟨memOf .load 2 false 0 (Quals.memx q), false, false, (Quals.memx q).ofs, Quals.modx q, d, a, b⟩, q)
  | .ldB16s q d a b =>
    some (⟨memOf .load 2 true 0 (Quals.memx q), false, false, (Quals.memx q).ofs, Quals.modx q, d, a, b⟩, q)
  | .ldB32 q d a b =>
    some (⟨memOf .load 4 false 0 (Quals.memx q), false, false, (Quals.memx q).ofs, Quals.modx q, d, a, b⟩, q)
  | .ldB64 q d a b =>
    some (⟨memOf .load 8 false 0 (Quals.memx q), false, false, (Quals.memx q).ofs, Quals.modx q, d, a, b⟩, q)
  | .ldB128 q d a b =>
    some (⟨memOf .load 16 false 0 (Quals.memx q), false, false, (Quals.memx q).ofs, Quals.modx q, d, a, b⟩, q)
  | .ldW32 q d a =>
    some (⟨memOf .load 4 false 0 (Quals.memx q), true, false, (Quals.memx q).ofs, Quals.modx q, d, a, 0⟩, q)
  | .stB8 q d a b =>
    some (⟨memOf .store 1 false 0 (Quals.memx q), false, false, (Quals.memx q).ofs, Quals.modx q, d, a, b⟩, q)
  | .stB16 q d a b =>
    some (⟨memOf .store 2 false 0 (Quals.memx q), false, false, (Quals.memx q).ofs, Quals.modx q, d, a, b⟩, q)
  | .stB32 q d a b =>
    some (⟨memOf .store 4 false 0 (Quals.memx q), false, false, (Quals.memx q).ofs, Quals.modx q, d, a, b⟩, q)
  | .stB64 q d a b =>
    some (⟨memOf .store 8 false 0 (Quals.memx q), false, false, (Quals.memx q).ofs, Quals.modx q, d, a, b⟩, q)
  | .stB128 q d a b =>
    some (⟨memOf .store 16 false 0 (Quals.memx q), false, false, (Quals.memx q).ofs, Quals.modx q, d, a, b⟩, q)
  | .stW32 q d a =>
    some (⟨memOf .store 4 false 0 (Quals.memx q), true, false, (Quals.memx q).ofs, Quals.modx q, d, a, 0⟩, q)
  | .ldxB8z g d a b m =>
    some (⟨memOf .load 1 false 0 m, false, true, m.ofs, Quals.modx (quals g), d, a, b⟩, quals g)
  | .ldxB8s g d a b m =>
    some (⟨memOf .load 1 true 0 m, false, true, m.ofs, Quals.modx (quals g), d, a, b⟩, quals g)
  | .ldxB16z g d a b m =>
    some (⟨memOf .load 2 false 0 m, false, true, m.ofs, Quals.modx (quals g), d, a, b⟩, quals g)
  | .ldxB16s g d a b m =>
    some (⟨memOf .load 2 true 0 m, false, true, m.ofs, Quals.modx (quals g), d, a, b⟩, quals g)
  | .ldxB32 g d a b m =>
    some (⟨memOf .load 4 false 0 m, false, true, m.ofs, Quals.modx (quals g), d, a, b⟩, quals g)
  | .ldxB64 g d a b m =>
    some (⟨memOf .load 8 false 0 m, false, true, m.ofs, Quals.modx (quals g), d, a, b⟩, quals g)
  | .ldxB128 g d a b m =>
    some (⟨memOf .load 16 false 0 m, false, true, m.ofs, Quals.modx (quals g), d, a, b⟩, quals g)
  | .stxB8 g d a b m =>
    some (⟨memOf .store 1 false 0 m, false, true, m.ofs, Quals.modx (quals g), d, a, b⟩, quals g)
  | .stxB16 g d a b m =>
    some (⟨memOf .store 2 false 0 m, false, true, m.ofs, Quals.modx (quals g), d, a, b⟩, quals g)
  | .stxB32 g d a b m =>
    some (⟨memOf .store 4 false 0 m, false, true, m.ofs, Quals.modx (quals g), d, a, b⟩, quals g)
  | .stxB64 g d a b m =>
    some (⟨memOf .store 8 false 0 m, false, true, m.ofs, Quals.modx (quals g), d, a, b⟩, quals g)
  | .stxB128 g d a b m =>
    some (⟨memOf .store 16 false 0 m, false, true, m.ofs, Quals.modx (quals g), d, a, b⟩, quals g)
  | .atomAddI32 g d a b m =>
    some (⟨memOf .atom 4 false 0 m, false, true, m.ofs, Quals.modx (quals g), d, a, b⟩, quals g)
  | .atomAddF32 g d a b m =>
    some (⟨memOf .atom 4 false 1 m, false, true, m.ofs, Quals.modx (quals g), d, a, b⟩, quals g)
  | .atomMinI32 g d a b m =>
    some (⟨memOf .atom 4 false 2 m, false, true, m.ofs, Quals.modx (quals g), d, a, b⟩, quals g)
  | .atomMaxI32 g d a b m =>
    some (⟨memOf .atom 4 false 3 m, false, true, m.ofs, Quals.modx (quals g), d, a, b⟩, quals g)
  | .atomMinu g d a b m =>
    some (⟨memOf .atom 4 false 4 m, false, true, m.ofs, Quals.modx (quals g), d, a, b⟩, quals g)
  | .atomMaxu g d a b m =>
    some (⟨memOf .atom 4 false 5 m, false, true, m.ofs, Quals.modx (quals g), d, a, b⟩, quals g)
  | .atomAnd g d a b m =>
    some (⟨memOf .atom 4 false 6 m, false, true, m.ofs, Quals.modx (quals g), d, a, b⟩, quals g)
  | .atomOr g d a b m =>
    some (⟨memOf .atom 4 false 7 m, false, true, m.ofs, Quals.modx (quals g), d, a, b⟩, quals g)
  | .atomXor g d a b m =>
    some (⟨memOf .atom 4 false 8 m, false, true, m.ofs, Quals.modx (quals g), d, a, b⟩, quals g)
  | .atomXchg g d a b m =>
    some (⟨memOf .atom 4 false 9 m, false, true, m.ofs, Quals.modx (quals g), d, a, b⟩, quals g)
  | .atomIncw g d a b m =>
    some (⟨memOf .atom 4 false 10 m, false, true, m.ofs, Quals.modx (quals g), d, a, b⟩, quals g)
  | .atomDecw g d a b m =>
    some (⟨memOf .atom 4 false 11 m, false, true, m.ofs, Quals.modx (quals g), d, a, b⟩, quals g)
  | .atomAddI64 g d a b m =>
    some (⟨memOf .atom 8 false 12 m, false, true, m.ofs, Quals.modx (quals g), d, a, b⟩, quals g)
  | .atomXchg64 g d a b m =>
    some (⟨memOf .atom 8 false 13 m, false, true, m.ofs, Quals.modx (quals g), d, a, b⟩, quals g)
  | .atomAddH2 g d a b m =>
    some (⟨memOf .atom 4 false 14 m, false, true, m.ofs, Quals.modx (quals g), d, a, b⟩, quals g)
  | .atomAddB2 g d a b m =>
    some (⟨memOf .atom 4 false 15 m, false, true, m.ofs, Quals.modx (quals g), d, a, b⟩, quals g)
  | .redAddI32 g d a b m =>
    some (⟨memOf .red 4 false 0 m, false, true, m.ofs, Quals.modx (quals g), d, a, b⟩, quals g)
  | .redAddF32 g d a b m =>
    some (⟨memOf .red 4 false 1 m, false, true, m.ofs, Quals.modx (quals g), d, a, b⟩, quals g)
  | .redMinI32 g d a b m =>
    some (⟨memOf .red 4 false 2 m, false, true, m.ofs, Quals.modx (quals g), d, a, b⟩, quals g)
  | .redMaxI32 g d a b m =>
    some (⟨memOf .red 4 false 3 m, false, true, m.ofs, Quals.modx (quals g), d, a, b⟩, quals g)
  | .redMinu g d a b m =>
    some (⟨memOf .red 4 false 4 m, false, true, m.ofs, Quals.modx (quals g), d, a, b⟩, quals g)
  | .redMaxu g d a b m =>
    some (⟨memOf .red 4 false 5 m, false, true, m.ofs, Quals.modx (quals g), d, a, b⟩, quals g)
  | .redAnd g d a b m =>
    some (⟨memOf .red 4 false 6 m, false, true, m.ofs, Quals.modx (quals g), d, a, b⟩, quals g)
  | .redOr g d a b m =>
    some (⟨memOf .red 4 false 7 m, false, true, m.ofs, Quals.modx (quals g), d, a, b⟩, quals g)
  | .redXor g d a b m =>
    some (⟨memOf .red 4 false 8 m, false, true, m.ofs, Quals.modx (quals g), d, a, b⟩, quals g)
  | .redXchg g d a b m =>
    some (⟨memOf .red 4 false 9 m, false, true, m.ofs, Quals.modx (quals g), d, a, b⟩, quals g)
  | .redIncw g d a b m =>
    some (⟨memOf .red 4 false 10 m, false, true, m.ofs, Quals.modx (quals g), d, a, b⟩, quals g)
  | .redDecw g d a b m =>
    some (⟨memOf .red 4 false 11 m, false, true, m.ofs, Quals.modx (quals g), d, a, b⟩, quals g)
  | .redAddI64 g d a b m =>
    some (⟨memOf .red 8 false 12 m, false, true, m.ofs, Quals.modx (quals g), d, a, b⟩, quals g)
  | .redXchg64 g d a b m =>
    some (⟨memOf .red 8 false 13 m, false, true, m.ofs, Quals.modx (quals g), d, a, b⟩, quals g)
  | .redAddH2 g d a b m =>
    some (⟨memOf .red 4 false 14 m, false, true, m.ofs, Quals.modx (quals g), d, a, b⟩, quals g)
  | .redAddB2 g d a b m =>
    some (⟨memOf .red 4 false 15 m, false, true, m.ofs, Quals.modx (quals g), d, a, b⟩, quals g)
  | .cas32 g d a b m =>
    some (⟨memOf .cas 4 false 0 m, false, true, m.ofs, Quals.modx (quals g), d, a, b⟩, quals g)
  | .cas64 g d a b m =>
    some (⟨memOf .cas 8 false 1 m, false, true, m.ofs, Quals.modx (quals g), d, a, b⟩, quals g)
  | _ => none

/-- The lanes of a memory form: one half for each entry of the stream that has an active lane (13 R329). -/
def memHalves (f : MemForm) (c : Ctx) (act : Mask) : List Half :=
  (c.halves act).map fun h => c.half h.1 h.2 f.d f.a 0 0 none 0

/-- Every active lane with its effective address and what the address names (03 R59, 07 Table 07-3 rows 1 to 5). -/
def memLanes (f : MemForm) (c : Ctx) (s : State) (act : Mask) (base : DWord) : List LaneAcc :=
  (memHalves f c act).flatMap fun h => c.laneAccs s f base h

/-- A memory instruction may be dispatched: no acquire is in progress, its base is read, its halves pass the checks of
Table 08-4 with what they read at L full, the window has room, a release part has been released, no lane is barred from
its window, and no older access to its lines must come first (07 R173 to R184, 08 R212). -/
structure MemReady (c : Ctx) (s : State) (f : MemForm) (act : Mask) (base : DWord) : Prop where
  acquire : c.g.acq = none
  address : if f.pair then base = 0 else ReadsS c f.b base
  checks : ∀ h ∈ memHalves f c act, c.check s (f.need c s h) = none
  full : ∀ h ∈ memHalves f c act, ∀ r ∈ (f.need c s h).waits, (c.src.vreg r).full = true
  room : remotePlaces (memHalves f c act) = [] ∨ c.g.posts + (remotePlaces (memHalves f c act)).length ≤ 32
  release : f.op.ord.toNat < 2 ∨ s.released c.g (scopeClass f.op.sc) = true
  barred : ∀ x ∈ memLanes f c s act base, placeBars x = false
  order : ∀ home, c.g.conflict ((memLanes f c s act base).filterMap fun x => x.at'.toOption.map (·.1)) home = false
  slots : ∀ x ∈ memLanes f c s act base, ∀ core part n o off, x.at' = .ok (.slot core part n o, off) →
    (s.slot core part n).present = true

/-- The part of a dispatched memory instruction at one place: one request for each line (07 R187), which has for each of
its lanes the byte, the registers and the operands; a lane whose address failed a check has its cause. -/
structure MemPart (c : Ctx) (s : State) (f : MemForm) (act : Mask) (base : DWord) (e : Entry) : Prop where
  place : e.pos = c.g.seq ∧ e.pn = c.iss.pn ∧ e.slot = c.iss.slot ∧ e.stage = .posted ∧ e.before = c.g.arch
  work : e.memOp = some f.op
  one : e.reqs.Pairwise fun q r => q.fail = none → r.fail = none → q.tgt ≠ r.tgt
  lanes : ∀ x ∈ memLanes f c s act base, x.half.place = e.place →
    ∃ q ∈ e.reqs, ∃ y ∈ q.accs, y.lane = x.lane ∧ y.reg = x.half.d ∧
      (match x.at' with
       | .ok (t, off) => q.tgt = t ∧ q.stat = .todo ∧ q.fail = none ∧ y = f.op.operand c.src ⟨x.lane, x.half.d, off, 0, 0, 0⟩
       | .error cause => q.stat = .done ∧ q.fail = some cause)
  only : ∀ q ∈ e.reqs, ∀ y ∈ q.accs, ∃ x ∈ memLanes f c s act base, x.half.place = e.place ∧ y.lane = x.lane ∧ y.reg = x.half.d

/-- What the dispatch of a memory instruction does (07 R173, R178, 08 R211): a part joins the window for each place that
has a half; the registers that a load or an atomic will write are owed for their active lanes, with the words they had;
nothing else changes. -/
structure MemEffect (c : Ctx) (s : State) (f : MemForm) (act : Mask) (base : DWord) (a : Arch) (es : List Entry) : Prop where
  places : es.map (·.place) = [Place.l, .k, .h, .m].filter fun p => (memHalves f c act).any fun h => h.place == p
  parts : ∀ e ∈ es, MemPart c s f act base e
  owed : f.op.kind.returns = true → ∀ h ∈ memHalves f c act, ∀ r ∈ Machine.span h.d f.op.span,
    (a.vreg r).owed c.pos &&& h.act = h.act
  kept : ∀ n, a.vreg n = { c.g.arch.vreg n with prods := (a.vreg n).prods }
  named : ∀ n, (f.op.kind.returns = false ∨ ∀ h ∈ memHalves f c act, n ∉ Machine.span h.d f.op.span) →
    a.vreg n = c.g.arch.vreg n
  rest : a = { c.g.arch with v := a.v, dirty := a.dirty }

/-- After dispatch the requests of loads at L are sent, and the window retires what has reported (07 R173, 08 R213). -/
def sendPosted (c : Ctx) (s : State) (es : List Entry) : State :=
  (es.foldl (fun s e => if e.place == .l && !e.writes then
    s.startReqs c.iss.core c.iss.grp e.pos .l e.reqs.length else s) s).advance c.iss.core c.iss.grp

/-- A read with an acquire part whose data is still to come: younger accesses wait for it (07 R181). -/
def acquires (op : MemOp) (es : List Entry) : Bool := op.ord.getLsbD 0 && op.kind.returns && es.any fun e => !e.answered

/-- The instruction answers a next state: its addresses are translated, `es` have joined the window and the registers are `a`, an
acquire is noted, and nothing else changed before the requests of loads at L are sent and the window retires what it can. -/
def Posts (i : Instr) (s : State) (c : Ctx) (op : MemOp) (a : Arch) (es : List Entry) : Prop :=
  ∃ w u, Touches s w ∧ GroupOnly c w u { groupAfter c a es with acq := if acquires op es then some c.g.seq else c.g.acq } ∧
    exec i s = .next (sendPosted c u es)

/-- The new memory value of ATOM and RED in Table 07-7: for F 12 and 13 of 64 bits, else of 32. -/
def atomValue (f : Nat) (m x : BitVec 64) : BitVec 64 :=
  let a : BitVec 32 := m.setWidth 32
  let b : BitVec 32 := x.setWidth 32
  let w := fun (y : BitVec 32) => y.setWidth 64
  match f with
  | 0 => w (a + b)
  | 1 => BitVec.ofNat 64 (Fmt.f32.addF .rne a.toNat b.toNat).1
  | 2 => if a.toInt ≤ b.toInt then w a else w b
  | 3 => if a.toInt ≥ b.toInt then w a else w b
  | 4 => if a ≤ b then w a else w b
  | 5 => if a ≥ b then w a else w b
  | 6 => w (a &&& b)
  | 7 => w (a ||| b)
  | 8 => w (a ^^^ b)
  | 9 => w b
  | 10 => if b ≤ a then 0 else w (a + 1)
  | 11 => if a = 0 ∨ b < a then w b else w (a - 1)
  | 12 => m + x
  | 13 => x
  | 14 => BitVec.ofNat 64 ((Fmt.f16.addF .rne (a.toNat % 65536) (b.toNat % 65536)).1 +
      65536 * (Fmt.f16.addF .rne (a.toNat / 65536) (b.toNat / 65536)).1)
  | _ => BitVec.ofNat 64 ((Fmt.bf16.addF .rne (a.toNat % 65536) (b.toNat % 65536)).1 +
      65536 * (Fmt.bf16.addF .rne (a.toNat / 65536) (b.toNat / 65536)).1)

/-- What one access does to the n bytes it touches, and the value it reads (07 R171, R185, R188). -/
def accValue (op : MemOp) (a : Acc) (m : BitVec 64) : BitVec 64 :=
  let n := 8 * op.size
  let cut := fun (x : BitVec 64) => if n = 64 then x else x &&& (BitVec.ofNat 64 (2 ^ n - 1))
  match op.kind with
  | .store | .storeS => cut (a.val.setWidth 64)
  | .cas => if m = cut a.cmp then cut (a.val.setWidth 64) else m
  | .atom | .red => cut (atomValue op.f m (cut (a.val.setWidth 64)))
  | _ => m

/-- The registers get what a load, an ATOM or a CAS that was answered returns: every lane a performing access still owes
has its word (07 R178, R185, R188); lanes that are not owed by it, and all other registers, are as they were. -/
structure Delivers (e : Entry) (op : MemOp) (a b : Arch) : Prop where
  words : ∀ q ∈ e.reqs, q.fail = none → ∀ y ∈ q.accs, ∀ i, i < op.words → y.reg + i < 64 → y.lane < 32 →
    ((a.vreg (y.reg + i)).owed e.pos).getLsbD y.lane = true →
    (∀ q' ∈ e.reqs, q'.fail = none → ∀ y' ∈ q'.accs, ∀ j, j < op.span → y'.lane = y.lane → y'.reg + j = y.reg + i →
      j = i ∧ y'.got = y.got) →
    (b.vreg (y.reg + i)).lane y.lane = op.wordAt y.got i ∧ ((b.vreg (y.reg + i)).owed e.pos).getLsbD y.lane = false
  others : ∀ n l, l < 32 → ((a.vreg n).owed e.pos).getLsbD l = false → (b.vreg n).lane l = (a.vreg n).lane l
  place : ∀ n, b.vreg n = { a.vreg n with lanes := (b.vreg n).lanes, prods := (b.vreg n).prods }
  rest : b = { a with v := b.v }

/-! ### Caches, spans, places, slots -/

/-- The instruction traps with this fault: the whole stream leaves at it (15 R370 "Path"). -/
def Traps (i : Instr) (s : State) (c : Ctx) (f : FaultInfo) : Prop := exec i s = .next (c.trapPath s f)

/-- The instruction waits: its stream is blocked at it until the wait ends (13 Table 13-1). -/
def Waits (i : Instr) (s : State) (c : Ctx) (w : Wait) : Prop := exec i s = .next (c.block s w)

/-- The halves of a SPILL or FILL of n registers from D on (07 R195). -/
def spanHalves (c : Ctx) (q : Quals) (d : BitVec 6) : List Half :=
  (c.halves (c.active q)).map fun h => c.half h.1 h.2 d 0 0 0 none 0

/-- The checks of a SPILL or FILL on one half (07 R197, 08 R218). -/
def spanNeed (c : Ctx) (spill : Bool) (n : Nat) (h : Half) : Need :=
  { named := Machine.span h.d n, place := .l, placeOk := (Machine.span h.d n).all fun r => (c.src.vreg r).place == .l,
    meld := false, marked := [], waits := if spill then Machine.span h.d n else [] }

/-- A request of a SPILL or FILL: register D + i, its 32 words in the line at base + 128 i (07 R195). -/
structure SpanRequest (c : Ctx) (s : State) (write : Bool) (base : DWord) (hs : List Half) (i : Nat) (r : LineReq) : Prop where
  line : ∀ t off, s.locate c.iss.core c.iss.grp c.g write false 128 .l 0 (base + BitVec.ofNat 64 (128 * i)) = .ok (t, off) →
    r.tgt = t ∧ r.stat = .todo ∧ r.fail = none
  fault : ∀ x, s.locate c.iss.core c.iss.grp c.g write false 128 .l 0 (base + BitVec.ofNat 64 (128 * i)) = .error x →
    r.stat = .done ∧ r.fail = some x
  lanes : ∀ h ∈ hs, ∀ l, l < 32 → h.act.getLsbD l = true → ∃ y ∈ r.accs, y.lane = l ∧ y.reg = h.d + i ∧ y.off = 4 * l ∧
    (write = true → y.val = ((c.src.vreg (h.d + i)).lane l).setWidth 128)
  only : ∀ y ∈ r.accs, y.lane < 32 ∧ ∃ h ∈ hs, h.act.getLsbD y.lane = true ∧ y.reg = h.d + i

/-- The registers at L with names from q up to lq read zero and are clean; no other register changes (08 R226, R227). -/
structure Discards (a b : Arch) (q lq : Nat) : Prop where
  gone : ∀ n, q ≤ n → n < lq → n < 64 → (a.vreg n).place = .l → b.vreg n = VReg.zero ∧ b.dirty.getLsbD n = false
  kept : ∀ n, (n < q ∨ lq ≤ n ∨ (a.vreg n).place ≠ .l) → b.vreg n = a.vreg n ∧ b.dirty.getLsbD n = a.dirty.getLsbD n
  rest : b = { a with v := b.v, dirty := b.dirty }

/-- As `Posts`, for an instruction that also changed the rest of the machine, from s to v. -/
def PostsIn (i : Instr) (s v : State) (c : Ctx) (op : MemOp) (a : Arch) (es : List Entry) : Prop :=
  ∃ w u, Touches v w ∧ GroupOnly c w u { groupAfter c a es with acq := if acquires op es then some c.g.seq else c.g.acq } ∧
    exec i s = .next (sendPosted c u es)

/-- One slot of a partition is x; every other slot, and everything else of the machine, is as it was. -/
structure SlotSet (s t : State) (core part o : Nat) (x : Slot) : Prop where
  slot : t.slot core part o = x
  others : ∀ n, n ≠ o → t.slot core part n = s.slot core part n
  unit : t.part core part = { s.part core part with slots := (t.part core part).slots }
  parts : ∀ k, k ≠ partKey core part → t.parts.find k = s.parts.find k
  rest : t = { s with parts := t.parts }

/-! ### Matrix operations -/

/-- A form of MMA or MMSP: sparse or not, F, the lanes, the mark of A, D, A, the slot, the index register and its
selector, and its feature bit. -/
structure MatrixForm where
  sparse : Bool
  f : Nat
  q : Quals
  ta : Bool
  d : BitVec 6
  a : BitVec 6
  slot : BitVec 6
  x : BitVec 6
  sel : BitVec 2
  feat : Option Nat

/-- MMA and MMSP (11 Table 11-1, R291). -/
def matrixForm (i : Instr) : Option MatrixForm :=
  match i with
  | .mmaE4e4 q d a b => some ⟨false, 0, q, (Quals.modx q).ta, d, a, b, 0, 0, none⟩
  | .mmaE5e4 q d a b => some ⟨false, 1, q, (Quals.modx q).ta, d, a, b, 0, 0, some 7⟩
  | .mmaE4e5 q d a b => some ⟨false, 2, q, (Quals.modx q).ta, d, a, b, 0, 0, some 7⟩
  | .mmaE5e5 q d a b => some ⟨false, 3, q, (Quals.modx q).ta, d, a, b, 0, 0, some 7⟩
  | .mmaBf16 q d a b => some ⟨false, 4, q, (Quals.modx q).ta, d, a, b, 0, 0, none⟩
  | .mmaF16 q d a b => some ⟨false, 5, q, (Quals.modx q).ta, d, a, b, 0, 0, none⟩
  | .mmaE4q4 q d a b => some ⟨false, 6, q, (Quals.modx q).ta, d, a, b, 0, 0, some 5⟩
  | .mmaI8 q d a b => some ⟨false, 7, q, (Quals.modx q).ta, d, a, b, 0, 0, none⟩
  | .mmspE4e4 g d a b x sx => some ⟨true, 0, quals g, false, d, a, b, x, sx, some 6⟩
  | .mmspBf16 g d a b x sx => some ⟨true, 1, quals g, false, d, a, b, x, sx, some 6⟩
  | .mmspI8 g d a b x sx => some ⟨true, 2, quals g, false, d, a, b, x, sx, some 6⟩
  | _ => none

/-- The halves of a matrix instruction (13 R329). -/
def matrixHalves (f : MatrixForm) (c : Ctx) : List Half :=
  (c.halves (c.active f.q)).map fun h => c.half h.1 h.2 f.d f.a 0 f.x none 0

/-- A matrix instruction may be dispatched (11 R284, R287): its halves pass Table 08-4 with their fragments and indexes
full, D is full or owed by the pass that hands it on, the group owns the slot, the slot is present, the group has fewer
than four unretired, and no older store of the group to the slot is in the way. -/
structure MatrixReady (f : MatrixForm) (c : Ctx) (s : State) : Prop where
  checks : ∀ h ∈ matrixHalves f c, c.check s (mmaNeed f.sparse f.f f.ta c h) = none
  full : ∀ h ∈ matrixHalves f c, ∀ r ∈ (mmaNeed f.sparse f.f f.ta c h).waits, (c.src.vreg r).full = true
  owner : (c.slot s f.slot).owner = some c.iss.grp
  here : (c.slot s f.slot).present = true
  dest : ∀ h ∈ matrixHalves f c, c.mmaDest (s.part c.iss.core (partOf c.iss.core c.iss.grp)) h = true
  room : (c.g.rob.filter fun (e : Entry) => match e.op with
    | .mma .. => true
    | _ => false).length < 4
  order : c.g.conflict ([0, 128, 256].map fun x =>
    Target.slot c.iss.core (partOf c.iss.core c.iss.grp) f.slot.toNat x) false = false
  some : matrixHalves f c ≠ []

/-! ### Mirmet (chapter 04) -/

/-- An AOP: the operation, the qualifiers, the frame D, the control source A where the form has one, and the bank. -/
structure AopForm where
  o : AopOp
  q : Quals
  d : BitVec 6
  a : BitVec 6
  b : BitVec 6

/-- The AOP forms (04 Table 04-9). -/
def aopForm (i : Instr) : Option AopForm :=
  match i with
  | .akey q d a => some ⟨.akey, q, d, a, 0⟩
  | .aact q d a => some ⟨.aact, q, d, a, 0⟩
  | .acmp q d => some ⟨.acmp, q, d, 0, 0⟩
  | .acmpa q d => some ⟨.acmpa, q, d, 0, 0⟩
  | .acmpo q d => some ⟨.acmpo, q, d, 0, 0⟩
  | .awrt q d => some ⟨.awrt, q, d, 0, 0⟩
  | .apass q d a => some ⟨.apass, q, d, a, 0⟩
  | .apre q d => some ⟨.apre, q, d, 0, 0⟩
  | .ardt q d b => some ⟨.ardt, q, d, 0, b⟩
  | .acnt q d => some ⟨.acnt, q, d, 0, 0⟩
  | _ => none

/-- The operations with a control source (04 Table 04-9). -/
def aopReads : AopOp → Bool
  | .akey | .aact | .apass => true
  | _ => false

def AopForm.halves (f : AopForm) (c : Ctx) : List Half :=
  (c.halves (c.active f.q)).map fun h => c.half h.1 h.2 f.d f.a 0 0 none 0

/-- The checks of an AOP on one half: D at M, A full or marked TA, no permutation of A (R107, 08 R210). -/
def AopForm.need (f : AopForm) (c : Ctx) (h : Half) : Need :=
  let m := Quals.modx f.q
  let n : Need := ⟨m.pa != 0 && c.isW f.a, [h.d], h.place, h.place == .m && m.pa == 0, [], []⟩
  if aopReads f.o then n.source m.ta h.a else n

/-- An AOP may be dispatched. -/
structure AopReady (f : AopForm) (c : Ctx) (s : State) : Prop where
  checks : ∀ h ∈ f.halves c, c.check s (f.need c h) = none
  full : ∀ h ∈ f.halves c, ∀ r ∈ (f.need c h).waits, (c.src.vreg r).full = true
  room : remotePlaces (f.halves c) = [] ∨ c.g.posts + (remotePlaces (f.halves c)).length ≤ 32
  halves : f.halves c ≠ []

/-- The words of a frame after an AOP that is not a row instruction, from the words and tags before it and the lanes of
the control source (R106). -/
def aopLane (o : AopOp) (f : VReg) (a : Nat → Word) (b l : Nat) : Word :=
  match o with
  | .akey => if l < 3 then a l else f.lane l
  | .aact =>
    if l = 3 then a 0
    else if l = 4 then f.lane 4 &&& ~~~ 0x700
    else if l = 5 then (if (a 1).extractLsb' 0 8 = 0 then 0xFF else (a 1).extractLsb' 0 8 |>.setWidth 32)
    else f.lane l
  | .apre => if l = 3 then 0xFFFFFFFF else f.lane l
  | .ardt => if 16 ≤ l ∧ l < 24 then (f.tags.getD b 0).extractLsb' (32 * (l - 16)) 32 else f.lane l
  | .acnt => if 8 ≤ l ∧ l < 16 then
      BitVec.ofNat 32 ((List.range 256).countP fun c => (f.tags.getD (l - 8) 0).getLsbD c) else f.lane l
  | _ => f.lane l

/-- A column of a row instruction: the word and the tag after it, from those before it (R106). -/
def rowColumn (o : AopOp) (f : VReg) (a0 a1 w : Word) (t : Bool) : Word × Bool :=
  let key := f.lane 0
  let mask := f.lane 1
  let test := decide ((w ^^^ key) &&& mask = 0)
  match o with
  | .acmp => (w, test)
  | .acmpa => (w, t && test)
  | .acmpo => (w, t || test)
  | .awrt => (if t then (w &&& ~~~ mask) ||| (f.lane 2 &&& mask) else w, t)
  | .apass =>
    let pa := (a0.extractLsb' 0 5).toNat
    let pb := (a0.extractLsb' 8 5).toNat
    let po := (a0.extractLsb' 16 5).toNat
    let x := 4 * (w.getLsbD pa).toNat + 2 * (w.getLsbD pb).toNat + t.toNat
    (if a1.getLsbD x then w ||| ((1 : Word) <<< po) else w &&& ~~~ ((1 : Word) <<< po), a1.getLsbD (8 + x))
  | _ => (w, t)

/-- The four bytes at an address as a word. -/
def memWord (s : State) (a : Nat) : Word :=
  Memory.byte s.mem (a + 3) ++ Memory.byte s.mem (a + 2) ++ Memory.byte s.mem (a + 1) ++ Memory.byte s.mem a

/-- One row instruction on a frame f with the control words a0, a1: v is the memory after it, g' the group (R106). Every
column of the enabled banks gets its word, for AWRT and APASS, and its tag; one with an uncorrectable error keeps its word
and loses its tag; every other byte and tag is as it was; SUBW is the number of sub-waves. -/
structure RowDone (o : AopOp) (f : VReg) (a0 a1 : Word) (waves : Nat) (s v : State) (r : VReg) : Prop where
  words : ∀ j c, j < 8 → c < 256 →
    let a := dramCell f.unit.1 f.unit.2 (8 + j) (f.lane 3).toNat (4 * c)
    let bad := ∃ x ∈ s.ue, a ≤ x ∧ x < a + 4
    memWord v a = (if ((o = .awrt ∨ o = .apass) ∧ (f.lane 5).getLsbD j = true ∧ ¬ bad)
      then (rowColumn o f a0 a1 (memWord s a) ((f.tags.getD j 0).getLsbD c)).1 else memWord s a)
  rest : ∀ a, (∀ j, j < 8 → (f.lane 5).getLsbD j = true →
      a < dramCell f.unit.1 f.unit.2 (8 + j) (f.lane 3).toNat 0 ∨ dramCell f.unit.1 f.unit.2 (8 + j) (f.lane 3).toNat 1023 < a) →
    Memory.byte v.mem a = Memory.byte s.mem a
  tags : ∀ j c, j < 8 → c < 256 →
    let a := dramCell f.unit.1 f.unit.2 (8 + j) (f.lane 3).toNat (4 * c)
    let bad := ∃ x ∈ s.ue, a ≤ x ∧ x < a + 4
    ((r.tags.getD j 0).getLsbD c = true ↔ if (f.lane 5).getLsbD j = true
      then ¬ bad ∧ (rowColumn o f a0 a1 (memWord s a) ((f.tags.getD j 0).getLsbD c)).2 = true
      else (f.tags.getD j 0).getLsbD c = true)
  lanes : ∀ l, l < 32 → l ≠ 4 → r.lane l = f.lane l
  subw : (r.lane 4).extractLsb' 0 8 = BitVec.ofNat 8 waves
/-! ### Copies (chapter 06) -/

/-- A channel with these operations, the first of them started: WP is then its destination, and w before (06 R151). -/
def QueueIs (y : Channel) (ops : List CopyOp) (w : DWord) : Prop :=
  (ops = [] → y.ops = [] ∧ y.wp = w) ∧
  ∀ o r, ops = o :: r → y.ops = { o with begun := true } :: r ∧ y.wp = if o.begun then w else o.dst

/-! ### Teams (chapters 06 and 14) -/

/-- The issuing group's team is t; nothing else of the machine differs from s. -/
structure TeamSet (c : Ctx) (s u : State) (t : Team) : Prop where
  here : u.team c.g = some t
  others : ∀ k, some k ≠ c.g.team → u.teams.find k = s.teams.find k
  rest : u = { s with teams := u.teams }

/-- The instruction completes: coupling q of the team t is x, the registers are a, and nothing else changed. -/
def SetsCoupling (i : Instr) (s : State) (c : Ctx) (t : Team) (q : Nat) (x : Coupling) (a : Arch) : Prop :=
  ∃ u, TeamSet c s u { t with qs := t.qs.set q x } ∧ EndsIn i s u c a []

/-- The instruction completes: barrier b of the team t is x, and nothing else changed. -/
def SetsBarrier (i : Instr) (s : State) (c : Ctx) (t : Team) (b : Nat) (x : Barrier) : Prop :=
  ∃ u, TeamSet c s u { t with bars := t.bars.set b x } ∧ EndsIn i s u c c.g.arch []

/-- The phase of barrier b of the team t has completed: the paths that waited for it wait no longer, and nothing else
changes (14 R364). -/
structure PassedBy (t : Team) (b : Nat) (u v : State) : Prop where
  rest : v = { u with groups := v.groups }
  others : ∀ k, (∀ n ∈ t.groups, k ≠ groupKey t.core n) → v.groups.find k = u.groups.find k
  paths : t.groups.Nodup → ∀ n ∈ t.groups, ∀ h, u.group t.core n = some h → ∃ h', v.group t.core n = some h' ∧
    h'.arch = { h.arch with paths := h'.arch.paths } ∧ ∀ i ∈ h.arch.valid,
      h'.arch.path i = if (h.arch.path i).state = .blocked ∧ (h.arch.path i).wait = some (.barrier b)
        then { h.arch.path i with wait := some (.passed b) } else h.arch.path i

/-- The rules every coupling keeps (06 R160). -/
def Coupling.Sound (x : Coupling) : Prop :=
  (x.opened = true → x.allow + x.handles.length + x.ret = x.depth) ∧ (x.defer = false → x.ret = 0)

/-- A group's arrival of weight w at a barrier (14 R364, R365): the phase completes with the last one. -/
structure Arrives (x y : Barrier) (g w : Nat) : Prop where
  count : y.count = x.count
  whole : x.arr + w = x.count → y.arr = 0 ∧ y.phase = !x.phase ∧ y.arrived = 0
  part : x.arr + w ≠ x.count → y.arr = x.arr + w ∧ y.phase = x.phase ∧
    ∀ n, n < 32 → y.arrived.getLsbD n = (x.arrived.getLsbD n || decide (n = g))
  last : ∀ n, n < 32 → y.last.getLsbD n = if n = g then x.phase else x.last.getLsbD n

/-! ### System registers and the window (chapter 15) -/

/-- As `EndsIn`, for a window instruction, which also sets %wstat.ERR. -/
def EndsErr (i : Instr) (s u : State) (c : Ctx) (a : Arch) (e : BitVec 4) : Prop :=
  ∃ t, exec i s = .next t ∧ GroupOnly c u t { groupAfter c a [] with werr := e }

/-- The value MFS gives of register b (15 Table 15-11), for a stream c of the machine s. -/
structure SysValue (c : Ctx) (s : State) (b : Nat) (v : DWord) : Prop where
  caps : b = 0x00 ∨ b = 0x01 → v = ((if isRanene c.iss.core then Config.features else ((s.launch c.g).map (·.caps)).getD (s.caps c.g.vi)) >>> (64 * b)).setWidth 64
  wid : b = 0x02 → v = s.wid c.g
  fcr : b = 0x03 → v = c.src.fcr
  fsr : b = 0x04 → v = c.g.arch.fsr
  dph : b = 0x05 → v = c.src.dph.setWidth 64
  vt : (b = 0x06 → v = BitVec.ofNat 64 c.g.vtClu) ∧ (b = 0x07 → v = BitVec.ofNat 64 c.g.vtDev) ∧
    (b = 0x08 → v = BitVec.ofNat 64 c.g.vtSys)
  time : b = 0x09 → v = BitVec.ofNat 64 s.ns
  names : (b = 0x0A → v = BitVec.ofNat 64 c.iss.grp) ∧ (b = 0x0B → v = BitVec.ofNat 64 (s.teamNumber c.g)) ∧
    (b = 0x0C → v = partReg c.iss.core c.iss.grp)
  state : (b = 0x0D → v = quotaWord c.g) ∧ (b = 0x0E → v = c.g.arch.dirty) ∧ (b = 0x0F → v = npathWord c.g.arch)
  window : isRanene c.iss.core = true → (b = 0x10 → v = c.g.wsel) ∧ (b = 0x11 → v = s.wstat c.iss.core c.g)
  noWindow : isRanene c.iss.core = false → (b = 0x10 ∨ b = 0x11 → v = 0)
  priv : b = 0x12 → v = if isRanene c.iss.core then 1 else 0
  floor : b = 0x13 → v = BitVec.ofNat 64 c.g.floor
  debug : isRanene c.iss.core = false → (b = 0x18 → v = (s.ctx c.g.vi).dbgctl) ∧ (b = 0x19 → v = (s.ctx c.g.vi).bkpc) ∧
    (b = 0x1B → v = (s.ctx c.g.vi).trcbase) ∧ (b = 0x1C → v = s.counter c.g.vi c.g.dbgsel.toNat) ∧
    (b = 0x1D → v = (s.ctx c.g.vi).cxLo) ∧ (b = 0x1E → v = (s.ctx c.g.vi).cxHi)
  shortcuts : b / 16 = 2 → let die := dieOfCore c.iss.core
    (b = 0x20 → v = BitVec.ofNat 64 die) ∧ (b = 0x21 → v = (s.diesOf die).setWidth 64) ∧ (b = 0x22 → v = s.mr (fqReg die 3)) ∧
    (b = 0x23 → v = s.mr (evqReg die 3)) ∧ (b = 0x24 → v = s.mgmtStatus) ∧ (0x25 ≤ b → v = 0)
  zero : (0x14 ≤ b ∧ b ≤ 0x17) ∨ b / 16 = 3 → v = 0

/-- What WINRD gives of item i of a group (15 Table 15-6, R380): the error code and the value. -/
structure WinValue (h : Group) (i : Nat) (e : BitVec 4) (v : DWord) : Prop where
  scalars : ∀ n : BitVec 6, i = n.toNat → e = 0 ∧ v = h.arch.sreg n
  preds : ∀ n : BitVec 6, i = 0x40 + n.toNat → e = 0 ∧ v = (h.arch.preg n).setWidth 64
  lanes : ∀ n l, n < 64 → l < 32 → i = 0x80 + 32 * n + l → e = 0 ∧ v = ((h.arch.vreg n).lane l).setWidth 64
  places : ∀ n, n < 64 → i = 0x880 + n → e = 0 ∧ v = mapWord h.arch n
  control : (i = 0x8C0 → e = 0 ∧ v = h.arch.fcr) ∧ (i = 0x8C1 → e = 0 ∧ v = h.arch.fsr) ∧
    (i = 0x8C2 → e = 0 ∧ v = h.arch.dph.setWidth 64) ∧ (i = 0x8C3 → e = 0 ∧ v = h.arch.dirty) ∧
    (i = 0x8C4 → e = 0 ∧ v = quotaWord h) ∧ (i = 0x8C5 → e = 0 ∧ v = npathWord h.arch) ∧
    (i = 0x8C6 → e = 0 ∧ v = BitVec.ofNat 64 h.floor)
  paths : ∀ n w, n < 32 → w < 0x80 → i = 0x1000 + 0x80 * n + w → e = 0 ∧ v = (h.arch.path n).word n w
  others : (0x8C7 ≤ i ∧ i < 0x1000) ∨ 0x2000 ≤ i → e = 1 ∧ v = 0

/-- What WINWR of x to item i does to a group (15 Table 15-6, R380): the error code and the group after it. A failed write
writes nothing. -/
structure WinWrites (h : Group) (i : Nat) (x : DWord) (e : BitVec 4) (g : Group) : Prop where
  failed : e ≠ 0 → g = h
  scalars : ∀ n : BitVec 6, i = n.toNat → e = 0 ∧ WritesS h.arch g.arch n x ∧ g = { h with arch := g.arch }
  preds : ∀ n : BitVec 6, n ≠ 0 → i = 0x40 + n.toNat →
    e = 0 ∧ WritesP h.arch g.arch n (BitVec.allOnes 32) (x.setWidth 32) ∧ g = { h with arch := g.arch }
  p0 : i = 0x40 → e = 2
  lanes : ∀ n l, n < 64 → l < 32 → i = 0x80 + 32 * n + l →
    ((h.lq ≤ n ∧ (h.arch.vreg n).place = .l) → e = 4) ∧
    (¬ (h.lq ≤ n ∧ (h.arch.vreg n).place = .l) → e = 0 ∧ (g.arch.vreg n).prods = [] ∧ g.arch.dirty.getLsbD n = true ∧
      (∀ k, k < 32 → (g.arch.vreg n).lane k = if k = l then x.setWidth 32
        else if h.arch.dirty.getLsbD n then (h.arch.vreg n).lane k else 0) ∧
      (g.arch.vreg n).place = (h.arch.vreg n).place ∧ (∀ k, k ≠ n → g.arch.vreg k = h.arch.vreg k) ∧
      g.arch = { h.arch with v := g.arch.v, dirty := g.arch.dirty } ∧ g = { h with arch := g.arch })
  readOnly : (0x880 ≤ i ∧ i < 0x8C0) ∨ (0x8C3 ≤ i ∧ i < 0x8C7) → e = 2
  fcr : i = 0x8C0 → (5 ≤ x.toNat % 8 → e = 7) ∧ (x.toNat % 8 < 5 → e = 0 ∧ g = { h with arch := { h.arch with fcr := x &&& 0x1F7 } })
  fsr : i = 0x8C1 → e = 0 ∧ g = { h with arch := { h.arch with fsr := x &&& 0x1F0 } }
  dph : i = 0x8C2 → e = 0 ∧ g = { h with arch := { h.arch with dph := x.setWidth 16 } }
  paths : ∀ n w, n < 32 → w < 0x80 → i = 0x1000 + 0x80 * n + w →
    let p := h.arch.path n
    let put := fun (p' : Path) => e = 0 ∧ g = { h with arch := h.arch.setPath n p' }
    (p.valid = false ∨ p.state ≠ .siding ∨ w = 0 ∨ 5 < w → e = 2) ∧
    (p.valid = true → p.state = .siding →
      (w = 1 → put { p with pn := x, slot := 0 }) ∧
      (w = 2 → let em : Mask := x.extractLsb' 32 32
        (em &&& ~~~ p.mask ≠ 0 → e = 7) ∧ (em &&& ~~~ p.mask = 0 → put { p with em := em })) ∧
      (w = 3 → put { p with map := mapOfNat (p.mapNat / 2 ^ 64 * 2 ^ 64 + x.toNat) }) ∧
      (w = 4 → put { p with map := mapOfNat (p.mapNat % 2 ^ 64 + x.toNat % 2 ^ 32 * 2 ^ 64) }) ∧
      (w = 5 → put { p with spil := if x.getLsbD 12 then some (x.toNat / 2 ^ 8 % 16) else none, cause := x.setWidth 8 }))
  others : (0x8C7 ≤ i ∧ i < 0x1000) ∨ 0x2000 ≤ i → e = 1
/-! ### Homes (chapter 05) -/

/-- The event ev of the message m is looked up at its home now, in the machine u: the home is not waiting for a row
instruction, the page of the line is in no flip and asks for none, the line is cached, its directory word is sound and not
under recovery, and an answer belongs to the transaction of the line (R124, R125, R137, 17 R423). -/
structure AtHome (u : State) (m : Msg) (ev : Event) : Prop where
  free : u.unitBusy m.line = false
  taken : u.admits m = true
  cached : (u.imageOf m.line).unc = false
  noFlip : u.flipOf m.part (m.line / 4096) = none
  bias : u.bias m.part (m.line / 4096) < 2
  hostBias : ev = .hget → u.bias m.part (m.line / 4096) = 1
  sound : dirRead (u.home m.part m.line).dir = .clean (u.home m.part m.line).dir
  whole : (u.home m.part m.line).ueData = none
  live : ev.isAnswer = true → ∃ t, (u.home m.part m.line).txn = some t ∧ t.2 = m.tag ∧ t.1.rvt ≠ m.peer + 1

/-- The event as it is looked up: a GETU of a sender that no pointer records is a GETM (R125). -/
def lookedUp (ev : Event) (d : Dir) (m : Msg) : Event := if ev = .getu ∧ d.records m.peer = false then .getm else ev

/-- The request that an event serves: a request itself, an answer the transaction's (R124). -/
def servedRequest (ev : Event) (h : HomeLine) (m : Msg) (tag : Nat) : Msg × Nat :=
  if ev.isRequest then (m, tag) else h.txn.getD (m, tag)

/-- The event that a request is. -/
def requestEvent (m : Msg) (ev : Event) : Event :=
  match m.kind with
  | .home x => x
  | _ => ev

/-- Beside the line's own entry only the network, the tags, the counts of fills, the rows of a compute bank the line lies in, the
management events and the host's answer can have changed. -/
structure HomeOnly (s t : State) (part line : Nat) : Prop where
  rest : t = { s with net := t.net, homes := t.homes, tag := t.tag, acct := t.acct, corrected := t.corrected, units := t.units,
                      mgmt := { s.mgmt with evWait := t.mgmt.evWait }, out := { s.out with answer := t.out.answer } }
  others : ∀ n, n ≠ homeKey part line → t.homes.find n = s.homes.find n
  rows : isCompute line = false → t.units = s.units

/-- What a PUTM leaves of a transaction: it stands for the owner's answer to a forward (R124, R136). -/
def putmTxn (ev : Event) (m : Msg) (txn : Option (Msg × Nat)) : Option (Msg × Nat) :=
  if ev = .putm then txn.map fun t => ({ t.1 with rvt := m.peer + 1 }, t.2) else txn

/-- The home copy that READ_MEM gives, and its poison: what the home holds, or the line of DRAM (R121). -/
def HomeCopy (s : State) (part line : Nat) (v : Line) (p : Bool) : Prop :=
  ((s.home part line).here = true ∧ v = (s.home part line).data ∧ p = (s.home part line).poison) ∨
  ((s.home part line).here = false ∧ ∃ c, s.dpaKind part line = .dram c ∧ (v, p) = s.cellLine c)

/-- A message to an agent that a directory entry records, which SET_ACKS counts. -/
def Counted (x : Msg) : Bool :=
  match x.kind with
  | .inv | .upd | .fwd _ | .bisnp => true
  | _ => false

/-- An entry e that does not wait has acted for the event ev of the message m on a line whose directory entry
was d (R121 to R125, R134, R135): from the state s, in which the message is off the network, to t. Its sends are `out`; `req`
is the request it serves, and `tag` the tag of the transaction. -/
structure EntryActs (s t : State) (ev : Event) (m : Msg) (e : Word) (d : Dir) (req : Msg) (tag : Nat) (out : List Msg) : Prop where
  only : HomeOnly s t m.part m.line
  -- the directory entry
  entry : let h := s.home m.part m.line
    let h' := t.home m.part m.line
    let img := s.imageOf m.line
    let unc := requestEvent req ev = .ncr ∨ requestEvent req ev = .ncw
    let nxt := e.toNat % 16
    ∃ d' : Dir, h'.dir = d'.pack ∧
      d'.state = (if img.inShare nxt = true ∧ img.inTransient nxt = false ∧ d'.coarse = false ∧ d'.ptrs = [] then 0 else nxt) ∧
      d'.h = (act e 18 || (!act e 19 && d.h)) ∧
      d'.acks = (if act e 5 then (out.filter Counted).length else if act e 6 then d.acks - 1 else d.acks) ∧
      (act e 8 = true → ¬ unc → req.peer < 72 → d'.coarse = false ∧ d'.o = true ∧ d'.ptrs = [req.peer]) ∧
      (act e 7 = true → act e 8 = false → ¬ unc → req.peer < 72 → d'.o = false ∧ req.peer ∈ d'.agents) ∧
      (((act e 7 = false ∧ act e 8 = false) ∨ unc ∨ 72 ≤ req.peer) →
        (act e 9 = true → d'.coarse = false ∧ d'.o = false ∧ d'.ptrs = []) ∧
        (act e 9 = false → d'.coarse = d.coarse ∧ d'.o = d.o ∧ d'.ptrs = d.ptrs ∧ d'.vec = d.vec)) ∧
      (let stays := img.inTransient d'.state
       h'.queue = (if d'.state = d.state then h.queue else []) ∧ h'.ueWait = (if stays then h.ueWait else []) ∧
       t.net = (if stays then [] else h.ueWait) ++ (if d'.state = d.state then [] else h.queue) ++ s.net ++ out) ∧
      (img.inTransient d'.state = false → h'.txn = none) ∧
      (img.inTransient d'.state = true → ev.isRequest = true → h'.txn = some (m, s.tag)) ∧
      (img.inTransient d'.state = true → ev.isRequest = false → h'.txn = putmTxn ev m h.txn)
  -- the messages to the agents that the entry records
  sends : let one := fun (k : MsgKind) (p : Nat → Prop) =>
      (∀ a, (∃ x ∈ out, x.kind = k ∧ x.peer = a) ↔ p a) ∧
      (∀ x ∈ out, x.kind = k → x.part = m.part ∧ x.line = m.line ∧ x.tag = tag)
    one .inv (fun a => act e 2 = true ∧ a ∈ d.agents ∧ (a ≠ req.peer ∨ ev = .ue)) ∧
    one .upd (fun a => act e 3 = true ∧ a ∈ d.agents ∧ a ≠ req.peer) ∧
    (∀ x ∈ out, x.kind = .upd → x.data = m.data ∧ x.mask = m.mask) ∧
    one (.fwd (requestEvent req ev)) (fun a => act e 4 = true ∧ d.o = true ∧ d.ptrs.head? = some a) ∧
    one .bisnp (fun a => act e 17 = true ∧ d.h = true ∧ ¬ (ev = .hsnp ∧ act e 19 = true) ∧
      ∃ p ∈ portsOf (s.diesOf m.part), a = 76 + p)
  -- the home copy
  copy : let h := s.home m.part m.line
    let h' := t.home m.part m.line
    let re := requestEvent req ev
    (act e 10 = true → m.full = true → act e 16 = false → h'.here = true ∧ h'.dirty = true ∧ h'.data = m.data) ∧
    (∀ v p, HomeCopy s m.part m.line v p →
      (act e 10 = true → m.full = false → act e 16 = false → h'.dirty = true ∧ h'.data = Line.merge v m.data m.mask ∧
        (m.mask = BitVec.allOnes 128 → act e 20 = false → h'.poison = false)) ∧
      (act e 10 = false → act e 16 = false → act e 11 = true → h'.here = true ∧ h'.data = v) ∧
      (act e 10 = false → act e 16 = true → h'.here = true ∧
        (p = true → ¬ (re = .ncw ∧ req.mask = BitVec.allOnes 128) → h'.data = v) ∧
        (p = false → re ≠ .ncw → ∀ op, req.mop = some op → h'.dirty = true ∧ h'.data = (performAccs op v req.accs).1) ∧
        (p = false ∨ req.mask = BitVec.allOnes 128 → re = .ncw → h'.dirty = true ∧ h'.data = Line.merge v req.data req.mask)) ∧
      (ev ≠ .ue → t.mgmt.evWait = if act e 23 then (s.lineEvent 3 ev m.part m.line d.state).mgmt.evWait else s.mgmt.evWait)) ∧
    (act e 10 = false → act e 11 = false → act e 16 = false → h'.here = h.here ∧ h'.data = h.data ∧ h'.dirty = h.dirty) ∧
    (act e 20 = true → h'.poison = true) ∧
    h'.lease = if act e 14 = true ∧ re ≠ .ncr ∧ re ≠ .ncw then some (max (h.lease.getD 0) (s.ns + s.lineLease m.line))
      else h.lease
  -- the reply
  reply : let re := requestEvent req ev
    let h' := t.home m.part m.line
    let unc := re = .ncr ∨ re = .ncw
    let repl := act e 21 = true ∧ ¬ unc ∧ s.lineRepl m.line = true ∧ s.rangeOf m.line ≠ none
    let cls := if unc then 4 else if act e 1 then 1 else if act e 22 then 4 else if act e 0 ∧ act e 14 then 2 else 0
    (act e 13 = true →
      let code := if act e 23 = true ∧ re ∈ [Event.getm, .getu, .atom, .ncw] then 6 else 5
      ∃ sent, out = sent ++ (if re.replied then
        [{ req with kind := .reply re, full := false, excl := false, cls := code, granted := s.ns }] else []) ∧
        ∀ x ∈ sent, Counted x = true) ∧
    (act e 13 = false → re ≠ .recall → re ≠ .ue → re ≠ .hget → ¬ repl → req.line = m.line →
      (act e 0 = true ∨ act e 1 = true ∨ act e 21 = true ∨ act e 22 = true →
        ∃ x ∈ out, x.kind = .reply re ∧ x.part = req.part ∧ x.line = m.line ∧ x.peer = req.peer ∧ x.ref = req.ref ∧
          x.excl = act e 1 ∧ x.cls = cls ∧ ((re ≠ .getu ∨ d.records req.peer = false) → x.data = h'.data)) ∧
      (act e 0 = false → act e 1 = false → act e 21 = false → act e 22 = false → ∀ x ∈ out, ∀ k, x.kind ≠ .reply k)) ∧
    (act e 13 = false → re = .hget → act e 0 = true → ∃ p,
      let o := if req.mask.getLsbD 64 then 64 else 0
      t.out.answer = some ⟨1, req.line + o, p, ((Line.toBytes h'.data).drop o).take 64⟩)

/-! ### Walks and runs (chapters 14 and 15) -/

/-- A walk of `va` finds these entries, from level `lvl` (5 for L5) with its table at `t` down to the leaf (15 R382, R383). -/
def WalkChain (s : State) (part va : Nat) : Nat → Nat → List DWord → Prop
  | _, _, [] => False
  | lvl, t, e :: r =>
    let found := s.tableEntry part (t + 8 * (va / 2 ^ (12 + 9 * (lvl - 1)) % 512)) = some e
    let good := e.getLsbD 0 = true ∧ e.toNat / 2 ^ 52 = 0 ∧ e.toNat / 2 ^ 7 % 2 ^ 5 = 0 ∧ e.getLsbD 4 = false ∧ (e.getLsbD 2 = true → e.getLsbD 1 = true) ∧ e.getLsbD 6 = false
    let pfn := e.toNat / 2 ^ 12 % 2 ^ 40 * 4096
    0 < lvl ∧ found ∧ good ∧ (match r with
      | [] => e.getLsbD 5 = true ∧ lvl ≤ 3 ∧ pfn % 2 ^ (12 + 9 * (lvl - 1)) = 0
      | _ => e.getLsbD 5 = false ∧ 1 < lvl ∧ WalkChain s part va (lvl - 1) pfn r)

/-- No entry of a machine's ready streams is in two of them. -/
def StreamsApart (s : State) (core : Nat) (xs : List (Nat × Nat × Nat)) : Prop :=
  xs.Pairwise fun y z => y.1 = z.1 → ∀ g, s.group core y.1 = some g → ∀ i ∈ g.arch.stream y.2.1, i ∉ g.arch.stream z.2.1

end Sys2Proof.Safety
end

