-- ==== Sys2Proof/Laws/Run.lean ====
section
/-!
SUPPORT. What the shared operations that run an instruction can do: the decode checks, the outcomes of `runWith`, and the
end of an instruction.
-/
namespace Sys2Proof.Machine

open Sys2Proof.Safety

/-! ### Tables: updates do not disturb what they do not name -/

theorem setGroup_find_same (s : State) (core grp : Nat) (g : Group) : (s.setGroup core grp g).group core grp = some g := by
  simp [State.setGroup, State.group]

theorem setGroup_find_other (s : State) (core grp : Nat) (g : Group) {k : Nat} (h : k ≠ groupKey core grp) :
    (s.setGroup core grp g).groups.find k = s.groups.find k := by
  simp [State.setGroup, Table.find_put_other _ _ h]

/-- Two writes of one group leave the second. -/
theorem setGroup_setGroup (s : State) (core grp : Nat) (g h : Group) :
    (s.setGroup core grp g).setGroup core grp h = s.setGroup core grp h := by
  simp [State.setGroup, Table.put_put_same]

/-! ### The context of the issuing stream -/

theorem issues_iss {s : State} {c : Ctx} (h : Issues s c) : s.iss = some c.iss := by
  unfold Issues State.issueCtx at h
  split at h
  · cases h
  · rename_i i hi
    split at h
    · cases h
    · cases h; exact hi

theorem issues_group {s : State} {c : Ctx} (h : Issues s c) : s.group c.iss.core c.iss.grp = some c.g := by
  unfold Issues State.issueCtx at h
  split at h
  · cases h
  · split at h
    · cases h
    · rename_i g hg
      cases h; exact hg

theorem issues_ents {s : State} {c : Ctx} (h : Issues s c) : c.ents = c.src.stream c.iss.ent := by
  unfold Issues State.issueCtx at h
  split at h
  · cases h
  · split at h
    · cases h
    · cases h; rfl

/-! ### Running -/

theorem allowed_decodeTrap {s : State} {c : Ctx} {feat : Option Nat} {priv : Bool} (h : Allowed s c feat priv) :
    decodeTrap s c.iss c.g feat priv = none := by
  obtain ⟨h1, h2⟩ := h
  unfold decodeTrap
  cases feat with
  | none => cases priv <;> simp_all
  | some b => have := h1 b rfl; cases priv <;> simp_all

theorem runWith_ok {s t : State} {c : Ctx} {feat : Option Nat} {priv : Bool} {body : Ctx → State → Except Stop State}
    (h : Issues s c) (hd : Allowed s c feat priv) (hb : body c s = .ok t) : runWith feat priv s body = .next t := by
  unfold Issues at h
  simp only [runWith, h, allowed_decodeTrap hd, hb]

theorem runWith_wait {s : State} {c : Ctx} {feat : Option Nat} {priv : Bool} {body : Ctx → State → Except Stop State}
    {w : Wait} (h : Issues s c) (hd : Allowed s c feat priv) (hb : body c s = .error (.wait w)) :
    runWith feat priv s body = .next (c.block s w) := by
  unfold Issues at h
  simp only [runWith, h, allowed_decodeTrap hd, hb]

theorem runWith_trap {s : State} {c : Ctx} {feat : Option Nat} {priv : Bool} {body : Ctx → State → Except Stop State}
    {f : FaultInfo} (h : Issues s c) (hd : Allowed s c feat priv) (hb : body c s = .error (.trap f)) :
    runWith feat priv s body = .next (c.trapPath s f) := by
  unfold Issues at h
  simp only [runWith, h, allowed_decodeTrap hd, hb]

/-- A form every launch may use. -/
theorem allowed_all (s : State) (c : Ctx) : Allowed s c none false := ⟨by simp, by simp⟩

theorem runThen_ok {s t : State} {c : Ctx} {body : Ctx → State → Except Stop State} (h : Issues s c)
    (hb : body c s = .ok t) : runThen s body = .next (c.finish t) := by
  unfold runThen run
  exact runWith_ok h (allowed_all s c) (by simp [hb, Except.map])

theorem runPriv_ok {s t : State} {c : Ctx} {body : Ctx → State → Except Stop State} (h : Issues s c)
    (hp : isRanene c.iss.core = true) (hb : body c s = .ok t) : runPriv s body = .next (c.finish t) := by
  unfold runPriv
  exact runWith_ok h ⟨by simp, fun _ => hp⟩ (by simp [hb, Except.map])

/-! ### The end of an instruction -/

theorem sweepRuns_eq (s : State) (core grp : Nat) :
    s.sweepRuns core grp = { s with running := (s.sweepRuns core grp).running } := by
  unfold State.sweepRuns; split <;> rfl

/-- Sweeping takes out streams of one group only. -/
theorem sweepRuns_mem (s : State) (core grp : Nat) {r : Nat × Nat × Nat} (h : r.1 ≠ core ∨ r.2.1 ≠ grp) :
    r ∈ (s.sweepRuns core grp).running ↔ r ∈ s.running := by
  unfold State.sweepRuns
  split <;> simp [List.mem_filter] <;> intro _ <;> rcases h with h | h <;> simp [h]

/-- Sweeping a machine in which only the group was replaced. -/
theorem sweep_only (s : State) (c : Ctx) (g : Group) :
    GroupOnly c s ({ (s.setGroup c.iss.core c.iss.grp g).sweepRuns c.iss.core c.iss.grp with iss := none }) g := by
  refine ⟨?_, ?_, ?_, ?_, ?_⟩
  · rw [sweepRuns_eq]; simp [State.group, State.setGroup]
  · intro k hk; rw [sweepRuns_eq]; simpa using setGroup_find_other s _ _ _ hk
  · rw [sweepRuns_eq]; rfl
  · intro r hr; exact sweepRuns_mem (s.setGroup c.iss.core c.iss.grp g) _ _ hr
  · intro a; rw [sweepRuns_eq]; simp

theorem withAfter_eq (pos : Nat) (a : Arch) :
    (fun (e : Entry) => if e.pos == pos then { e with after := a } else e) = fun e => Entry.withAfter e pos a := by
  funext e; simp [Entry.withAfter, beq_iff_eq]

/-- What `finish` is where the group is known. -/
theorem finish_eq {s : State} {c : Ctx} {g : Group} (hg : s.group c.iss.core c.iss.grp = some g) :
    c.finish s = { (s.setGroup c.iss.core c.iss.grp { g with
      arch := c.advanceArch g.arch, seq := c.g.seq + 1,
      rob := g.rob.map fun e => Entry.withAfter e c.g.seq (c.advanceArch g.arch) }).sweepRuns c.iss.core c.iss.grp with
        iss := none } := by
  unfold Ctx.finish
  simp only [hg, withAfter_eq]

/-- After the group is replaced, the end of the instruction moves the stream on and touches nothing outside the group. -/
theorem finish_put {s : State} {c : Ctx} (g : Group) :
    GroupOnly c s (c.finish (c.put s g))
      { g with arch := c.advanceArch g.arch, seq := c.g.seq + 1,
               rob := g.rob.map fun e => Entry.withAfter e c.g.seq (c.advanceArch g.arch) } := by
  rw [Ctx.put, finish_eq (g := g) (setGroup_find_same ..), setGroup_setGroup]
  exact sweep_only s c _

/-- The end of an instruction that leaves the registers `a` and adds `es` to the retire window. -/
theorem finish_arch {s : State} {c : Ctx} (a : Arch) (es : List Entry) :
    GroupOnly c s (c.finish (c.put s { c.g with arch := a, rob := c.g.rob ++ es })) (groupAfter c a es) :=
  finish_put _

/-- The end of an instruction that changes nothing of the machine but its stream's place. -/
theorem finish_same {s : State} {c : Ctx} (h : Issues s c) : GroupOnly c s (c.finish s) (groupAfter c c.g.arch []) := by
  rw [finish_eq (issues_group h)]
  simpa [groupAfter] using sweep_only s c _

theorem finish_putArch {s : State} {c : Ctx} (a : Arch) :
    GroupOnly c s (c.finish (c.putArch s a)) (groupAfter c a []) := by
  simpa [Ctx.putArch, groupAfter] using finish_put (s := s) (c := c) { c.g with arch := a }

/-! ### Register writes -/

theorem writesS_setS (a : Arch) (d : BitVec 6) (x : DWord) : WritesS a (a.setS d x) d x := by
  refine ⟨?_, ?_, ?_, ?_⟩
  · unfold Arch.sreg Arch.setS; split <;> simp
  · intro n hn
    unfold Arch.sreg Arch.setS
    split
    · rfl
    · split
      · rfl
      · have : d.toNat ≠ n.toNat := fun e => hn (BitVec.eq_of_toNat_eq e.symm)
        simp [Vector.getElem_set, this]
  · unfold Arch.setS; split <;> rfl
  · unfold Arch.setS; split <;> rfl

theorem writesP_setP (a : Arch) (d : BitVec 6) (m x : Mask) : WritesP a (a.setP d m x) d m x := by
  refine ⟨?_, ?_, ?_⟩
  · intro l hl
    unfold Arch.preg Arch.setP
    split
    · have : ∀ l : Fin 32, (0xFFFFFFFF : Mask).getLsbD l = true := by decide
      simpa using this ⟨l, hl⟩
    · simp only [Vector.getElem_set, if_true, BitVec.getLsbD_or, BitVec.getLsbD_and, BitVec.getLsbD_not, hl, decide_true,
        Bool.true_and]
      rename_i hd
      have hp : a.preg d = a.p[d.toNat]'(d.isLt) := by unfold Arch.preg; rw [if_neg hd]
      rw [hp]
      cases m.getLsbD l <;> cases x.getLsbD l <;> simp
  · intro n hn
    unfold Arch.preg Arch.setP
    split
    · rfl
    · split
      · rfl
      · have : d.toNat ≠ n.toNat := fun e => hn (BitVec.eq_of_toNat_eq e.symm)
        simp [Vector.getElem_set, this]
  · unfold Arch.setP; split <;> rfl

theorem vreg_setV_same (a : Arch) {n : Nat} (r : VReg) (h : n < 64) : (a.setV n r).vreg n = r := by
  simp [Arch.vreg, Arch.setV, Vector.getElem?_setIfInBounds, h]

theorem vreg_setV_other (a : Arch) {n k : Nat} (r : VReg) (h : k ≠ n) : (a.setV n r).vreg k = a.vreg k := by
  simp only [Arch.vreg, Arch.setV, Vector.getElem?_setIfInBounds]
  rw [if_neg (fun e => h e.symm)]

theorem writesV_writeV (a : Arch) {n : Nat} (m : Mask) (w : Vector Word 32) (h : n < 64) :
    WritesV a (a.writeV n m w) n m (fun l => w[l]?.getD 0) := by
  have hs : (a.writeV n m w).vreg n =
      { a.vreg n with lanes := (a.vreg n).mixed m w, prods := disown (a.vreg n).prods m } := vreg_setV_same a _ h
  refine ⟨?_, ?_, ?_, ?_, rfl, rfl⟩
  · intro l hl
    rw [hs]
    show ((a.vreg n).mixed m w)[l]?.getD 0 = if m.getLsbD l then w[l]?.getD 0 else (a.vreg n).lanes[l]?.getD 0
    simp only [VReg.mixed]
    rw [Vector.getElem?_eq_getElem hl, Vector.getElem?_eq_getElem hl, Vector.getElem?_eq_getElem hl]
    simp only [Vector.getElem_ofFn, Option.getD_some]
    rfl
  · rw [hs]
  · rw [hs]
  · intro k hk; exact vreg_setV_other a _ hk

/-! ### Sources -/

theorem readsS_ok {c : Ctx} {n : BitVec 6} {x : DWord} (h : ReadsS c n x) : c.s n = .ok x := by
  obtain ⟨h1, rfl⟩ := h
  unfold Ctx.s
  rw [if_neg]
  rcases h1 with h1 | h1
  · simp [h1]
  · simp only [Bool.and_eq_true, List.any_eq_true, not_and, not_exists]
    intro _ q hq; simpa using h1 q hq

/-! ### What translating addresses leaves behind (15 R384) -/

theorem touches_refl (s : State) : Touches s s := rfl

theorem touches_trans {s t u : State} (h : Touches s t) (k : Touches t u) : Touches s u := by
  unfold Touches at *; rw [k, h]

theorem cacheTlb_touches (s : State) (t : Tlb) : Touches s (s.cacheTlb t) := rfl

theorem noteDram_touches (s : State) (part line : Nat) : Touches s (s.noteDram part line) := by
  unfold State.noteDram
  split
  · exact touches_refl s
  · cases s.dpaKind part line <;> rfl

theorem foldl_touches {α : Type} (f : State → α → State) (h : ∀ s x, Touches s (f s x)) (xs : List α) (s : State) :
    Touches s (xs.foldl f s) := by
  induction xs generalizing s with
  | nil => exact touches_refl s
  | cons x r ih => exact touches_trans (h s x) (ih _)

theorem noteRead_touches (s : State) (part line : Nat) : Touches s (s.noteRead part line) := by
  unfold State.noteRead
  split
  · split
    · exact touches_refl s
    · exact foldl_touches _ (fun s x => noteDram_touches s part x) _ s
  · exact noteDram_touches s part line

theorem walkFor_touches (s : State) (core vi : Nat) (va : DWord) : Touches s (s.walkFor core vi va) := by
  unfold State.walkFor
  dsimp only
  split
  · exact touches_refl s
  · split
    · exact foldl_touches _ (fun s x => noteRead_touches s _ x) _ s
    · exact touches_trans (foldl_touches _ (fun s x => noteRead_touches s _ x) _ s)
        (touches_trans (cacheTlb_touches _ _) (cacheTlb_touches _ _))

theorem touch_touches (s : State) (core vi : Nat) (va : DWord) : Touches s (s.touch core vi va) := by
  unfold State.touch
  dsimp only
  split
  · exact touches_refl s
  · split
    · exact cacheTlb_touches s _
    · exact walkFor_touches s core vi va

/-- Translating a group's addresses leaves cached translations, counted errors and events, and nothing else. -/
theorem touchAll_touches (s : State) (core : Nat) (g : Group) (vas : List DWord) : Touches s (s.touchAll core g vas) := by
  unfold State.touchAll
  split
  · exact foldl_touches _ (fun s x => touch_touches s core _ x) vas s
  · exact touches_refl s

/-! ### Halves that fail -/

/-- With no half failed, dispatch goes on with its parts as they are. -/
theorem leaveWith_sound {c : Ctx} {s : State} {es : List Entry} (h : ∀ e ∈ es, e.fault = []) :
    c.leaveWith s [] es = .ok (s, c, es) := by
  cases es with
  | nil => rfl
  | cons e r =>
    have he : e.fault = [] := h e (by simp)
    cases e
    simp only at he
    rw [Ctx.leaveWith, he]

end Sys2Proof.Machine
end

