-- ==== Sys2Proof/Certificates/Slice0/Obligations.lean ====
section
/-!
DEFINITION. The statements for the provers. Each docstring names the rules of the specification that the statement
formalises; a statement that rests on a choice of this model names the log entry.
-/

open Sys2Proof Sys2Proof.Machine Sys2Proof.Safety

/-- Every well-formed instruction comes back from its words (R48 to R51, R56 to R75), whatever words follow. -/
def Obligations.DecodeEncode : Prop :=
  ∀ (i : Instr) (r : List Word), i.view ≠ none → i.wf = true →
    decode (encode i ++ r) = .ok (i, r) ∧ (encode i).length ≤ 2 ∧
    (∀ w a b, encode i = [w] → ∃ it, decodeGroup #v[a, b, w] 2 = .ok [it] ∧ it.instr = i) ∧
    (∀ w x a, encode i = [w, x] → ∃ it, decodeGroup #v[a, w, x] 1 = .ok [it] ∧ it.instr = i)

/-- Words of listings of the specification and the instructions they stand for (Tables 17-11, 17-12, 18-14; R427, R468). -/
def Obligations.DecodeWords : Prop :=
  let q : Quals := ⟨0, .none⟩
  decode [0x96010001, 0x7E000001, 0x0C000401] = .ok (.ldi 0 1 1, [0x0C000401]) ∧
  decode [0x1A010510] = .ok (.iaddImm6 q 1 1 17, []) ∧
  decode [0x42010022] = .ok (.stB32 q 1 0 2, []) ∧
  decode [0xC2020022, 0x74000080, 0x80000003] = .ok (.stB32 ⟨0, .mem ⟨0, 0, 0, 128⟩⟩ 2 0 2, [0x80000003]) ∧
  decode [0x7A071009] = .ok (.bias q 7 4, []) ∧
  decode [0x00000037] = .ok (.prog q 3, []) ∧
  decode [0x02BFFFFF] = .ok (.br ⟨2, .none⟩ (BitVec.ofInt 22 (-1)), []) ∧
  ∃ e, decode [0x74000000] = .error e

/-- What reset leaves (R435, Tables 04-4, 14-5, 15-4, 17-3, 17-7, 18-2, 18-4, 18-6, 18-7): the values the specification gives. That
device time is zero at reset is R428; the values the specification does not give (log 18) are not named here. -/
def Obligations.ResetValues : Prop :=
  let s := State.reset
  s.ns = 0 ∧ s.groups = [] ∧ s.teams = [] ∧ s.images = List.replicate 8 none ∧ s.mgmtStatus = 0 ∧ s.partStat = 0 ∧
  (∀ d, d < 4 → s.mr (partCfgReg d) = 0xF ∧ s.mr (memilReg d) = (if d = 0 then 0xFF else 0) ∧ s.mr (netbReg d) = 1 ∧
    s.mgmt.part.getD d 0 = 0xF ∧ s.mgmt.meas.getD d 0 = 0 ∧ ∀ r, r < 4 → s.mr (hwReg d r) = 0 ∧
    s.mr (fqReg d r) = (if r = 1 then 4 else 0) ∧ s.mr (evqReg d r) = (if r = 1 then 4 else 0)) ∧
  (∀ v, v < 64 → s.mr (viMapReg v) = 0 ∧ s.mr (viPolicyReg v) = 0 ∧ s.viEnabled v = false ∧ (∀ r, r < 2 → s.mr (xltReg v r) = 0) ∧
    (∀ r, r < 4 → s.mr (rangeReg v r) = 0) ∧ s.mr (bar0 v 0x1008) = 0x22 ∧ (s.ctx v).events = 0 ∧
    (∀ k, (s.acct.get v Acct.zero).shown.getD k 0 = 0) ∧
    ∀ q r, q < 16 → r < 4 → s.mr (lnqReg v q r) = (if r = 1 then 4 else 0)) ∧
  (∀ st, st < 8 → s.mr (bankpartReg st) = 0 ∧ s.mr (mirmetReg st) = 0x200208) ∧
  s.mr qtimeoutReg = 1000 ∧ s.mr timeCfgReg = 1 ∧ s.mr timeOfsReg = 0 ∧ Memory.wf s.mem = true

/-- A step from any state (R52, R55, R78, Table 03-15): the running stream's chain group is what its packet's words say, and runs; what
an instruction costs is charged with it (18 R455). The second instruction of a group may wait by itself (log 6). -/
def Obligations.StepRunsDecoded : Prop :=
  ∀ (s : State) (core grp ent : Nat) (rest : List (Nat × Nat × Nat)) (g : Group) (l : Line), s.running = (core, grp, ent) :: rest →
    s.dueEvent = none → (s.clk % 4 = 0 ∨ s.nextEvent = none) → s.group core grp = some g →
    let u := { s with running := rest ++ [(core, grp, ent)] }.fetched core grp ent
    let p := g.arch.path ent
    let iss := fun (j n : Nat) (w : Word) (cut : Bool) (sh : Option Arch) => Issue.mk core grp ent p.pn j w n cut sh
    u.pcBreak ⟨iss p.slot 1 0 false none, g, g.arch, g.arch.stream ent⟩ = false → u.codeLine core g p.pn = .ok l → p.run ≤ 8 →
    let pk := packetOfLine l p.pn
    let word := fun (j : Nat) => pk.toList.getD j 0
    let cut := (word 2).getLsbD 31
    let may := fun (x : Item) => (∀ b, x.head.feature = some b → (s.features core g).getLsbD b = true) ∧
      (x.head.privileged = true → isRanene core = true)
    let waits := fun (x : Item) => g.lates.find? fun l => l.ent == ent && l.pn == p.pn && l.slot == x.slot
    (∀ x, decodeGroup pk p.slot = .ok [x] → may x →
      let t := fun (sh : Option Arch) => { u with iss := some (iss x.slot x.words (word x.slot) cut sh) }.dropLate core grp ent
      (waits x = none → step s = tick (charged x.instr (t none))) ∧
      (∀ l v, waits x = some l → charged x.instr (t (some l.regs)) = .next v → step s = tick (.next (v.afterLate core grp l)))) ∧
    (∀ x y, decodeGroup pk p.slot = .ok [x, y] → may x → may y →
      let t := { u with iss := some (iss x.slot x.words (word x.slot) cut none) }
      let late := iss y.slot y.words (word y.slot) cut (some g.arch)
      ∀ v, charged x.instr t = .next v →
        (t.second v (headLead x.head) late = none → step s = tick (.next { v with iss := none })) ∧
        (∀ w z, t.second v (headLead x.head) late = some w → charged y.instr w = .next z →
          step s = tick (.next (t.afterSecond z late))))

/-- Nothing stops the machine: every instruction of an issuing stream, in every state, and every event has a next state, and so has
every step. -/
def Obligations.NothingStops : Prop :=
  (∀ s, ∃ t, step s = .next t) ∧
  (∀ (i : Instr) (s : State) (c : Ctx), Issues s c → ∃ t, exec i s = .next t) ∧
  (∀ (i : Instr) (s : State), i.view = none → ∃ t, exec i s = .next t) ∧
  (∀ (i : Instr) (s : State), i.view ≠ none → s.issueCtx = none → exec i s = .fault .notIssuing)

/-- The canonical form of memory (log 1) holds after every step from every state in which it holds. -/
def Obligations.StepKeepsMemoryCanonical : Prop :=
  ∀ s t : State, Memory.wf s.mem = true → step s = .next t → Memory.wf t.mem = true
/-! ### Integer arithmetic and the scalar registers (chapters 03 and 09) -/

/-- Table 09-1, for every width w: each ALU operation as exact arithmetic taken modulo 2^w, or bit by bit; a shift reads its amount over the full w bits (R229, R21). The counts and the reversal of Tables 09-3 and 09-4 for any width: leading zeros (the width for zero), set bits, and bit i taken from bit w − 1 − i. -/
def Obligations.IntegerResults : Prop :=
  (∀ (w : Nat) (a b : BitVec w), 0 < w →
      aluOp .add a b = BitVec.ofInt w (a.toInt + b.toInt) ∧
      aluOp .sub a b = BitVec.ofInt w (a.toInt - b.toInt) ∧
      aluOp .mul a b = BitVec.ofInt w (a.toInt * b.toInt) ∧
      (aluOp .mulhi a b).toInt = a.toInt * b.toInt / 2 ^ w ∧
      (aluOp .mulhu a b).toNat = a.toNat * b.toNat / 2 ^ w ∧
      (∀ k, k < w →
        (aluOp .and a b).getLsbD k = (a.getLsbD k && b.getLsbD k) ∧
        (aluOp .or a b).getLsbD k = (a.getLsbD k || b.getLsbD k) ∧
        (aluOp .xor a b).getLsbD k = (a.getLsbD k != b.getLsbD k) ∧
        (aluOp .andn a b).getLsbD k = (a.getLsbD k && !b.getLsbD k) ∧
        (aluOp .shl a b).getLsbD k = (decide (b.toNat ≤ k) && a.getLsbD (k - b.toNat)) ∧
        (aluOp .shr a b).getLsbD k = a.getLsbD (k + b.toNat) ∧
        (aluOp .sar a b).getLsbD k = if k + b.toNat < w then a.getLsbD (k + b.toNat) else a.msb) ∧
      (aluOp .min a b).toInt = min a.toInt b.toInt ∧
      (aluOp .max a b).toInt = max a.toInt b.toInt ∧
      (aluOp .minu a b).toNat = min a.toNat b.toNat ∧
      (aluOp .maxu a b).toNat = max a.toNat b.toNat) ∧
  (∀ (w : Nat) (a : BitVec w),
      clz a ≤ w ∧ (∀ k, w - clz a ≤ k → k < w → a.getLsbD k = false) ∧
      (clz a < w → a.getLsbD (w - 1 - clz a) = true) ∧
      popc a = ((List.finRange w).countP fun k => a.getLsbD k.val) ∧
      ∀ k, k < w → (brev a).getLsbD k = a.getLsbD (w - 1 - k))
/-- SALU and SALUI with any lane active: s[D] gets the operation of s[A] and b, where b is s[B], the imm6 or the imm25, sign-extended; a write to s0 is discarded; the stream moves on and nothing else changes. With no lane active they write nothing (R228, R233). SCMP with any lane active: one truth value in every active lane of p[D]; every other lane keeps its bit, also where p[D] is the guard (R230, R234). -/
def Obligations.ScalarForms : Prop :=
  (∀ (i : Instr) (f : ScalarForm AluOp) (s : State) (c : Ctx) (x y : DWord), scalarAluForm i = some f → Issues s c →
      (c.active f.q ≠ 0 → ReadsS c f.a x → f.b.Reads c y → SetsS i s c f.d (aluOp f.o x y)) ∧
      (c.active f.q = 0 → Idles i s c)) ∧
  (∀ (i : Instr) (f : ScalarForm SCond) (s : State) (c : Ctx) (x y : DWord), scalarCmpForm i = some f → Issues s c →
      (c.active f.q ≠ 0 → ReadsS c f.a x → f.b.Reads c y →
        (scmpTrue f.o x y → SetsP i s c f.d (c.active f.q) (BitVec.allOnes 32)) ∧
        (¬ scmpTrue f.o x y → SetsP i s c f.d (c.active f.q) 0)) ∧
      (c.active f.q = 0 → Idles i s c))
/-- The forms of SMOV (Table 09-3), once for the group where a lane is active. -/
def Obligations.ScalarMoves : Prop :=
  ∀ (s : State) (c : Ctx) (q : Quals) (g : BitVec 3) (d a b : BitVec 6) (v : BitVec 25) (x : DWord), Issues s c →
    (c.active q ≠ 0 → ReadsS c a x →
      SetsS (.smov q d a) s c d x ∧
      SetsS (.sclz q d a) s c d (BitVec.ofNat 64 (clz x)) ∧
      SetsS (.spopc q d a) s c d (BitVec.ofNat 64 (popc x)) ∧
      SetsS (.sbrev q d a) s c d (brev x) ∧
      SetsS (.sext32 q d a) s c d ((x.setWidth 32).signExtend 64)) ∧
    (c.active (quals g) ≠ 0 → SetsS (.ldi g d v) s c d (v.signExtend 64)) ∧
    (c.active (quals g) ≠ 0 → ReadsS c d x →
      SetsS (.ldih g d v) s c d ((v.signExtend 32 : BitVec 32) ++ x.setWidth 32)) ∧
    (c.active q ≠ 0 → SetsS (.wfld q d b) s c d (BitVec.ofNat 64 (s.widField c.g b.toNat))) ∧
    (c.active q ≠ 0 →
      c.checkOnce s ({ Need.atL with meld := c.isW a }.source (Quals.modx q).ta a.toNat) = .ok () →
      SetsS (.vext q d a b) s c d
        (((c.src.vreg a.toNat).through (Quals.modx q).pa (Quals.modx q).pax b.toNat).setWidth 64)) ∧
    (c.active q = 0 →
      Idles (.smov q d a) s c ∧ Idles (.sclz q d a) s c ∧ Idles (.spopc q d a) s c ∧ Idles (.sbrev q d a) s c ∧
      Idles (.sext32 q d a) s c ∧ Idles (.wfld q d b) s c ∧ Idles (.vext q d a b) s c) ∧
    (c.active (quals g) = 0 → Idles (.ldi g d v) s c ∧ Idles (.ldih g d v) s c)

/-! ### Predicates (chapter 09) -/

/-- PLOG: each active lane of p[D] takes the value of Table 09-5; every other lane keeps its bit (R243). PMOV: the four exchanges of R244 with their active lanes, and nothing where no lane is active. The execution mask (R251): EMRD and EMP give it, EMWR sets it within the lanes of the stream and traps EM_OUTSIDE_PATH otherwise; they act whatever the mask holds. -/
def Obligations.PredicatesAndMask : Prop :=
  (∀ (i : Instr) (q : Quals) (d a b : BitVec 6) (f : Bool → Bool → Bool) (s : State) (c : Ctx),
      predLogicForm i = some (q, d, a, b, f) → Issues s c →
      ∃ m : Mask, (∀ l, l < 32 → m.getLsbD l = f ((c.src.preg a).getLsbD l) ((c.src.preg b).getLsbD l)) ∧
        SetsP i s c d (c.active q) m) ∧
  (∀ (s : State) (c : Ctx) (q : Quals) (d a : BitVec 6) (x : DWord), Issues s c →
      (c.active q ≠ 0 →
        SetsS (.p2s q d a) s c d ((c.src.preg a).setWidth 64) ∧
        SetsS (.ppop q d a) s c d
          (BitVec.ofNat 64 ((List.finRange 32).countP fun l =>
            (c.src.preg a).getLsbD l.val && (c.active q).getLsbD l.val)) ∧
        (∃ n, SetsS (.pfirst q d a) s c d (BitVec.ofNat 64 n) ∧
          (∀ l, l < n → l < 32 → ((c.src.preg a).getLsbD l && (c.active q).getLsbD l) = false) ∧
          (n = 32 ∨ n < 32 ∧ ((c.src.preg a).getLsbD n && (c.active q).getLsbD n) = true)) ∧
        (ReadsS c a x → SetsP (.s2p q d a) s c d (c.active q) (x.setWidth 32))) ∧
      (c.active q = 0 →
        Idles (.p2s q d a) s c ∧ Idles (.s2p q d a) s c ∧ Idles (.ppop q d a) s c ∧ Idles (.pfirst q d a) s c)) ∧
  (∀ (s : State) (c : Ctx) (q : Quals) (d a : BitVec 6) (x : DWord), Issues s c →
      SetsS (.emrd q d) s c d (c.em.setWidth 64) ∧
      SetsP (.emp q d) s c d (BitVec.allOnes 32) c.em ∧
      (ReadsS c a x →
        ((x.toNat < 2 ^ 32 ∧ ∀ l, x.getLsbD l = true → (c.src.maskOf c.ents).getLsbD l = true) →
          Ends (.emwr q a) s c
            (c.g.arch.editPaths c.ents fun p => { p with em := x.setWidth 32 &&& p.mask }) []) ∧
        (¬ (x.toNat < 2 ^ 32 ∧ ∀ l, x.getLsbD l = true → (c.src.maskOf c.ents).getLsbD l = true) →
          exec (.emwr q a) s = .next (c.trapPath s (FaultInfo.ofCause causeEmOutsidePath)))))
/-! ### Vector lanes (chapters 09 and 10) -/

/-- VALU2 and PACK of one lane (Tables 09-4 and 10-14), byte by byte and bit by bit. -/
def Obligations.LaneWordResults : Prop :=
  ∀ (a b d : Word),
    v2Op .imad a b d = BitVec.ofNat 32 (a.toNat * b.toNat + d.toNat) ∧
    ((v2Op .clz a b d).toNat ≤ 32 ∧ (∀ k, 32 - (v2Op .clz a b d).toNat ≤ k → a.getLsbD k = false) ∧
      ((v2Op .clz a b d).toNat < 32 → a.getLsbD (31 - (v2Op .clz a b d).toNat) = true)) ∧
    (v2Op .popc a b d).toNat = ((List.finRange 32).countP fun k => a.getLsbD k.val) ∧
    (∀ k, k < 32 → (v2Op .brev a b d).getLsbD k = a.getLsbD (31 - k)) ∧
    (∀ k, k < 32 →
      (v2Op .bfe a b d).getLsbD k = (decide (k < b.toNat / 256 % 32) && a.getLsbD (k + b.toNat % 32)) ∧
      (v2Op .bfi a b d).getLsbD k =
        if b.toNat % 32 ≤ k ∧ k < b.toNat % 32 + b.toNat / 256 % 32 then a.getLsbD (k - b.toNat % 32) else d.getLsbD k) ∧
    (∀ k, k < 4 →
      byteAt (v2Op .bysel a b d) k =
        let sel := byteAt b k
        let e : BitVec 64 := d ++ a
        if sel.getLsbD 4 then 0
        else if sel.getLsbD 3 then ~~~ (e.extractLsb' (8 * (sel.toNat % 8)) 8)
        else e.extractLsb' (8 * (sel.toNat % 8)) 8) ∧
    v2Op .i8dot4 a b d = BitVec.ofInt 32 (d.toInt +
      (byteAt a 0).toInt * (byteAt b 0).toInt + (byteAt a 1).toInt * (byteAt b 1).toInt +
      (byteAt a 2).toInt * (byteAt b 2).toInt + (byteAt a 3).toInt * (byteAt b 3).toInt) ∧
    v2Op .n8dot4 a b d = BitVec.ofNat 32 (d.toNat +
      (byteAt a 0).toNat * (byteAt b 0).toNat + (byteAt a 1).toNat * (byteAt b 1).toNat +
      (byteAt a 2).toNat * (byteAt b 2).toNat + (byteAt a 3).toNat * (byteAt b 3).toNat) ∧
    packOp .pk2h a b d = halfAt b 0 ++ halfAt a 0 ∧
    packOp .pkhi a b d = halfAt b 1 ++ halfAt a 1 ∧
    packOp .pkb01 a b d = halfAt d 1 ++ byteAt b 0 ++ byteAt a 0 ∧
    packOp .pkb23 a b d = byteAt b 0 ++ byteAt a 0 ++ halfAt d 0 ∧
    packOp .upklo a b d = BitVec.ofNat 32 (a.toNat % 2 ^ 16) ∧
    packOp .upkhi a b d = BitVec.ofNat 32 (a.toNat / 2 ^ 16)

/-- Every lane-wise form: each active lane of a half whose destination is at L gets the operation's word, a half elsewhere
is posted to its place and its lanes are owed, the flags merge into %fsr, and every other lane, register and byte of
memory is as it was (R237, R238, R254, R255, 08 R207 to R211). -/
def Obligations.LaneWise : Prop :=
  ∀ (i : Instr) (f : LaneForm) (s : State) (c : Ctx), laneForm i = some f → Issues s c → Allowed s c f.feat false →
    LaneReady c s f.o (Quals.modx f.q) (permMeld c (Quals.modx f.q) f.a f.b f.imm) (f.halves c) →
    SetsLanes i s c f.o (Quals.modx f.q) (f.halves c)

/-- SEL writes every lane of %em, choosing by its guard; BCST and VINS take the low word of s[A] (R241). -/
def Obligations.VectorMoves : Prop :=
  ∀ (s : State) (c : Ctx) (q : Quals) (d a b : BitVec 6) (x : DWord), Issues s c →
    (let hs := (c.halves c.em).map fun h => c.half h.1 h.2 d a b 0 none (c.guard q)
     LaneReady c s .sel (Quals.modx q) (permMeld c (Quals.modx q) a b none) hs →
     SetsLanes (.sel q d a b) s c .sel (Quals.modx q) hs) ∧
    (let hs := (c.halves (c.active q)).map fun h => c.half h.1 h.2 d 0 0 0 (some (x.setWidth 32)) 0
     c.active q ≠ 0 → ReadsS c a x → LaneReady c s .splat (Quals.modx q) (permMeld c (Quals.modx q) 0 0 (some 0)) hs →
     SetsLanes (.bcst q d a) s c .splat (Quals.modx q) hs) ∧
    (let h : Half := ⟨c.iss.ent, Mask.one b.toNat, d.toNat, 0, 0, 0, some (x.setWidth 32), 0,
       (c.src.vreg d.toNat).place⟩
     c.active q ≠ 0 → ReadsS c a x → c.isW d = false → LaneReady c s (.vins b.toNat) (Quals.modx q) false [h] →
     SetsLanes (.vins q d a b) s c (.vins b.toNat) (Quals.modx q) [h]) ∧
    (c.active q ≠ 0 → ReadsS c a x → c.isW d = true →
      ∃ f : FaultInfo, f.cause = causeMeld ∧ exec (.vins q d a b) s = .next (c.trapPath s f)) ∧
    (c.active q = 0 → Idles (.bcst q d a) s c ∧ Idles (.vins q d a b) s c)

/-- A lane-wise instruction of a stream that is no consist, with an enabled exception in an active lane at L: no register,
no flag changes; the whole path goes to the siding with cause FP_EXCEPTION (R46, R370). -/
def Obligations.FloatExceptionTraps : Prop :=
  ∀ (i : Instr) (f : LaneForm) (s : State) (c : Ctx) (h : Half), laneForm i = some f → Issues s c →
    Allowed s c f.feat false → c.ents = [c.iss.ent] → f.halves c = [h] → h.place = .l →
    c.check s (f.o.need c (Quals.modx f.q) (permMeld c (Quals.modx f.q) f.a f.b f.imm) h) = none →
    (∀ r ∈ (f.o.need c (Quals.modx f.q) (permMeld c (Quals.modx f.q) f.a f.b f.imm) h).waits,
      (c.src.vreg r).full = true) →
    (∃ r ∈ h.results f.o c.src (Quals.modx f.q), r.2.2 &&& enables c.src.fcr ≠ 0) →
    ∃ t : FaultInfo, exec i s = .next (c.trapPath s t) ∧ t.cause = causeFpException ∧ t.place = .l ∧
      (∃ m, t.mask = some m ∧ ∀ l, l < 32 → (m.getLsbD l = true ↔
        ∃ r ∈ h.results f.o c.src (Quals.modx f.q), r.1 = l ∧ r.2.2 &&& enables c.src.fcr ≠ 0)) ∧
      (∀ k, k < 5 → (t.operand.getLsbD (k + 4) = true ↔
        ∃ r ∈ h.results f.o c.src (Quals.modx f.q), (r.2.2 &&& enables c.src.fcr).getLsbD k = true)) ∧
      (∀ k, k < 4 ∨ 9 ≤ k → t.operand.getLsbD k = false)

/-- VCMP and FCMP: each active lane of p[D] gets the compare's truth, the flags merge into %fsr, and every other lane and
register is as it was (R240, R262 to R264). -/
def Obligations.VectorCompares : Prop :=
  (∀ (o : VCond) (x y : Word), icmpOp o x y = true ↔ vcmpTrue o x y) ∧
  (∀ (i : Instr) (o : VCond) (q : Quals) (d a b : BitVec 6) (s : State) (c : Ctx),
    vectorCmpForm i = some (o, q, d, a, b) → Issues s c →
    let f : CompareForm := ⟨q, d, a, b, true, Quals.immV q, fun x y => (icmpOp o x y, 0)⟩
    CompareReady f c s → ∃ r, CompareEffect f c r ∧ Ends i s c r []) ∧
  (∀ (i : Instr) (o : FCond) (q : Quals) (d a b : BitVec 6) (s : State) (c : Ctx),
    floatCmpForm i = some (o, q, d, a, b) → Issues s c →
    let f : CompareForm := ⟨q, d, a, b, true, Quals.immF q, fcmpOp o⟩
    CompareReady f c s → ∃ r, CompareEffect f c r ∧ Ends i s c r []) ∧
  (∀ (g : BitVec 3) (d a : BitVec 6) (v : BitVec 25) (s : State) (c : Ctx), Issues s c →
    let f : CompareForm := ⟨quals g, d, a, 0, false, none, fun x _ => (v.getLsbD (fclass x.toNat), 0)⟩
    CompareReady f c s → ∃ r, CompareEffect f c r ∧ Ends (.fcmpClass g d a v) s c r [])

/-! ### Cross-lane instructions (chapter 09) -/

/-- SHFL and SHFLS: lane i of v[D] is a lane of v[A] as it stood before (R246). -/
def Obligations.Shuffles : Prop :=
  ∀ (s : State) (c : Ctx) (q : Quals) (d a b : BitVec 6) (x : DWord), Issues s c →
    (c.active q ≠ 0 → CrossReady c s (Quals.modx q) d a (some b) →
      SetsV (.shfl q d a b) s c d.toNat (c.active q) fun i =>
        (c.src.vreg a.toNat).through (Quals.modx q).pa (Quals.modx q).pax
          (((c.src.vreg b.toNat).through (Quals.modx q).pb (Quals.modx q).pbx i).toNat % 32)) ∧
    (c.active q ≠ 0 → CrossReady c s (Quals.modx q) d a none → ReadsS c b x →
      SetsV (.shfls q d a b) s c d.toNat (c.active q) fun i =>
        (c.src.vreg a.toNat).through (Quals.modx q).pa (Quals.modx q).pax ((i + x.toNat) % 32)) ∧
    (c.active q = 0 → Idles (.shfl q d a b) s c ∧ Idles (.shfls q d a b) s c)

/-- The integer operations of XRED and XSCAN as exact arithmetic over the contributions (R247), and every form of both: what
it leaves at dispatch, and the arrival of its words (R245 to R248, R217). -/
def Obligations.Reductions : Prop :=
  (∀ (r : Rnd) (xs : List Word), xs ≠ [] →
    redOp .addI r xs = (BitVec.ofNat 32 (xs.map (·.toNat)).sum, 0) ∧
    ((redOp .minI r xs).1 ∈ xs ∧ ∀ x ∈ xs, (redOp .minI r xs).1.toInt ≤ x.toInt) ∧
    ((redOp .maxI r xs).1 ∈ xs ∧ ∀ x ∈ xs, x.toInt ≤ (redOp .maxI r xs).1.toInt) ∧
    ((redOp .minu r xs).1 ∈ xs ∧ ∀ x ∈ xs, (redOp .minu r xs).1.toNat ≤ x.toNat) ∧
    ((redOp .maxu r xs).1 ∈ xs ∧ ∀ x ∈ xs, x.toNat ≤ (redOp .maxu r xs).1.toNat) ∧
    (∀ k, k < 32 → (redOp .and r xs).1.getLsbD k = xs.all (·.getLsbD k) ∧ (redOp .or r xs).1.getLsbD k = xs.any (·.getLsbD k) ∧
      (redOp .xor r xs).1.getLsbD k = decide ((xs.countP (·.getLsbD k)) % 2 = 1)) ∧
    (∀ o : RedOp, o ≠ .addF → (redOp o r xs).2 = 0)) ∧
  ∀ (i : Instr) (o : RedOp) (upto : Bool) (q : Quals) (d a b : BitVec 6) (s : State) (c : Ctx) (x : DWord),
    reduceForm i = some (o, upto, q, d, a, b) → Issues s c →
    (let r := c.src.vreg a.toNat
     let rm : BitVec 3 := c.src.fcr.extractLsb' 0 3
     let val := fun (who : Mask) (l : Nat) =>
       redOp o (Rnd.of rm (if upto then ditherPos l 0 else 0) c.src.dph)
         (((Mask.list who).filter fun j => !upto || j ≤ l).map fun j =>
           r.through (Quals.modx q).pa (Quals.modx q).pax j)
     c.active q ≠ 0 → CrossReady c s (Quals.modx q) d a none → ReadsS c b x →
     (∀ who, Contributors c (c.active q) x who →
       (∀ l ∈ Mask.list (c.active q), (val who l).2 &&& enables c.src.fcr = 0) →
       ∃ a e w, Ends i s c a [e] ∧ e.op = .cross d.toNat (c.active q) w ∧ e.place = .l ∧ e.pos = c.g.seq ∧ e.stage = .posted ∧
         e.fault = [] ∧ e.flags = allFlags ((Mask.list (c.active q)).map fun l => (l, (val who l).2)) ∧
         (∀ l, l < 32 → (c.active q).getLsbD l = true → (w[l]?).getD 0 = (val who l).1) ∧
         (a.vreg d.toNat).owed c.pos &&& c.active q = c.active q ∧ (∀ n, n ≠ d.toNat → a.vreg n = c.g.arch.vreg n) ∧
         (∀ n, a.vreg n = { c.g.arch.vreg n with prods := (a.vreg n).prods }) ∧
         a = { c.g.arch with v := a.v, dirty := a.dirty }) ∧
     ((∃ l, l < 32 ∧ (c.active q).getLsbD l = true ∧ x.getLsbD l = false) →
       ∃ t : FaultInfo, exec i s = .next (c.trapPath s t) ∧ t.cause = causeMember ∧
         t.mask = some (c.active q &&& ~~~ (x.setWidth 32)))) ∧
    (c.active q = 0 → Idles i s c) ∧
    (∀ (core grp pos n : Nat) (g : Group) (e : Entry) (act : Mask) (w : Vector Word 32), s.group core grp = some g →
      e.op = .cross n act w → e.place = .l → e.pos = pos → n < 64 →
      (g.rob.filter (fun x => x.pos == pos) = [e] → e.stage = .posted →
        ∃ g', exec (.postExecute core grp pos) s = .next (s.setGroup core grp g') ∧
          (∀ l, l < 32 → act.getLsbD l = true → ((g.arch.vreg n).owed pos).getLsbD l = true →
            (g'.arch.vreg n).lane l = (w[l]?).getD 0) ∧
          (∀ l, l < 32 → ((g.arch.vreg n).owed pos).getLsbD l = false → (g'.arch.vreg n).lane l = (g.arch.vreg n).lane l) ∧
          (∀ m, m ≠ n → g'.arch.vreg m = g.arch.vreg m) ∧ g'.arch = { g.arch with v := g'.arch.v } ∧
          ∃ x ∈ g'.rob, x.pos = pos ∧ x.stage = .executed ∧ x.op = e.op ∧ x.flags = e.flags ∧ x.fault = e.fault) ∧
      (g.rob = [e] → e.stage = .executed → e.fault = [] → g.arch.valid ≠ [] →
        ∃ t g', exec (.postReport core grp pos) s = .next t ∧ t.group core grp = some g' ∧
          g'.arch = g.arch.addFlags e.flags ∧ g'.rob = [] ∧ ∀ a, Memory.byte t.mem a = Memory.byte s.mem a))

/-- XVOTE over the contributors (R249), and its MEMBER trap (R245), which MATCH takes after its operand checks. -/
def Obligations.Votes : Prop :=
  ∀ (s : State) (c : Ctx) (q : Quals) (d a b : BitVec 6) (x : DWord) (who : Mask), Issues s c → ReadsS c b x →
    (c.active q ≠ 0 → Contributors c (c.active q) x who →
      ((∀ l, l < 32 → who.getLsbD l = true → (c.src.preg a).getLsbD l = true) →
        SetsP (.xvoteAll q d a b) s c d (c.active q) (BitVec.allOnes 32)) ∧
      (¬ (∀ l, l < 32 → who.getLsbD l = true → (c.src.preg a).getLsbD l = true) →
        SetsP (.xvoteAll q d a b) s c d (c.active q) 0) ∧
      ((∃ l, l < 32 ∧ who.getLsbD l = true ∧ (c.src.preg a).getLsbD l = true) →
        SetsP (.xvoteAny q d a b) s c d (c.active q) (BitVec.allOnes 32)) ∧
      (¬ (∃ l, l < 32 ∧ who.getLsbD l = true ∧ (c.src.preg a).getLsbD l = true) →
        SetsP (.xvoteAny q d a b) s c d (c.active q) 0) ∧
      SetsS (.xvoteBallot q d a b) s c d ((who &&& c.src.preg a).setWidth 64) ∧
      (CrossReady c s (Quals.modx q) d a none →
        ∃ m : Nat → Mask,
          (∀ l j, j < 32 → ((m l).getLsbD j = true ↔ who.getLsbD j = true ∧
            (c.src.vreg a.toNat).through (Quals.modx q).pa (Quals.modx q).pax j =
              (c.src.vreg a.toNat).through (Quals.modx q).pa (Quals.modx q).pax l)) ∧
          SetsV (.xvoteMatch q d a b) s c d.toNat (c.active q) m)) ∧
    ((∃ l, l < 32 ∧ (c.active q).getLsbD l = true ∧ x.getLsbD l = false) →
      ∃ t : FaultInfo, t.cause = causeMember ∧ t.mask = some (c.active q &&& ~~~ (x.setWidth 32)) ∧
        exec (.xvoteAll q d a b) s = .next (c.trapPath s t) ∧
        exec (.xvoteAny q d a b) s = .next (c.trapPath s t) ∧
        exec (.xvoteBallot q d a b) s = .next (c.trapPath s t) ∧
        (CrossReady c s (Quals.modx q) d a none → exec (.xvoteMatch q d a b) s = .next (c.trapPath s t))) ∧
    (c.active q = 0 →
      Idles (.xvoteAll q d a b) s c ∧ Idles (.xvoteAny q d a b) s c ∧ Idles (.xvoteBallot q d a b) s c ∧
      Idles (.xvoteMatch q d a b) s c)

/-! ### Streams, branches and paths (chapters 03 and 13) -/

/-- How a stream moves on (R51, R55): each of its entries that is at the instruction goes to the next slot, or from the
last word of its packet to slot 0 of the next packet, counted in its run or, where the packet ends the run, starting a new
one; other entries and all registers stay. -/
def Obligations.StreamMovesOn : Prop :=
  ∀ (s : State) (c : Ctx) (a : Arch) (n : Nat), Issues s c → n < 32 →
    (c.ents.Nodup → n ∈ c.ents → c.iss.atMe (a.path n) = true →
      ((a.path n).slot + c.iss.words < 3 →
        (c.advanceArch a).path n = { a.path n with slot := (a.path n).slot + c.iss.words, spil := none, wait := none }) ∧
      (3 ≤ (a.path n).slot + c.iss.words →
        (c.advanceArch a).path n = { a.path n with
          pn := (a.path n).pn + 1, slot := 0, spil := none, wait := none, skip := none,
          run := if c.iss.cut = true ∨ (a.path n).run = 0 then 0 else (a.path n).run + 1 })) ∧
    (n ∉ c.ents ∨ c.iss.atMe (a.path n) = false → (c.advanceArch a).path n = a.path n) ∧
    PathsOnly a (c.advanceArch a)

/-- BR and CALL (R315, R316, R318, R331). -/
def Obligations.BranchesResolve : Prop :=
  ∀ (s : State) (c : Ctx) (q : Quals) (x : BitVec 22), Issues s c →
    Branches (.br q x) s c c.g.arch (c.active q &&& emNow c) (c.iss.pn + x.signExtend 64) ∧
    (c.active q = 0 → Idles (.call q x) s c) ∧
    (c.active q ≠ 0 → ∃ a, WritesS c.g.arch a 62 (c.iss.pn + 1) ∧
      (Branches (.call q x) s c a (c.active q &&& a.emOf c.ents) (c.iss.pn + x.signExtend 64)))

/-- Indirect jumps (R319 to R322): lanes that pass the landing checks of Table 13-3 go to their target; those of JMPS, CALLS
and RET that fail them leave with the failing check's cause. -/
def Obligations.JumpsLand : Prop :=
  ∀ (s : State) (c : Ctx) (q : Quals) (a : BitVec 6) (x : DWord), Issues s c → c.iss.shadow = none →
    (∀ e ∈ c.ents, (c.g.arch.path e).valid = true ∧ (c.g.arch.path e).state = .ready) →
    (c.active q ≠ 0 → s.landing c.iss.core c.g x = none →
      (ReadsS c a x → Branches (.jmps q a) s c c.g.arch (c.active q) x) ∧
      (ReadsS c 62 x → Branches (.ret q) s c c.g.arch (c.active q) x) ∧
      (ReadsS c a x → ∃ b, WritesS c.g.arch b 62 (c.iss.pn + 1) ∧ Branches (.calls q a) s c b (c.active q) x) ∧
      (c.checkOnce s (({ Need.atL with meld := c.isW a }.source (Quals.modx q).ta a.toNat).source
          (Quals.modx q).ta (a.toNat + 1)) = .ok () →
        (∀ l ∈ Mask.list (c.active q),
          packetAt ((c.src.vreg (a.toNat + 1)).lane l ++ (c.src.vreg a.toNat).lane l) = some x) →
        Branches (.jmpv q a) s c c.g.arch (c.active q) x)) ∧
    (∀ k : BitVec 8, c.active q ≠ 0 → s.landing c.iss.core c.g x = some k →
      (ReadsS c a x → JumpFails (.jmps q a) s c (c.active q) k (packetVa c.iss.core x) ∧
        JumpFails (.calls q a) s c (c.active q) k (packetVa c.iss.core x)) ∧
      (ReadsS c 62 x → JumpFails (.ret q) s c (c.active q) k (packetVa c.iss.core x))) ∧
    (c.active q = 0 → Idles (.jmps q a) s c ∧ Idles (.calls q a) s c ∧ Idles (.ret q) s c ∧ Idles (.jmpv q a) s c)

/-- A byte address names a packet exactly under the condition of R49: packet number n lies at 128 × (n div 10) +
12 × (n mod 10), ten packets to a line. -/
def Obligations.ByteAddressNamesPacket : Prop :=
  ∀ (a n : DWord), packetAt a = some n ↔ a.toNat = 128 * (n.toNat / 10) + 12 * (n.toNat % 10)

/-- BRM (R327): side 1 has the active lanes the selector chooses, side 0 every other lane of the path. JOINM (R332): outside
its join point or with MELD = 0 it traps; a consist whose sides are its only peers becomes one path without a map at once;
while another melded peer is missing, the stream waits as at a JOIN. -/
def Obligations.ConsistsFormAndEnd : Prop :=
  (∀ (s : State) (c : Ctx) (q : Quals) (x : BitVec 22) (e : Nat), Issues s c → Allowed s c (some 4) false →
      c.iss.ent = e → e < 32 →
      let p := c.g.arch.path e
      let s1 := p.em &&& c.guard q
      let s0 := p.mask &&& ~~~ s1
      ((p.meld = true ∨ p.jstack = []) → exec (.brm q x) s = .next (c.trapPath s (FaultInfo.ofCause causeMeld))) ∧
      (p.meld = false → p.jstack ≠ [] → p.valid = true →
        (s1 = 0 → ∃ b, Lands (.brm q x) s c b ∧ PathsOnly c.g.arch b ∧
          b.path e = { p.goto (c.iss.pn + x.signExtend 64) with meld := true, side := false, map := idMap }) ∧
        (s1 ≠ 0 → s0 = 0 → ∃ b, Lands (.brm q x) s c b ∧ PathsOnly c.g.arch b ∧
          b.path e = { p.goto (c.iss.pn + x.signExtend 64) with meld := true, side := true, map := idMap }) ∧
        (s1 ≠ 0 → s0 ≠ 0 → c.g.arch.freeEntry ≠ none →
          ∃ b j, Lands (.brm q x) s c b ∧ PathsOnly c.g.arch b ∧ c.g.arch.freeEntry = some j ∧
            b.path e = { p.goto (c.iss.pn + x.signExtend 64) with
              meld := true, side := false, map := idMap, mask := s0, em := p.em &&& s0, link := some j,
              away := (b.path e).away } ∧
            b.path j = { p.goto (c.iss.pn + x.signExtend 64) with
              meld := true, side := true, map := idMap, mask := s1, em := s1, link := some e, lost := 0,
              away := (b.path j).away }))) ∧
  (∀ (s : State) (c : Ctx), Issues s c → Allowed s c (some 4) false →
      ((c.meld = false ∨ c.topIsMe = false) → exec .joinm s = .next (c.trapPath s (FaultInfo.ofCause causeMeld))) ∧
      (∀ e f, c.meld = true → c.topIsMe = true → c.ents = [e, f] → c.iss.ent = e → c.g.arch.peers e = [e, f] → e < f → f < 32 →
        (∀ k ∈ c.ents, (c.g.arch.path k).valid = true ∧ (c.g.arch.path k).pn = c.iss.pn ∧
          (c.g.arch.path k).slot = c.iss.slot ∧ (c.g.arch.path k).meld = true) →
        (c.g.arch.path e).jstack = (c.g.arch.path f).jstack →
        c.iss.words = 1 →
        ∃ t g, exec .joinm s = .next t ∧ t.group c.iss.core c.iss.grp = some g ∧ PathsOnly c.g.arch g.arch ∧
          (g.arch.path e).valid = true ∧ (g.arch.path e).state = .ready ∧ (g.arch.path e).meld = false ∧
          (g.arch.path e).mask = (c.g.arch.path e).mask ||| (c.g.arch.path f).mask ∧
          (g.arch.path e).em = (c.g.arch.path e).em ||| (c.g.arch.path f).em ∧
          (g.arch.path e).jstack = (c.g.arch.path e).jstack.drop 1 ∧
          (g.arch.path e).pn = ((c.g.arch.path e).past 1 c.iss.cut).pn ∧
          (g.arch.path e).slot = ((c.g.arch.path e).past 1 c.iss.cut).slot ∧
          (g.arch.path f).valid = false) ∧
      (c.meld = true → c.topIsMe = true → (∀ e ∈ c.ents, e < 32) → c.ents.Nodup →
        (∃ k ∈ c.g.arch.peers c.iss.ent, k ∉ c.ents ∧
          ((c.g.arch.path k).state ≠ .joinWait ∨ (c.g.arch.path k).pn ≠ c.iss.pn)) →
        Lands .joinm s c (c.g.arch.editPaths c.ents fun p => { p with
          state := .joinWait, wait := some (.join true), run := 0 })))

/-- SIDE writes all 32 lanes of p[D], whatever EM holds; it is not privileged (R334). -/
def Obligations.SideShowsSideOne : Prop :=
  ∀ (s : State) (c : Ctx) (d : BitVec 6), Issues s c → Allowed s c (some 4) false →
    (∃ m : Mask, SetsP (.side d) s c d (BitVec.allOnes 32) m ∧
      ∀ l, l < 32 → (m.getLsbD l = true ↔ ∃ e ∈ c.ents, (c.src.path e).meld = true ∧ (c.src.path e).side = true ∧
        (c.src.path e).mask.getLsbD l = true)) ∧
    ((∀ e ∈ c.ents, (c.src.path e).meld = false) → SetsP (.side d) s c d (BitVec.allOnes 32) 0)

/-- PATHID (R340, Table 13-4), whatever EM holds. -/
def Obligations.PathidFields : Prop :=
  ∀ (s : State) (c : Ctx) (d : BitVec 6) (e : Nat), Issues s c → e < 32 →
    (c.ents = [e] → ∃ x, SetsS (.pathid d) s c d x ∧ x.extractLsb' 32 32 = (c.src.path e).mask ∧
      x.extractLsb' 7 25 = 0 ∧ x.getLsbD 6 = ((c.src.path e).meld && (c.src.path e).side) ∧
      x.getLsbD 5 = (c.src.path e).meld ∧ (x.extractLsb' 0 5).toNat = e) ∧
    (∀ f, f < 32 → c.ents = [e, f] → ∃ x, SetsS (.pathid d) s c d x ∧
      x.extractLsb' 32 32 = (c.src.path e).mask ||| (c.src.path f).mask ∧ x.extractLsb' 14 18 = 0 ∧
      x.getLsbD 13 = true ∧ (x.extractLsb' 8 5).toNat = f ∧ x.getLsbD 7 = false ∧
      x.getLsbD 6 = ((c.src.path e).meld && (c.src.path e).side) ∧ x.getLsbD 5 = (c.src.path e).meld ∧
      (x.extractLsb' 0 5).toNat = e)

/-- MAP0 and MAP1 (R333): the map of the stream's entry of that side, from the next instruction on. -/
def Obligations.MapsRename : Prop :=
  ∀ (s : State) (c : Ctx) (d : BitVec 4) (n : BitVec 6), Issues s c → Allowed s c (some 4) false →
    (c.meld = true →
      Ends (.map0 d n) s c (c.g.arch.editPaths c.ents fun p =>
        if p.side = false then { p with map := p.map.set d.toNat n d.isLt } else p) [] ∧
      Ends (.map1 d n) s c (c.g.arch.editPaths c.ents fun p =>
        if p.side = true then { p with map := p.map.set d.toNat n d.isLt } else p) []) ∧
    (c.meld = false →
      exec (.map0 d n) s = .next (c.trapPath s (FaultInfo.ofCause causeMeld)) ∧
      exec (.map1 d n) s = .next (c.trapPath s (FaultInfo.ofCause causeMeld)))

/-- SPLIT (R323, R324). JOIN (R325): no effect away from its join point; a wait, of a path or a consist, while a peer is
elsewhere; the merge of all peers of a path once the last one arrives; and a consist that is its only peer goes on as a
consist, its stack popped (R326). -/
def Obligations.SplitAndJoin : Prop :=
  (∀ (s : State) (c : Ctx) (v : BitVec 25), Issues s c →
      ((∀ e ∈ c.ents, (c.g.arch.path e).jstack.length < 64) →
        Ends (.split v) s c
          (c.g.arch.editPaths c.ents fun p => { p with jstack := (c.iss.pn + v.signExtend 64) :: p.jstack }) []) ∧
      ((∃ e ∈ c.ents, 64 ≤ (c.g.arch.path e).jstack.length) →
        exec (.split v) s = .next (c.trapPath s (FaultInfo.withOperand causeQuota 8)))) ∧
  (∀ (s : State) (c : Ctx) (e : Nat), Issues s c → c.iss.ent = e → e < 32 →
      (c.topIsMe = false → Idles .join s c) ∧
      (c.topIsMe = true → c.ents = [e] → (c.g.arch.path e).meld = false → (c.g.arch.path e).valid = true →
        (c.g.arch.path e).pn = c.iss.pn → (c.g.arch.path e).slot = c.iss.slot →
        let ps := c.g.arch.peers e
        ((∃ k ∈ ps, k ≠ e ∧ ((c.g.arch.path k).state ≠ .joinWait ∨ (c.g.arch.path k).pn ≠ c.iss.pn)) →
          Lands .join s c (c.g.arch.setPath e { c.g.arch.path e with
            state := .joinWait, wait := some (.join false), run := 0 })) ∧
        (∀ k₀ rest, ps = k₀ :: rest → rest ≠ [] →
          (∀ k ∈ ps, k ≠ e → (c.g.arch.path k).state = .joinWait ∧ (c.g.arch.path k).pn = c.iss.pn ∧
            (c.g.arch.path k).wait = some (.join false)) →
          ∃ b, Lands .join s c b ∧ PathsOnly c.g.arch b ∧
            (b.path k₀).valid = true ∧ (b.path k₀).state = .ready ∧ (b.path k₀).mask = c.g.arch.maskOf ps ∧
            (b.path k₀).em = c.g.arch.emOf ps ∧ (b.path k₀).jstack = (c.g.arch.path k₀).jstack.drop 1 ∧
            (b.path k₀).run = 0 ∧
            (let top := ps.foldl (fun n j => max n (c.g.arch.path j).slot) 0
             (top < 2 → (b.path k₀).pn = c.iss.pn ∧ (b.path k₀).slot = top + 1) ∧
             (top = 2 → (b.path k₀).pn = c.iss.pn + 1 ∧ (b.path k₀).slot = 0)) ∧
            (∀ k ∈ rest, (b.path k).valid = false) ∧ (∀ n, n ∉ ps → b.path n = c.g.arch.path n)))) ∧
  (∀ (s : State) (c : Ctx), Issues s c → c.topIsMe = true → (∀ e ∈ c.ents, e < 32) → c.ents.Nodup →
      ((∃ k ∈ c.g.arch.peers c.iss.ent, k ∉ c.ents ∧
          ((c.g.arch.path k).state ≠ .joinWait ∨ (c.g.arch.path k).pn ≠ c.iss.pn)) →
        Lands .join s c (c.g.arch.editPaths c.ents fun p => { p with
          state := .joinWait, wait := some (.join false), run := 0 })) ∧
      (∀ e f, c.ents = [e, f] → c.iss.ent = e → c.g.arch.peers e = [e, f] →
        (∀ k ∈ c.ents, (c.g.arch.path k).valid = true ∧ (c.g.arch.path k).pn = c.iss.pn ∧
          (c.g.arch.path k).slot = c.iss.slot ∧ (c.g.arch.path k).meld = true) →
        (c.g.arch.path e).side = false → (c.g.arch.path f).side = true →
        ∃ b, Lands .join s c b ∧ PathsOnly c.g.arch b ∧
          b.path e = { (c.g.arch.path e).past c.iss.words c.iss.cut with
            state := .ready, wait := none, jstack := (c.g.arch.path e).jstack.drop 1, lost := 0, link := some f } ∧
          b.path f = { (c.g.arch.path f).past c.iss.words c.iss.cut with
            state := .ready, wait := none, jstack := (c.g.arch.path f).jstack.drop 1, lost := 0, link := some e } ∧
          ∀ n, n ≠ e → n ≠ f → b.path n = c.g.arch.path n))

/-- NOP and YIELD on every core (R338). -/
def Obligations.NopAndYield : Prop :=
  ∀ (s : State) (c : Ctx) (q : Quals), Issues s c →
    Idles (.nop q) s c ∧
    (c.active q = 0 → Idles (.yield q) s c) ∧
    (c.active q ≠ 0 → ∃ b, Lands (.yield q) s c b ∧ PathsOnly c.g.arch b ∧
      (∀ e ∈ c.ents, e < 32 → (b.path e).run = 0 ∧ (b.path e).state = (c.g.arch.path e).state ∧
        (b.path e).pn = ((c.advanceArch c.g.arch).path e).pn ∧
        (b.path e).slot = ((c.advanceArch c.g.arch).path e).slot) ∧
      ∀ e, e ∉ c.ents → b.path e = c.g.arch.path e)

/-- LAND, DPHINC, WAITF, TRAP, BRK and PROG (R77, R43, R223, R389, R335, R461, R468). -/
def Obligations.SmallControlForms : Prop :=
  ∀ (s : State) (c : Ctx) (q : Quals) (d b : BitVec 6), Issues s c →
    Idles (.land q) s c ∧
    (c.active q ≠ 0 → Ends (.dphinc q) s c { c.g.arch with dph := c.g.arch.dph + 1 } []) ∧
    (c.active q = 0 → Idles (.dphinc q) s c) ∧
    (c.active q = 0 → Idles (.waitf q d) s c) ∧
    (c.active q ≠ 0 → (∀ h ∈ c.halves (c.active q), c.check s (Need.atL.names [c.rename h.1 d]) = none) →
      let empty := (c.ents.map fun e => c.rename e d).filter fun r => !(c.src.vreg r).full
      (empty = [] → Idles (.waitf q d) s c) ∧ (empty ≠ [] → Waits (.waitf q d) s c (.full empty))) ∧
    (let f := FaultInfo.withOperand causeTrapInsn (match Quals.imm? q with
        | some v => imm25S v
        | none => b.setWidth 64)
     (c.active q = 0 → Idles (.trap q b) s c) ∧
     (∀ e m, c.halves (c.active q) = [(e, m)] → ∃ t g, exec (.trap q b) s = .next t ∧ t.group c.iss.core c.iss.grp = some g ∧
       g.seq = c.g.seq + 1 ∧ (∀ a, Memory.byte t.mem a = Memory.byte s.mem a) ∧
       (∀ k, k ≠ groupKey c.iss.core c.iss.grp → t.groups.find k = s.groups.find k) ∧
       (∀ j, c.g.arch.freeEntry = some j → c.iss.shadow = none → e < 32 → c.ents.Nodup → (c.g.arch.path e).valid = true → m ≠ 0 →
         LanesLeft c c.g.arch g.arch e j m causeTrapInsn)) ∧
     (2 ≤ (c.halves (c.active q)).length → exec (.trap q b) s = .next (c.trapPath s f))) ∧
    ((c.active q = 0 ∨ isRanene c.iss.core = true ∨ (s.ctx c.g.vi).dbgctl.getLsbD 0 = false) → Idles (.brk q b) s c) ∧
    (c.active q ≠ 0 → isRanene c.iss.core = false → (s.ctx c.g.vi).dbgctl.getLsbD 0 = true →
      (s.ctx c.g.vi).dbgctl.getLsbD 2 = false →
      exec (.brk q b) s = .next (c.trapPath s (FaultInfo.withOperand causeBreakpoint (b.setWidth 64)))) ∧
    (Allowed s c (some 10) false →
      ((c.active q = 0 ∨ isRanene c.iss.core = true) → Idles (.prog q b) s c) ∧
      (c.active q ≠ 0 → isRanene c.iss.core = false → c.g.rob = [] → (s.ctx c.g.vi).dbgctl.getLsbD 13 = false →
        EndsIn (.prog q b) s (s.setCtx c.g.vi ((s.ctx c.g.vi).bump b.toNat 1)) c c.g.arch []))

/-- EXIT (R339): of a path that is no consist and of a consist, in a group in which no path waits at a JOIN; and of the path
for which all its peers wait, which merge without it (R325). -/
def Obligations.ExitRemovesLanes : Prop :=
  (∀ (s : State) (c : Ctx) (q : Quals) (e : Nat), Issues s c → c.ents = [e] → e < 32 → c.iss.shadow = none →
    (∀ n, (c.g.arch.path n).valid = true → (c.g.arch.path n).state ≠ .joinWait) → (c.g.arch.path e).link = none →
    (c.g.arch.path e).valid = true → (c.g.arch.path e).mask ≠ 0 →
    let out := (c.g.arch.path e).mask &&& c.guard q
    ∃ t g, exec (.exit q) s = .next t ∧ t.group c.iss.core c.iss.grp = some g ∧ PathsOnly c.g.arch g.arch ∧
      (∀ a, Memory.byte t.mem a = Memory.byte s.mem a) ∧
      ((c.g.arch.path e).mask &&& ~~~ out ≠ 0 →
        g.arch.path e = { (c.advanceArch c.g.arch).path e with
          mask := (c.g.arch.path e).mask &&& ~~~ out, em := (c.g.arch.path e).em &&& ~~~ out }) ∧
      ((c.g.arch.path e).mask &&& ~~~ out = 0 → g.arch.path e = Path.none) ∧
      (∀ n, n ≠ e → g.arch.path n = c.g.arch.path n) ∧
      ((∀ n, (g.arch.path n).valid = false) → c.g.rob = [] → g.ended = true ∧ (c.g.ended = false → g.lq = 0)) ∧
      ((∃ n, n < 32 ∧ (g.arch.path n).valid = true) → g.ended = c.g.ended ∧ g.lq = c.g.lq)) ∧
  (∀ (s : State) (c : Ctx) (q : Quals) (e f : Nat), Issues s c → c.ents = [e, f] → e ≠ f → e < 32 → f < 32 →
    c.iss.shadow = none → (∀ n, (c.g.arch.path n).valid = true → (c.g.arch.path n).state ≠ .joinWait) →
    (c.g.arch.path e).link = some f → (c.g.arch.path f).link = some e →
    (c.g.arch.path e).valid = true → (c.g.arch.path f).valid = true →
    let out := c.g.arch.maskOf [e, f] &&& c.guard q
    let a := c.advanceArch c.g.arch
    ∃ t g, exec (.exit q) s = .next t ∧ t.group c.iss.core c.iss.grp = some g ∧ PathsOnly c.g.arch g.arch ∧
      (∀ a, Memory.byte t.mem a = Memory.byte s.mem a) ∧
      (∀ k o, (k = e ∧ o = f ∨ k = f ∧ o = e) →
        ((a.path k).mask &&& ~~~ out ≠ 0 →
          g.arch.path k = { a.path k with mask := (a.path k).mask &&& ~~~ out, em := (a.path k).em &&& ~~~ out,
                                          link := if (a.path o).mask &&& ~~~ out = 0 then none else some o }) ∧
        ((a.path k).mask &&& ~~~ out = 0 → g.arch.path k = Path.none)) ∧
      (∀ n, n ≠ e → n ≠ f → g.arch.path n = c.g.arch.path n)) ∧
  (∀ (s : State) (c : Ctx) (q : Quals) (e k₀ : Nat) (rest : List Nat) (j : DWord), Issues s c → c.ents = [e] → e < 32 →
    c.iss.shadow = none → (c.g.arch.path e).link = none → (c.g.arch.path e).valid = true → (c.g.arch.path e).meld = false →
    (c.g.arch.path e).jstack.head? = some j → (c.g.arch.path e).state = .ready →
    (c.g.arch.path e).mask &&& ~~~ (c.guard q) = 0 →
    (c.g.arch.peers e).filter (· ≠ e) = k₀ :: rest →
    (∀ n, (c.g.arch.path n).valid = true → ((c.g.arch.path n).state = .joinWait ↔ n ∈ k₀ :: rest)) →
    (∀ k ∈ k₀ :: rest, (c.g.arch.path k).pn = j) →
    ∃ t g, exec (.exit q) s = .next t ∧ t.group c.iss.core c.iss.grp = some g ∧ PathsOnly c.g.arch g.arch ∧
      (∀ a, Memory.byte t.mem a = Memory.byte s.mem a) ∧ g.arch.path e = Path.none ∧
      (g.arch.path k₀).valid = true ∧ (g.arch.path k₀).state = .ready ∧
      (g.arch.path k₀).mask = c.g.arch.maskOf (k₀ :: rest) ∧ (g.arch.path k₀).em = c.g.arch.emOf (k₀ :: rest) ∧
      (g.arch.path k₀).jstack = (c.g.arch.path k₀).jstack.drop 1 ∧
      (∀ k ∈ rest, g.arch.path k = Path.none) ∧ ∀ n, n ≠ e → n ∉ k₀ :: rest → g.arch.path n = c.g.arch.path n)

/-! ### Exceptions (chapters 08 and 15) -/

/-- The trap of a whole stream (R370 "Path", R372, R374): its registers are as they were, its entries are in the siding at
the instruction with every lane, and the record is written at once where nothing older is unretired. -/
def Obligations.TrapSidesTheStream : Prop :=
  ∀ (s : State) (c : Ctx) (f : FaultInfo), Issues s c → c.iss.shadow = none → (∀ e ∈ c.ents, e < 32) → c.ents.Nodup →
    let t := c.trapPath s f
    ∃ g, t.group c.iss.core c.iss.grp = some g ∧ PathsOnly c.g.arch g.arch ∧ g.seq = c.g.seq + 1 ∧ t.iss = none ∧
      (∀ e ∈ c.ents, SidedAt c (c.g.arch.path e) (g.arch.path e) f) ∧
      (∀ n, n ∉ c.ents → g.arch.path n = { c.g.arch.path n with link := (g.arch.path n).link }) ∧
      (∀ a, Memory.byte t.mem a = Memory.byte s.mem a) ∧
      (∀ k, k ≠ groupKey c.iss.core c.iss.grp → t.groups.find k = s.groups.find k) ∧
      (c.g.settled = true → isRanene c.iss.core = false → (s.ctx c.g.vi).dbgctl.getLsbD 11 = false →
        g.rob = c.g.rob ∧ ∃ r, t.mgmt.fqWait.get (dieOfCore c.iss.core) [] =
          s.mgmt.fqWait.get (dieOfCore c.iss.core) [] ++ [r] ∧
          r.extractLsb' 0 8 = f.cause ∧ r.extractLsb' 192 64 = BitVec.ofNat 64 c.g.seq) ∧
      (c.g.settled = true → isRanene c.iss.core = true → g.stopped = true ∧ t.mgmt.merr = true) ∧
      (c.g.settled = false → ∃ e, g.rob = c.g.rob ++ [e] ∧ e.pos = c.g.seq ∧ e.stage = .reported ∧
        t.mgmt.fqWait = s.mgmt.fqWait)

/-- The 64-byte fault record, field by field (Table 15-2). -/
def Obligations.FaultRecordLayout : Prop :=
  ∀ (s : State) (core grp sided pos slot : Nat) (g : Group) (f : FaultInfo) (p : Path) (partly restored : Bool) (pn : DWord),
    let r := faultRecord s core grp g f sided p partly restored pos pn slot
    r.extractLsb' 0 8 = f.cause ∧ r.extractLsb' 8 8 = 0 ∧ r.extractLsb' 16 8 = BitVec.ofNat 8 f.place.code ∧
    r.getLsbD 24 = p.meld ∧ r.getLsbD 25 = p.side ∧ r.getLsbD 26 = partly ∧ r.getLsbD 27 = restored ∧
    r.extractLsb' 28 4 = 0 ∧ r.extractLsb' 32 8 = BitVec.ofNat 8 (f.wslot.getD slot) ∧
    r.extractLsb' 40 8 = BitVec.ofNat 8 g.vi ∧ r.extractLsb' 48 16 = 0 ∧ r.extractLsb' 64 64 = selWord core grp sided ∧
    r.extractLsb' 128 64 = pn ∧ r.extractLsb' 192 64 = (if restored then 0 else BitVec.ofNat 64 pos) ∧
    r.extractLsb' 256 64 = f.addr ∧ r.extractLsb' 320 64 = f.operand ∧ r.extractLsb' 384 32 = f.mask.getD p.em ∧
    r.extractLsb' 416 32 = BitVec.ofNat 32 (s.teamNumber g) ∧ r.extractLsb' 448 64 = BitVec.ofNat 64 s.ns

/-! ### Memory (chapter 07) -/

/-- LD, ST, LDX, STX, ATOM, RED and CAS at dispatch. -/
def Obligations.MemoryInstructionsDispatch : Prop :=
  ∀ (s : State) (c : Ctx) (i : Instr) (f : MemForm) (q : Quals), Issues s c → memForm i = some (f, q) →
    (c.active q = 0 → Idles i s c) ∧
    (∀ base, c.active q ≠ 0 → MemReady c s f (c.active q) base →
      ∃ a es, MemEffect c s f (c.active q) base a es ∧ Posts i s c f.op a es)

/-- LDU and STU (R180): once for the group, at s[S] plus the offset of the EXT.MEM. -/
def Obligations.ScalarAccessesDispatch : Prop :=
  ∀ (s : State) (c : Ctx) (q : Quals) (d b : BitVec 6) (base : DWord), Issues s c →
    let ea := base + (Quals.memx q).ofs.signExtend 64
    (∀ (i : Instr) (kind : MKind) (size : Nat) (signed : Bool) (v : DWord),
      ((i = .lduB32z q d b ∧ kind = .loadS ∧ size = 4 ∧ signed = false ∧ v = 0) ∨
       (i = .lduB32s q d b ∧ kind = .loadS ∧ size = 4 ∧ signed = true ∧ v = 0) ∨
       (i = .lduB64 q d b ∧ kind = .loadS ∧ size = 8 ∧ signed = false ∧ v = 0) ∨
       (i = .stuB32 q d b ∧ kind = .storeS ∧ size = 4 ∧ signed = false ∧ ReadsS c d v) ∨
       (i = .stuB64 q d b ∧ kind = .storeS ∧ size = 8 ∧ signed = false ∧ ReadsS c d v)) →
      (c.active q = 0 → Idles i s c) ∧
      (c.active q ≠ 0 → ReadsS c b base → c.g.acq = none →
        (∀ cause, s.locate c.iss.core c.iss.grp c.g (kind == .storeS) false size .l 0 ea = .error cause →
          exec i s = .next (c.trapPath s (FaultInfo.withAddr cause ea))) ∧
        (∀ t off, s.locate c.iss.core c.iss.grp c.g (kind == .storeS) false size .l 0 ea = .ok (t, off) →
          (∀ home, c.g.conflict [t] home = false) →
          (∀ core part n o, t = .slot core part n o → (s.slot core part n).present = true) →
          ∃ a e, Posts i s c (memOf kind size signed 0 (Quals.memx q)) a [e] ∧ e.place = .l ∧ e.stage = .posted ∧ e.pos = c.g.seq ∧
            e.memOp = some (memOf kind size signed 0 (Quals.memx q)) ∧
            e.reqs = [⟨t, [⟨0, d.toNat, off, v.setWidth 128, 0, 0⟩], .todo, none, 0, 0⟩] ∧
            (kind = .loadS → d ≠ 0 → (d.toNat, c.g.seq) ∈ a.sPend) ∧
            (∀ p, p.1 ≠ d.toNat → (p ∈ a.sPend ↔ p ∈ c.g.arch.sPend)) ∧
            a = { c.g.arch with sPend := a.sPend })))

/-- The performing of the lanes of one request (R171, R185 to R188): Table 07-7 for ATOM and RED, a store's bytes, a CAS. -/
def Obligations.AccessesPerform : Prop :=
  ∀ (op : MemOp) (l : Line) (a : Acc) (rest : List Acc), op.size = 1 ∨ op.size = 2 ∨ op.size = 4 ∨ op.size = 8 →
    a.off + op.size ≤ 128 → (op.kind = .atom ∨ op.kind = .red → op.size = if op.f = 12 ∨ op.f = 13 then 8 else 4) → op.f < 16 →
    ∃ l1, performAccs op l (a :: rest) =
        ((performAccs op l1 rest).1, { a with got := BitVec.ofNat 128 (Line.field l a.off op.size) } :: (performAccs op l1 rest).2) ∧
      (∀ k, k < 128 → k < a.off ∨ a.off + op.size ≤ k → Line.byte l1 k = Line.byte l k) ∧
      (op.kind ≠ .spill → op.kind ≠ .czero → Line.field l1 a.off op.size =
        (accValue op a (BitVec.ofNat 64 (Line.field l a.off op.size))).toNat) ∧
      (op.kind.isWrite = false → l1 = l)

/-- FENCE and FENCE.ENG (R191, R192) with the operations of R181. -/
def Obligations.FencesOrder : Prop :=
  ∀ (s : State) (c : Ctx) (m : MemX) (eng : Bool), Issues s c →
    let i : Instr := if eng then .fenceEng m else .fence m
    let cls := if m.sc.toNat ≤ 3 then 0 else scopeClass m.sc
    (c.active (quals 0) = 0 → Idles i s c) ∧
    (c.active (quals 0) ≠ 0 → c.g.acq = none →
      (2 ≤ m.ord.toNat → s.released c.g (scopeClass m.sc) = false →
        exec i s = .next (c.block s (.release (scopeClass m.sc)))) ∧
      (m.ord.toNat < 2 ∨ s.released c.g (scopeClass m.sc) = true →
        (m.ord.getLsbD 0 = false → Idles i s c) ∧
        (m.ord.getLsbD 0 = true →
          (eng = true → cls ≠ 0 → s.ns ≤ s.seenCopies c.g → s.seenCopies c.g ≠ 0 →
            exec i s = .next (c.block s (.time (s.seenCopies c.g)))) ∧
          ((eng = false ∨ cls = 0 ∨ s.seenCopies c.g < s.ns ∨ s.seenCopies c.g = 0) →
            (s.loaded c.g cls = false → exec i s = .next (c.block s (.loaded cls))) ∧
            (s.loaded c.g cls = true →
              ∃ t, exec i s = .next t ∧ GroupOnly c s t { groupAfter c c.g.arch [] with
                floor := if 3 ≤ m.sc.toNat then max c.g.floor s.ns else c.g.floor })))))

/-- The data of a load, and the old values of an atomic, arrive (R173, R178, R185, R188). -/
def Obligations.LoadDataArrives : Prop :=
  ∀ (s : State) (core grp pos : Nat) (g : Group), s.group core grp = some g →
    ((∀ e ∈ g.rob, e.pos = pos → e.arrivable = true → s.mayArrive e = false) →
      exec (.loadDataArrival core grp pos) s = .next s) ∧
    (∀ e op, g.rob.filter (fun e => e.pos == pos && e.arrivable && s.mayArrive e) = [e] → e.stage = .posted →
      e.memOp = some op → op.kind ≠ .fill →
      ∃ g' : Group, exec (.loadDataArrival core grp pos) s = .next ((s.setGroup core grp g').advance core grp) ∧
        (op.kind.returns = true → Delivers e op g.arch g'.arch) ∧
        (∀ h q y ea, op.kind = .loadS → e.op = .mem op [h] ea [q] → q.accs = [y] → q.fail = none → h.d < 64 → h.d ≠ 0 →
          (h.d, e.pos) ∈ g.arch.sPend →
          g'.arch.sreg (BitVec.ofNat 6 h.d) = (if op.size = 8 then y.got.setWidth 64
            else if op.signed then (y.got.setWidth 32).signExtend 64 else (y.got.setWidth 32).setWidth 64)) ∧
        g'.rob.map (fun x => (x.pos, x.place, x.op)) = g.rob.map (fun x => (x.pos, x.place, x.op)) ∧
        (∀ x ∈ g'.rob, x.pos = e.pos → x.place = e.place → x.isMem = true →
          x.stage = (if e.place = .l then .reported else .executed) ∧ x.fault = e.memFaults))

/-- The life of a post at its place (R211, R213 to R215). -/
def Obligations.PostsLive : Prop :=
  ∀ (s : State) (core grp pos : Nat) (g : Group) (e : Entry) (o : LaneOp) (hs : List Half), s.group core grp = some g →
    (g.rob.filter (fun x => x.pos == pos) = [e] → e.pos = pos → e.op = .lane o hs → e.place ≠ .l → e.stage = .posted →
      e.fault = [] → g.nextAt e = true → (∀ h ∈ hs, h.ready o (e.old.getD e.before) = true) →
      (∀ k ∈ e.units hs, s.unitFree k = true) → s.firstInLine (e.units hs) (core, grp, pos) = true →
      (∀ h ∈ hs, (e.before.vreg h.d).place = .k ∨ (e.before.vreg h.d).page ≠ none) → g.frameClear e hs = true → hs.Pairwise (fun h k => h.act &&& k.act = 0) → (∀ h ∈ hs, h.d < 64) →
      (∀ h ∈ hs, ∀ r ∈ h.results o (e.old.getD e.before) (Quals.modx (quals 0)),
        r.2.2 &&& enables (e.old.getD e.before).fcr = 0) →
      ∃ g' : Group,
        exec (.postExecute core grp pos) s = .next ((s.leaveLine (e.units hs) (core, grp, pos)).setGroup core grp g') ∧
        (∀ h ∈ hs, ∀ r ∈ h.results o (e.old.getD e.before) (Quals.modx (quals 0)),
          ((g.arch.vreg h.d).owed pos).getLsbD r.1 = true → (g'.arch.vreg h.d).lane r.1 = r.2.1) ∧
        (∀ n l, l < 32 → ((g.arch.vreg n).owed pos).getLsbD l = false → (g'.arch.vreg n).lane l = (g.arch.vreg n).lane l) ∧
        g'.arch = { g.arch with v := g'.arch.v } ∧
        ∃ x ∈ g'.rob, x.pos = pos ∧ x.stage = .executed ∧ x.fault = [] ∧
          x.flags = allFlags (hs.flatMap fun h =>
            (h.results o (e.old.getD e.before) (Quals.modx (quals 0))).map fun r => (r.1, r.2.2))) ∧
    (∀ rest, g.rob = e :: rest → e.pos = pos → e.op = .lane o hs → e.place ≠ .l → e.stage = .executed → e.fault = [] →
      (∀ x ∈ rest, x.pos ≠ pos ∧ x.stage = .posted ∧ x.place ≠ .l) →
      ∃ t g', exec (.postReport core grp pos) s = .next t ∧ t.group core grp = some g' ∧
        g'.arch = g.arch.addFlags e.flags ∧
        g'.rob.map (fun x => (x.pos, x.stage)) = (pos, .released) :: rest.map (fun x => (x.pos, x.stage)) ∧
        (∀ a, Memory.byte t.mem a = Memory.byte s.mem a)) ∧
    (∀ rest, g.rob = e :: rest → e.pos = pos → e.op = .lane o hs → e.place ≠ .l → e.stage = .released → g.arch.valid ≠ [] →
      (∀ x ∈ rest, x.pos ≠ pos ∧ x.stage = .posted ∧ x.place ≠ .l) →
      exec (.postRelease core grp pos) s = .next (s.setGroup core grp { g with rob := rest })) ∧
    ((∀ x ∈ g.rob, pos ≤ x.pos → x.stage = .released) → exec (.cancelFrom core grp pos) s = .next s) ∧
    (g.rob.find? (fun x => pos ≤ x.pos && x.stage != .released) = some e →
      ∃ t g', exec (.cancelFrom core grp pos) s = .next t ∧ t.group core grp = some g' ∧ g'.arch = e.before ∧
        (∀ x, x ∈ g'.rob ↔ x ∈ g.rob ∧ (x.pos < e.pos ∨ x.stage = .released)) ∧
        (∀ k, k ≠ groupKey core grp → t.groups.find k = s.groups.find k) ∧
        (∀ a, Memory.byte t.mem a = Memory.byte s.mem a))
/-! ### Caches, banks and spans (chapters 06 and 07) -/

/-- CWB, CEVT, CINV, PREF and CZERO (R194, Table 07-10), from the state that translating their address leaves. -/
def Obligations.CacheControlsAct : Prop :=
  ∀ (s : State) (c : Ctx) (q : Quals) (b : BitVec 6) (base : DWord), Issues s c → ReadsS c b base → c.active q ≠ 0 →
    let a := base + (Quals.memx q).ofs.signExtend 64
    let k := clusterOfCore c.iss.core
    let loc := s.locate c.iss.core c.iss.grp c.g false false 1 .l 0 a
    let s0 := s.touchAll c.iss.core c.g [a]
    (∀ x, inClass a 0xFF1 = false → loc = .error x →
      Traps (.cwb q b) s c (FaultInfo.withAddr x a) ∧ Traps (.cevt q b) s c (FaultInfo.withAddr x a) ∧
      (isRanene c.iss.core = true → Traps (.cinv q b) s c (FaultInfo.withAddr x a))) ∧
    (∀ part line off, inClass a 0xFF1 = false → loc = .ok (.line part line, off) → (s.latest part line).2 = true →
      Traps (.cwb q b) s c (FaultInfo.withAddr causePoison a) ∧ Traps (.cevt q b) s c (FaultInfo.withAddr causePoison a) ∧
      (isRanene c.iss.core = true → Traps (.cinv q b) s c (FaultInfo.withAddr causePoison a))) ∧
    ((inClass a 0xFF1 = true ∨ (∃ t off, loc = .ok (t, off) ∧ ∀ part line, t ≠ .line part line)) →
      Idles (.cwb q b) s c ∧ Idles (.cevt q b) s c ∧ (isRanene c.iss.core = true → Idles (.cinv q b) s c)) ∧
    ((∀ part line off, loc ≠ .ok (.line part line, off)) → Idles (.pref q b) s c) ∧
    (∀ part line off, inClass a 0xFF1 = false → loc = .ok (.line part line, off) → (s.latest part line).2 = false →
      (c.g.rob ≠ [] → Waits (.cwb q b) s c .drained ∧ Waits (.cevt q b) s c .drained ∧
        (isRanene c.iss.core = true → Waits (.cinv q b) s c .drained)) ∧
      (c.g.rob = [] → (s0.settleLine part line).reachable part line = true →
        let u := (s0.settleLine part line).writeBack k part line c.g.vi
        let v := (u.dropLine k line).settleLine part line
        let w := (s0.settleLine part line).emptyLines part [line]
        (∀ g, u.group c.iss.core c.iss.grp = some g →
          exec (.cwb q b) s = .next (c.finish (c.put u (g.performedAt u.ns)))) ∧
        (∀ g, v.group c.iss.core c.iss.grp = some g →
          exec (.cevt q b) s = .next (c.finish (c.put v (g.performedAt v.ns)))) ∧
        (∀ g, isRanene c.iss.core = true → w.2 = [] → w.1.group c.iss.core c.iss.grp = some g →
          exec (.cinv q b) s = .next (c.finish (c.put w.1 (g.performedAt w.1.ns))))) ∧
      ((s.uncached c.iss.core line .l (Quals.memx q).hint = true ∨ (s.cached k line).isSome = true ∨
        (s.cluster k).pending line = true) → Idles (.pref q b) s c) ∧
      (s.uncached c.iss.core line .l (Quals.memx q).hint = false → s.cached k line = none → (s.cluster k).pending line = false →
        exec (.pref q b) s = .next (c.finish
          ((s0.setCluster k { s0.cluster k with mshr := (s0.cluster k).mshr ++ [⟨line, .gets⟩] }).sendGets k line c.g.floor fun m =>
            { m with vi := c.g.vi, mop := some ⟨.load, 1, false, 0, 0, 0, (Quals.memx q).hint⟩ })))) ∧
    (c.g.acq = none →
      (∀ x, s.locate c.iss.core c.iss.grp c.g true true 128 .l 0 a = .error x →
        Traps (.czero q b) s c (FaultInfo.withAddr x a)) ∧
      (∀ t off, s.locate c.iss.core c.iss.grp c.g true true 128 .l 0 a = .ok (t, off) →
        (∀ home, c.g.conflict [t] home = false) →
        (∀ core part n o, t = .slot core part n o → (s.slot core part n).present = true) →
        ∃ e op, Posts (.czero q b) s c op c.g.arch [e] ∧ op.kind = .czero ∧ e.memOp = some op ∧ e.place = .l ∧
          e.pos = c.g.seq ∧ e.stage = .posted ∧
          ∃ r, e.reqs = [r] ∧ r.tgt = t ∧ r.accs.map (fun y => (y.off, y.val)) = (List.range 8).map fun i => (16 * i, 0)))

/-- SPILL, FILL (R195 to R197), BANKM (R146) and the draining of a bank (R143). -/
def Obligations.SpansAndBanks : Prop :=
  ∀ (s : State) (c : Ctx) (q : Quals) (d a b : BitVec 6) (base x : DWord), Issues s c →
    (∀ spill : Bool, ReadsS c b base → c.active q ≠ 0 → c.g.acq = none →
      let i : Instr := if spill then .spill q d a b else .fill q d a b
      let at0 := base + (Quals.memx q).ofs.signExtend 64
      let hs := spanHalves c q d
      let idx := (List.range a.toNat).filter (c.firstIndex ≤ ·)
      (∀ h ∈ hs, c.check s (spanNeed c spill a.toNat h) = none) →
      (∀ h ∈ hs, ∀ r ∈ (spanNeed c spill a.toNat h).waits, (c.src.vreg r).full = true) → hs ≠ [] →
      (∀ ts home, (∀ t ∈ ts, ∃ j ∈ idx, ∃ off, s.locate c.iss.core c.iss.grp c.g spill false 128 .l 0
        (at0 + BitVec.ofNat 64 (128 * j)) = .ok (t, off)) → c.g.conflict ts home = false) →
      (∀ j ∈ idx, ∀ core part n o off, s.locate c.iss.core c.iss.grp c.g spill false 128 .l 0
        (at0 + BitVec.ofNat 64 (128 * j)) = .ok (.slot core part n o, off) → (s.slot core part n).present = true) →
      ∃ e op b, Posts i s c op b [e] ∧ op.kind = (if spill then .spill else .fill) ∧ op.f = c.firstIndex ∧ e.memOp = some op ∧
        e.place = .l ∧ e.pos = c.g.seq ∧ e.stage = .posted ∧ e.reqs.length = idx.length ∧
        (∀ n j : Nat, idx[n]? = some j → ∃ r, e.reqs[n]? = some r ∧ SpanRequest c s spill at0 hs j r) ∧
        b = { c.g.arch with v := b.v, dirty := b.dirty } ∧ (spill = true → b = c.g.arch) ∧
        ∀ n, b.vreg n = { c.g.arch.vreg n with prods := (b.vreg n).prods }) ∧
    (c.active q ≠ 0 →
      let k := clusterOfCore c.iss.core
      let n := x.toNat % 32
      let old := (s.cluster k).banks.getD n Bank.zero
      let turn := (c.g.arch.path c.iss.ent).wait == some (.bank k n)
      (isRanene c.iss.core = true → Traps (.bankm q a b) s c (FaultInfo.ofCause causeProtection)) ∧
      (isRanene c.iss.core = false → ReadsS c b x →
        (c.g.rob ≠ [] → Waits (.bankm q a b) s c .drained) ∧
        (c.g.rob = [] →
          (old.holder ≠ none → Traps (.bankm q a b) s c (FaultInfo.ofCause causeProtection)) ∧
          (old.holder = none → turn = false → s.bankAwaited k n = true → Waits (.bankm q a b) s c (.bank k n)) ∧
          (old.holder = none → turn = true ∨ s.bankAwaited k n = false →
            (old.mode = BankMode.ofCode a.toNat → ∃ u, EndsIn (.bankm q a b) s u c c.g.arch [] ∧
              (u.cluster k).banks = (s.cluster k).banks.set n { old with drain := false } ∧ u = { s with clusters := u.clusters }) ∧
            (old.mode ≠ BankMode.ofCode a.toNat → old.mode = .frame → s.frameIn k n = true →
              Traps (.bankm q a b) s c (FaultInfo.ofCause causeProtection)) ∧
            (old.mode ≠ BankMode.ofCode a.toNat → old.mode = .cache → (s.emptyBank k n).2 = false →
              exec (.bankm q a b) s = .next (c.block ((s.emptyBank k n).1.editBank k n fun b => { b with drain := true })
                (.bank k n))) ∧
            (old.mode ≠ BankMode.ofCode a.toNat → old.mode ≠ .cache → (old.mode = .frame → s.frameIn k n = false) →
              n < (s.cluster k).banks.length →
              ∃ u, EndsIn (.bankm q a b) s u c c.g.arch [] ∧
                (u.cluster k).banks = (s.cluster k).banks.set n { old with mode := BankMode.ofCode a.toNat, drain := false } ∧
                (∀ o, o < 98304 → Memory.byte u.mem (scratchCell k n o) = 0) ∧
                (∀ m, m < scratchCell k n 0 ∨ scratchCell k n 0 + 2 ^ 17 ≤ m → Memory.byte u.mem m = Memory.byte s.mem m) ∧
                u = { s with clusters := u.clusters, mem := u.mem }))))) ∧
    (∀ k n, (((s.cluster k).banks.getD n Bank.zero).drain = false ∨ s.bankAwaited k n = true) →
      exec (.bankDrain k n) s = .next s) ∧
    (∀ k n, ((s.cluster k).banks.getD n Bank.zero).drain = true → s.bankAwaited k n = false → n < (s.cluster k).banks.length →
      (∀ l ∈ (s.cluster k).lines, l.2.bank ≠ n) →
      ∃ u, exec (.bankDrain k n) s = .next u ∧
        (u.cluster k).banks = (s.cluster k).banks.set n { (s.cluster k).banks.getD n Bank.zero with drain := false } ∧
        (∀ o, o < 98304 → Memory.byte u.mem (scratchCell k n o) = 0) ∧
        u = { s with clusters := u.clusters, mem := u.mem })

/-! ### Places (chapter 08) -/

/-- HOME (R220 to R222, R206). -/
def Obligations.HomeMovesRegisters : Prop :=
  ∀ (s : State) (c : Ctx) (q : Quals) (d ar : BitVec 6) (a : DWord), Issues s c → c.active q ≠ 0 →
    ∀ (i : Instr) (new : Place),
      ((i = .homeL q d ∧ new = .l ∧ a = 0) ∨ (i = .homeK q d ∧ new = .k ∧ a = 0) ∨
       (i = .homeH q d ar ∧ new = .h ∧ ReadsS c ar a) ∨ (i = .homeM q d ar ∧ new = .m ∧ ReadsS c ar a)) →
      let n := d.toNat
      let old := c.g.arch.vreg n
      (c.isW d = true → Traps i s c (FaultInfo.ofCause causeMeld)) ∧
      (c.isW d = false →
        (new = .l → c.g.lq ≤ n → Traps i s c (FaultInfo.withOperand causeQuota (BitVec.ofNat 64 (n * 2 ^ 8)))) ∧
        (new ≠ .l → (isRanene c.iss.core = true ∨ c.placeOpen s new = false) → Traps i s c (FaultInfo.ofCause causePlaceOp)) ∧
        ((new = .l ∧ n < c.g.lq) ∨ (new ≠ .l ∧ isRanene c.iss.core = false ∧ c.placeOpen s new = true) →
          (∀ x, new = .h ∨ new = .m → s.anchor c.iss.core c.g new a = .error x → Traps i s c (FaultInfo.withAddr x a)) ∧
          (∀ dpa pg, (if new = .h ∨ new = .m then ∃ m, s.anchor c.iss.core c.g new a = .ok (dpa, m) ∧ pg = some m
              else dpa = 0 ∧ pg = none) →
            let u := if new = .h ∨ new = .m then s.touchAll c.iss.core c.g [a] else s
            (new = old.place → (new = .l ∨ new = .k ∨ a = old.anchor) → EndsFrom i s u c c.g.arch []) ∧
            ((new ≠ old.place ∨ (new ≠ .l ∧ new ≠ .k ∧ a ≠ old.anchor)) → c.g.posts + 1 ≤ 32 →
              ((old.place = .l ∨ old.place = .m) → old.full = false → Waits i s c (.full [n])) ∧
              (((old.place ≠ .l ∧ old.place ≠ .m) ∨ old.full = true) →
                (∀ f, c.frameRoom u new a dpa = .error f → ∃ x, f = .trap x ∧ x.cause = causePlaceFull ∧ Traps i s c x) ∧
                (∀ anchor, c.frameRoom u new a dpa = .ok anchor →
                  ∃ b e, EndsFrom i s u c b [e] ∧ e.op = .home n old ∧ e.place = (if new = .l then old.place else new) ∧
                    e.pos = c.g.seq ∧ (b.vreg n).place = new ∧ (b.vreg n).anchor = anchor ∧ (b.vreg n).dpa = dpa ∧ (b.vreg n).page = pg ∧
                    (b.vreg n).lanes = old.lanes ∧ (b.vreg n).prods = [(c.g.seq, 0xFFFFFFFF)] ∧
                    (∀ k, k ≠ n → b.vreg k = c.g.arch.vreg k) ∧ b = { c.g.arch with v := b.v }))))))

/-- DRAIN, MFPM and QUOTA (R224 to R227). -/
def Obligations.DrainMfpmQuota : Prop :=
  ∀ (s : State) (c : Ctx) (q : Quals) (d a : BitVec 6) (x : DWord), Issues s c → c.active q ≠ 0 →
    (c.g.rob ≠ [] → Waits (.drain q) s c .drained) ∧
    (c.g.rob = [] → (∀ n, n < 64 → (c.g.arch.vreg n).full = true) → Idles (.drain q) s c) ∧
    (c.g.rob = [] → (∃ n, n < 64 ∧ (c.g.arch.vreg n).full = false) →
      ∃ rs, Waits (.drain q) s c (.full rs) ∧ ∀ n, n ∈ rs ↔ n < 64 ∧ (c.g.arch.vreg n).full = false) ∧
    (∃ w, SetsS (.mfpm q d a) s c d w ∧ (w.extractLsb' 0 2).toNat = (c.g.arch.vreg a.toNat).place.code ∧
      w.extractLsb' 2 2 = 0 ∧ (w.getLsbD 4 = true ↔ ∃ e ∈ c.g.rob, e.writesReg a.toNat = true) ∧
      w.getLsbD 5 = (c.g.arch.vreg a.toNat).full ∧ w.getLsbD 6 = c.g.arch.dirty.getLsbD a.toNat ∧
      ((c.g.arch.vreg a.toNat).place = .l → w.extractLsb' 7 57 = 0) ∧
      ((c.g.arch.vreg a.toNat).place = .k →
        w.extractLsb' 7 14 = (c.g.arch.vreg a.toNat).anchor.extractLsb' 7 14 ∧ w.extractLsb' 21 43 = 0) ∧
      ((c.g.arch.vreg a.toNat).place = .h ∨ (c.g.arch.vreg a.toNat).place = .m →
        w.extractLsb' 7 49 = (c.g.arch.vreg a.toNat).anchor.extractLsb' 7 49 ∧ w.extractLsb' 56 8 = 0)) ∧
    (ReadsS c a x →
      (x.toNat % 8 ≠ 0 ∨ 64 < x.toNat → Traps (.quota q a) s c (FaultInfo.ofCause causeQuota)) ∧
      (x.toNat % 8 = 0 → x.toNat ≤ 64 →
        (s.team c.g = none → Idles (.quota q a) s c) ∧
        (∀ t, s.team c.g = some t → c.g.rob ≠ [] →
          ((c.g.arch.path c.iss.ent).wait = some (.pool x.toNat) → Waits (.quota q a) s c (.pool x.toNat)) ∧
          ((c.g.arch.path c.iss.ent).wait ≠ some (.pool x.toNat) → Waits (.quota q a) s c .drained)) ∧
        (∀ t, s.team c.g = some t → c.g.rob = [] → (∀ n, n < 64 → (c.g.arch.vreg n).full = true) →
          (x.toNat ≤ c.g.lq → ∃ b, Discards c.g.arch b x.toNat c.g.lq ∧ ∃ u, exec (.quota q a) s = .next u ∧
            GroupOnly c (s.editTeam c.g fun t => { t with pool := t.pool + (c.g.lq - x.toNat) }) u
              { groupAfter c b [] with lq := x.toNat }) ∧
          (c.g.lq < x.toNat → x.toNat - c.g.lq ≤ t.pool →
            (s.poolWaited c.g = false ∨ (c.g.arch.path c.iss.ent).wait = some (.pool x.toNat)) →
            ∃ b, Discards c.g.arch b c.g.lq x.toNat ∧ ∃ u, exec (.quota q a) s = .next u ∧
              GroupOnly c (s.editTeam c.g fun t => { t with pool := t.pool - (x.toNat - c.g.lq) }) u
                { groupAfter c b [] with lq := x.toNat }) ∧
          (c.g.lq < x.toNat →
            (t.pool < x.toNat - c.g.lq ∨
              (s.poolWaited c.g = true ∧ (c.g.arch.path c.iss.ent).wait ≠ some (.pool x.toNat))) →
            Waits (.quota q a) s c (.pool x.toNat)))))

/-! ### Slots and matrix operations (chapters 06 and 11) -/

/-- CLAIM, RELS, SLOTQ and LDO (R163 to R166), and the end of an LDO. -/
def Obligations.SlotsAct : Prop :=
  ∀ (s : State) (c : Ctx) (q : Quals) (d a : BitVec 6), Issues s c → c.active q ≠ 0 →
    let k := partOf c.iss.core c.iss.grp
    let o := s.slot c.iss.core k d.toNat
    (o.owner = some c.iss.grp → Idles (.claim q d) s c) ∧
    (o.owner = none → c.g.rob = [] →
      ((c.g.arch.path c.iss.ent).wait = some (.slotFree d.toNat) ∨ s.slotWaited c.iss.core k d.toNat = false) →
      ∃ u, EndsIn (.claim q d) s u c c.g.arch [] ∧ SlotSet s u c.iss.core k d.toNat
        { o with owner := some c.iss.grp, tile := 0, side := 0, present := true, tag := 3 }) ∧
    (o.owner ≠ some c.iss.grp →
      (o.owner ≠ none ∨ c.g.rob ≠ [] ∨
        ((c.g.arch.path c.iss.ent).wait ≠ some (.slotFree d.toNat) ∧ s.slotWaited c.iss.core k d.toNat = true)) →
      Waits (.claim q d) s c (.slotFree d.toNat)) ∧
    (o.owner ≠ some c.iss.grp → Traps (.rels q d) s c (FaultInfo.ofCause causeSlotOwner) ∧
      Traps (.ldoF8 q d a) s c (FaultInfo.ofCause causeSlotOwner) ∧
      Traps (.ldoBf16 q d a) s c (FaultInfo.ofCause causeSlotOwner) ∧
      (Allowed s c (some 5) false → Traps (.ldoQ4n q d a) s c (FaultInfo.ofCause causeSlotOwner))) ∧
    (o.owner = some c.iss.grp →
      (c.g.rob ≠ [] → Waits (.rels q d) s c .drained) ∧
      (c.g.rob = [] → s.slotIdle c.iss.core k d.toNat true = false → Waits (.rels q d) s c (.slotIdle d.toNat true)) ∧
      (c.g.rob = [] → s.slotIdle c.iss.core k d.toNat true = true →
        ∃ u, EndsIn (.rels q d) s u c c.g.arch [] ∧ SlotSet s u c.iss.core k d.toNat { o with owner := none })) ∧
    (let x := s.slot c.iss.core k a.toNat
     let mate := ∃ n h, x.owner = some n ∧ s.group c.iss.core n = some h ∧ h.team = c.g.team ∧ c.g.team ≠ none
     ∃ w, SetsS (.slotq q d a) s c d w ∧ w.extractLsb' 14 2 = x.tag ∧ w.getLsbD 13 = (x.pend != 0) ∧
      w.getLsbD 12 = x.present ∧ (w.getLsbD 11 = true ↔ mate) ∧ (w.getLsbD 10 = true ↔ x.owner = some c.iss.grp) ∧
      w.getLsbD 9 = x.owner.isSome ∧ (w.getLsbD 11 = false → w.extractLsb' 0 9 = 0) ∧
      (∀ n, mate → x.owner = some n → n < 256 → (w.extractLsb' 0 9).toNat = n)) ∧
    (∀ (i : Instr) (f : Nat) (base : DWord) (side : Option DWord), o.owner = some c.iss.grp → ReadsS c a base →
      ((i = .ldoF8 q d a ∧ f = 0 ∧ side = none) ∨ (i = .ldoBf16 q d a ∧ f = 1 ∧ side = none) ∨
       (i = .ldoQ4n q d a ∧ f = 2 ∧ Allowed s c (some 5) false ∧ ∃ y, side = some y ∧ ReadsS c (a + 1) y)) →
      let ea := base + (Quals.memx q).ofs.signExtend 64
      (∀ e, c.ldoReqs s ea side = .error e → Traps i s c e) ∧
      (∀ rs, c.ldoReqs s ea side = .ok rs → c.g.acq = none → s.slotIdle c.iss.core k d.toNat false = true →
        (∀ home, c.g.conflict (rs.map (·.tgt) ++ [0, 128, 256].map fun x => Target.slot c.iss.core k d.toNat x) home = false) →
        (∀ r ∈ rs, ∀ core part n b, r.tgt = .slot core part n b → (s.slot core part n).present = true) →
        ∃ e op u, PostsIn i s u c op c.g.arch [e] ∧ op.kind = .ldo ∧ op.f = f ∧ e.memOp = some op ∧ e.reqs = rs ∧
          e.pos = c.g.seq ∧ e.stage = .posted ∧
          SlotSet s u c.iss.core k d.toNat { o with present := false, tag := BitVec.ofNat 2 f })) ∧
    (∀ core part slot,
      ((∀ n g, (s.slot core part slot).owner = some n → s.group core n = some g → g.ldoDone slot = none) →
        exec (.slotPresent core part slot) s = .next s) ∧
      (∀ n g e op h hs ea rs, (s.slot core part slot).owner = some n → part = partOf core n → s.group core n = some g →
        g.ldoDone slot = some e → e.op = .mem op (h :: hs) ea rs → e.memFaults = [] →
        ∃ u, (∃ v g', exec (.slotPresent core part slot) s = .next (v.advance core n) ∧ v = u.setGroup core n g' ∧
            g'.arch = g.arch) ∧
          SlotSet s u core part slot { s.slot core part slot with
            tile := BitVec.ofNat 2048 (unitsOf rs 0 16)
            present := true
            side := if op.f = 2 then BitVec.ofNat 512 (unitsOf rs 16 4) else (s.slot core part slot).side }))

/-- MMA and MMSP at dispatch, and the passes of the unit (R282 to R288). -/
def Obligations.MatrixRuns : Prop :=
  ∀ (s : State),
    (∀ (c : Ctx) (i : Instr) (f : MatrixForm), Issues s c → matrixForm i = some f → Allowed s c f.feat false →
      (c.active f.q = 0 → Idles i s c) ∧
      (c.active f.q ≠ 0 → (∀ h ∈ matrixHalves f c, c.check s (mmaNeed f.sparse f.f f.ta c h) = none) → matrixHalves f c ≠ [] →
        (∀ e ∈ c.ents, ∃ h ∈ matrixHalves f c, h.ent = e) → (c.slot s f.slot).owner ≠ some c.iss.grp →
        Traps i s c (FaultInfo.ofCause causeSlotOwner)) ∧
      (c.active f.q ≠ 0 → MatrixReady f c s →
        ∃ b e u ps, EndsIn i s u c b [e] ∧ e.op = .mma (matrixHalves f c) ps.length ∧ e.pos = c.g.seq ∧ e.stage = .posted ∧
          u.part c.iss.core (partOf c.iss.core c.iss.grp) = { s.part c.iss.core (partOf c.iss.core c.iss.grp) with
            mtx := (s.part c.iss.core (partOf c.iss.core c.iss.grp)).mtx ++ ps } ∧ u = { s with parts := u.parts } ∧
          (∀ p ∈ ps, p.grp = c.iss.grp ∧ p.pos = c.g.seq ∧ p.sparse = f.sparse ∧ p.f = f.f ∧ p.slot = f.slot.toNat ∧
            p.result = none ∧ p.ended = false) ∧
          (∀ h ∈ matrixHalves f c, ∃ p ∈ ps, p.d = h.d ∧ h.act &&& p.act = h.act) ∧
          (∀ h ∈ matrixHalves f c, ∀ r ∈ Machine.span h.d 8, (b.vreg r).owed c.pos &&& h.act = h.act) ∧
          (∀ n, b.vreg n = { c.g.arch.vreg n with prods := (b.vreg n).prods }) ∧
          (∀ n, (∀ h ∈ matrixHalves f c, n ∉ Machine.span h.d 8) → b.vreg n = c.g.arch.vreg n) ∧
          b = { c.g.arch with v := b.v, dirty := b.dirty })) ∧
    (∀ core part, (s.part core part).endedPass s.clk = none → s.nextPass core part = none →
      exec (.matrixPass core part) s = .next s) ∧
    (∀ core part i x g, (s.part core part).endedPass s.clk = none → s.nextPass core part = some (i, x) →
      (s.part core part).mtx[i]? = some x → s.group core x.grp = some g → (s.part core part).forwarders i = [] →
      ∃ u x' ws fl, exec (.matrixPass core part) s = .next u ∧ u = { s with parts := u.parts } ∧
        u.part core part = { s.part core part with mtx := (s.part core part).mtx.set i x' } ∧
        x' = { x with due := s.clk + x.clocks + 12, result := some (ws, fl) } ∧
        ∀ n l, n < 8 → l < 32 → x.act.getLsbD l = true →
          ((ws.getD n (Vector.replicate 32 0))[l]?).getD 0 =
            (x.elem (s.slot core part x.slot).tile (s.slot core part x.slot).side l n (((g.beforeAt x.pos).vreg (x.d + n)).lane l)).1) ∧
    (∀ core part, (s.part core part).duePass s.clk = none → exec (.passResult core part) s = .next s) ∧
    (∀ core part x g ws fl, (s.part core part).duePass s.clk = some x → s.group core x.grp = some g → x.result = some (ws, fl) →
      ∃ u g', exec (.passResult core part) s = .next u ∧ u.group core x.grp = some g' ∧
        (u.part core part).mtx = (s.part core part).mtx.filter (fun y => y != x) ∧
        (∀ n l, n < 8 → l < 32 → x.act.getLsbD l = true → ((g.arch.vreg (x.d + n)).owed x.pos).getLsbD l = true →
          (g'.arch.vreg (x.d + n)).lane l = ((ws.getD n (Vector.replicate 32 0))[l]?).getD 0) ∧
        (∀ n l, l < 32 → ((g.arch.vreg n).owed x.pos).getLsbD l = false → (g'.arch.vreg n).lane l = (g.arch.vreg n).lane l) ∧
        g'.arch = { g.arch with v := g'.arch.v }) ∧
    (∀ (p : Pass) tile side l n d, p.sparse = false → p.f = 7 →
      p.elem tile side l n d = (d + BitVec.ofInt 32 ((List.range 32).map fun k =>
        byteInt (fragAt 8 p.frag l k) * byteInt (tileBits tile (8 * (32 * n + k)) 8)).sum, 0))

/-! ### Mirmet (chapter 04) -/

/-- The AOP instructions (R106, R107) and the work of a Mirmet unit (R99 to R105). -/
def Obligations.AopsAct : Prop :=
  ∀ (s : State),
    (∀ (c : Ctx) (i : Instr) (f : AopForm), Issues s c → aopForm i = some f →
      (c.active f.q = 0 → Idles i s c) ∧
      (c.active f.q ≠ 0 → AopReady f c s →
        ∃ a e, Ends i s c a [e] ∧ e.op = .aop f.o (f.halves c) f.b.toNat ∧ e.place = .m ∧ e.pos = c.g.seq ∧
          e.stage = .posted ∧ (∀ h ∈ f.halves c, (a.vreg h.d).owed c.pos = 0xFFFFFFFF) ∧
          (∀ n, (∀ h ∈ f.halves c, h.d ≠ n) → a.vreg n = c.g.arch.vreg n) ∧
          (∀ n, a.vreg n = { c.g.arch.vreg n with prods := (a.vreg n).prods }) ∧
          a = { c.g.arch with v := a.v, dirty := a.dirty })) ∧
    (∀ (core grp pos : Nat) (g : Group) (e : Entry) (o : AopOp) (h : Half) (b : Nat), s.group core grp = some g →
      let f := e.frame h
      let k := f.unit
      g.rob.filter (fun x => x.pos == pos) = [e] → e.pos = pos → e.place = .m → e.stage = .posted → e.op = .aop o [h] b →
      e.fault = [] → g.nextAt e = true → g.aopReady e [h] (aopReads o) = true → s.jobsOver core grp pos = true →
      s.unitFree k = true → s.firstInLine [k] (core, grp, pos) = true → s.barred o k = false → f.page ≠ none →
      e.aopFault o h = none →
      ((o = .akey ∨ o = .apre ∨ o = .ardt ∨ o = .acnt) →
        ∃ v g', exec (.postExecute core grp pos) s = .next v ∧ v.group core grp = some g' ∧
          (∀ a, Memory.byte v.mem a = Memory.byte s.mem a) ∧
          (∀ l, l < 32 → ((g.arch.vreg h.d).owed pos).getLsbD l = true →
            (g'.arch.vreg h.d).lane l = aopLane o (e.frame h) (e.control h) b l) ∧
          (∀ n, n ≠ h.d → g'.arch.vreg n = g.arch.vreg n) ∧ ∃ x ∈ g'.rob, x.pos = pos ∧ x.stage = .executed ∧ x.fault = []) ∧
      ((o = .aact ∨ ((o = .acmp ∨ o = .acmpa ∨ o = .acmpo) ∧ noRow f = false)) →
        ∃ v g' j, exec (.postExecute core grp pos) s = .next v ∧ v.group core grp = some g' ∧ v.mem = s.mem ∧ g'.arch = g.arch ∧
          (v.munit k.1 k.2).job = some j ∧ j.core = core ∧ j.grp = grp ∧ j.pos = pos ∧ j.reg = h.d ∧
          j.now ++ j.todo = (e.rowOf o h).2) ∧
      ((o = .acmp ∨ o = .acmpa ∨ o = .acmpo) → noRow f = true →
        ∃ v g', exec (.postExecute core grp pos) s = .next v ∧ v.group core grp = some g' ∧ v.mem = s.mem ∧
          (((g.arch.vreg h.d).owed pos).getLsbD 4 = true → (g'.arch.vreg h.d).lane 4 = f.lane 4 ||| 0x100) ∧
          (∀ n, n ≠ h.d → g'.arch.vreg n = g.arch.vreg n) ∧ ∃ x ∈ g'.rob, x.pos = pos ∧ x.stage = .executed ∧ x.fault = []) ∧
      ((o = .awrt ∨ o = .apass) → exec (.postExecute core grp pos) s =
        .next ((s.leaveLine [k] (core, grp, pos)).setGroup core grp
          (g.editEntry pos .m fun x => { x with stage := .executed })))) ∧
    (∀ (stack pch : Nat) (j : RowJob) (g : Group) (e : Entry) (o : AopOp) (hs : List Half) (b : Nat) (h : Half),
      let u := s.munit stack pch
      let f := e.frame h
      u.job = some j → s.group j.core j.grp = some g → g.entry j.pos .m = some e → e.op = .aop o hs b →
      hs.find? (fun k => k.d == j.reg) = some h →
      (j.now ≠ [] → s.ns < u.ends → exec (.subWave stack pch) s = .next s) ∧
      ((j.now = [] ∨ u.ends ≤ s.ns) → j.todo ≠ [] → u.ends ≠ 0 → max (max u.ends j.since) (u.start + s.mfaw stack) ≤ s.ns →
        u.refresh ≤ s.ns → ∃ u' j', exec (.subWave stack pch) s = .next (s.setMunit stack pch u') ∧ u'.start = s.ns ∧
          u'.job = some j' ∧ j'.now = j.todo.take (s.actMax stack) ∧ j'.todo = j.todo.drop (s.actMax stack) ∧
          j'.waves = j.waves + 1 ∧ u'.wait = u.wait) ∧
      ((j.now = [] ∨ u.ends ≤ s.ns) → j.todo = [] → (f.lane 3).toNat < 131072 → f.unit.2 < 32 →
        Memory.wf s.mem = true → (g.arch.vreg h.d).owed j.pos = 0xFFFFFFFF → (g.arch.vreg h.d).place = .m →
        ∃ v g', (exec (.subWave stack pch) s = .next v ∨ exec (.subWave stack pch) s = .next (v.advance j.core j.grp)) ∧
          v.group j.core j.grp = some g' ∧ (u.more = [] → (v.munit stack pch).job = none) ∧
          (∀ i r, u.more = i :: r → (v.munit stack pch).more = r ∧ ∃ k, (v.munit stack pch).job = some k ∧ k.core = i.core ∧
            k.grp = i.grp ∧ k.pos = i.pos ∧ k.reg = i.reg ∧ k.since = s.ns) ∧
          (o ≠ .aact → RowDone o f (e.control h 0) (e.control h 1) j.waves s v (g'.arch.vreg h.d)) ∧
          (o = .aact → v.mem = s.mem ∧ (g'.arch.vreg h.d).tags = List.replicate 8 0 ∧
            ∀ l, l < 32 → (g'.arch.vreg h.d).lane l = aopLane o f (e.control h) b l) ∧
          (∀ n, n ≠ h.d → g'.arch.vreg n = g.arch.vreg n))) ∧
    (∀ stack pch bank, (8 ≤ bank ∧ bank < 16 ∧ s.bankSplit stack = true ∧ (s.munit stack pch).refresh ≤ s.ns ∧
        (∀ j, (s.munit stack pch).job = some j → j.fresh = false) →
        exec (.computeBankRefresh stack pch bank) s = .next (s.setMunit stack pch { s.munit stack pch with
          refresh := s.ns + 160, job := (s.munit stack pch).job.map fun j => { j with fresh := true } })) ∧
      ((∃ j, (s.munit stack pch).job = some j ∧ j.fresh = true) → exec (.computeBankRefresh stack pch bank) s = .next s)) ∧
    (∀ k m rest, (s.units.get k MUnit.zero).wait = m :: rest →
      ((s.units.get k MUnit.zero).job = none → exec (.computeWindowAccess k) s =
        .next (deliver { s with units := s.units.put k { s.units.get k MUnit.zero with wait := rest } } m)) ∧
      ((s.units.get k MUnit.zero).job ≠ none → exec (.computeWindowAccess k) s = .next s)) ∧
    (∀ k core grp pos rest, (s.units.get k MUnit.zero).wait = [] → (s.units.get k MUnit.zero).direct = (core, grp, pos) :: rest →
      ((s.units.get k MUnit.zero).job ≠ none → exec (.computeWindowAccess k) s = .next s) ∧
      (∀ g e, (s.units.get k MUnit.zero).job = none → s.group core grp = some g → g.entry pos .m = some e →
        exec (.computeWindowAccess k) s = .next
          (({ s with units := s.units.put k { s.units.get k MUnit.zero with direct := rest } }).startReqs core grp pos .m
            e.reqs.length)))

/-! ### Copies (chapter 06) -/

/-- CPY, TWAIT, WPWAIT and TREAD (R156 to R158), and what a channel does with its operations (R151, R154, R155). WP of an
operation of no bytes is this model's choice, and so is the trap of one of 2^40 bytes or more (log 58). -/
def Obligations.CopiesRun : Prop :=
  ∀ (s : State),
    (∀ (c : Ctx) (i : Instr) (act : Mask) (d a b : BitVec 6) (x : BitVec 3) (shape : Option (Nat × Nat)), Issues s c →
      ((∃ q, i = .cpy q d a b x ∧ act = c.active q ∧ shape = none) ∨
       (∃ g rows pitch, i = .cpy2d g d a b x rows pitch ∧ act = c.active (quals g) ∧ shape = some (rows.toNat + 1, 16 * pitch.toNat))) →
      (act = 0 → Idles i s c) ∧
      (act ≠ 0 → (((s.team c.g).bind fun t => t.chans[x.toNat]?) = none) → Traps i s c (FaultInfo.ofCause causeProtection)) ∧
      (∀ k dst src n, act ≠ 0 → ((s.team c.g).bind fun t => t.chans[x.toNat]?) = some k → ReadsS c a dst → ReadsS c b src →
        ReadsS c (b + 1) n →
        let rows := (shape.getD (1, n.toNat)).1
        let pitch := (shape.getD (1, n.toNat)).2
        let ch := s.chan c.iss.core k
        (n ≠ 0 → 2 ^ 40 ≤ rows * n.toNat → Traps i s c (FaultInfo.ofCause causeProtection)) ∧
        ((n = 0 ∨ c.copyFault s dst src n.toNat rows pitch shape.isSome = none) →
          (c.g.rob ≠ [] → Waits i s c .drained) ∧
          (c.g.rob = [] → s.released c.g 0 = false → Waits i s c (.release 0)) ∧
          (c.g.rob = [] → s.released c.g 0 = true → 16 ≤ ch.ops.length → Waits i s c (.chanRoom k)) ∧
          (c.g.rob = [] → s.released c.g 0 = true → ch.ops.length < 16 →
            ∃ v u, WritesS c.g.arch v d (BitVec.ofNat 64 (ch.issued + 1)) ∧ EndsIn i s u c v [] ∧
              QueueIs (u.chan c.iss.core k) (ch.ops ++
                [⟨ch.issued + 1, dst, src, n.toNat, rows, pitch, c.iss.core, c.iss.grp, c.g.vi, false, 0⟩]) ch.wp ∧
              u.chan c.iss.core k = { ch with issued := ch.issued + 1, ops := (u.chan c.iss.core k).ops,
                                              wp := (u.chan c.iss.core k).wp } ∧
              u = { s with chans := u.chans, parts := u.parts })))) ∧
    (∀ (c : Ctx) (q : Quals) (a d : BitVec 6) (x : BitVec 3), Issues s c →
      (c.active q = 0 → Idles (.twait q a x) s c ∧ Idles (.wpwait q a x) s c ∧ Idles (.treadIss q d x) s c ∧
        Idles (.treadDone q d x) s c ∧ Idles (.treadWp q d x) s c) ∧
      (c.active q ≠ 0 → (((s.team c.g).bind fun t => t.chans[x.toNat]?) = none) →
        let f := FaultInfo.ofCause causeProtection
        Traps (.twait q a x) s c f ∧ Traps (.wpwait q a x) s c f ∧ Traps (.treadIss q d x) s c f ∧
        Traps (.treadDone q d x) s c f ∧ Traps (.treadWp q d x) s c f) ∧
      (∀ k n, c.active q ≠ 0 → ((s.team c.g).bind fun t => t.chans[x.toNat]?) = some k → ReadsS c a n →
        let ch := s.chan c.iss.core k
        let seen := x.toNat :: c.g.seen.filter (· != x.toNat)
        (∀ i w, (c.g.arch.path c.iss.ent).wait = none →
          ((i = .twait q a x ∧ w = .copied k (min n.toNat ch.issued)) ∨
           (∃ o, i = .wpwait q a x ∧ ch.opAt n = some o ∧ w = .wrote k o.num n) ∨
           (i = .wpwait q a x ∧ ch.opAt n = none ∧ (∀ p ∈ ch.past, ¬ (p.1.toNat ≤ n.toNat ∧ n.toNat < p.1.toNat + p.2.1)) ∧
             w = .copied k ch.issued)) →
          (s.copyOver c.iss.core w = false → Waits i s c w) ∧
          (s.copyOver c.iss.core w = true → (∀ op cause more, ch.latch = some (op, cause, more) → w.covers < op) →
            ∃ t, exec i s = .next t ∧ GroupOnly c s t { groupAfter c c.g.arch [] with seen := seen }) ∧
          (∀ op cause more, s.copyOver c.iss.core w = true → ch.latch = some (op, cause, more) → op ≤ w.covers →
            c.g.rob ≠ [] → Waits i s c w) ∧
          (∀ op cause more, s.copyOver c.iss.core w = true → ch.latch = some (op, cause, more) → op ≤ w.covers → op < 2 ^ 48 →
            c.g.rob = [] → ∃ v x, exec i s = .next (c.trapPath v (FaultInfo.withOperand cause x)) ∧
              v = s.setChan c.iss.core k { ch with latch := none } ∧ (x.extractLsb' 0 48).toNat = op ∧ x.getLsbD 48 = more)) ∧
        (s.copyOver c.iss.core (.copied k (min n.toNat ch.issued)) = decide (min n.toNat ch.issued ≤ ch.completed)) ∧
        (∀ i v, ((i = .treadIss q d x ∧ v = BitVec.ofNat 64 ch.issued) ∨ (i = .treadDone q d x ∧ v = BitVec.ofNat 64 ch.completed) ∨
            (i = .treadWp q d x ∧ v = ch.wp)) →
          ∃ b t, WritesS c.g.arch b d v ∧ exec i s = .next t ∧ GroupOnly c s t { groupAfter c b [] with seen := seen }))) ∧
    (∀ core k, let ch := s.chan core k
      (ch.ops = [] ∨ ch.stopped ≠ none ∨ ch.out = true → exec (.copyPiece core k) s = .next s) ∧
      (∀ o r, ch.ops = o :: r → ch.stopped = none → ch.out = false →
        (o.begun = false → exec (.copyPiece core k) s =
          .next (s.setChan core k { ch with ops := { o with begun := true } :: r, wp := o.dst })) ∧
        (o.begun = true → o.rows * o.len = 0 → ∃ u, exec (.copyPiece core k) s = .next u ∧ QueueIs (u.chan core k) r ch.wp ∧
          (u.chan core k).completed = ch.completed + 1 ∧ u = { s with chans := u.chans })) ∧
      (∀ o r g line t0 o0 cl bank off o1, ch.ops = o :: r → ch.stopped = none → ch.out = false → o.begun = true →
        Memory.wf s.mem = true → s.group core o.grp = some g → o.done < o.rows * o.len → o.srcLines = [line] →
        isUser line = false → inClass line 0xFF2 = false →
        let at1 := o.dst + BitVec.ofNat 64 o.done
        isUser at1 = false → inClass at1 0xFF2 = false → at1.toNat = o.dst.toNat + o.done →
        s.locate core o.grp g false false 1 .l 0 line = .ok (t0, o0) →
        s.locate core o.grp g true false 1 .l 0 at1 = .ok (.scratch cl bank off, o1) →
        ∃ u, exec (.copyPiece core k) s = .next u ∧
          (∀ i, i < o.piece → Memory.byte u.mem (scratchCell cl bank off + (o.dst.toNat + o.done + i) % 128) =
            Line.byte (s.localLine t0).1 ((o.srcAt (o.done + i)).toNat % 128)) ∧
          (∀ m, (∀ i, i < o.piece → m ≠ scratchCell cl bank off + (o.dst.toNat + o.done + i) % 128) →
            Memory.byte u.mem m = Memory.byte s.mem m) ∧
          (o.done + o.piece < o.rows * o.len → (u.chan core k).ops = { o with done := o.done + o.piece } :: r ∧
            (u.chan core k).completed = ch.completed ∧ (u.chan core k).wp = o.dst + BitVec.ofNat 64 (o.done + o.piece)) ∧
          (o.rows * o.len ≤ o.done + o.piece →
            QueueIs (u.chan core k) r (o.dst + BitVec.ofNat 64 (o.done + o.piece)) ∧
            (u.chan core k).completed = ch.completed + 1)) ∧
      (ch.stopped = none →
        let off := 0x170000 + 0x40 * core + 8 * k
        exec (.chCtlResume core k) s = .next (s.event (dieOfCore core) 0x05 off (BitVec.ofNat 64 off) 1) ∧
        exec (.chCtlAbort core k) s = .next (s.event (dieOfCore core) 0x05 off (BitVec.ofNat 64 off) 2)) ∧
      (∀ cause, ch.stopped = some cause →
        (∃ u, exec (.chCtlResume core k) s = .next u ∧ u.chan core k = { ch with stopped := none } ∧
          u = { s with chans := u.chans, tlb := u.tlb } ∧
          ∀ o r, ch.ops = o :: r → ∀ t, t ∈ u.tlb ↔ t ∈ s.tlb ∧ ¬ ((t.place = core ∨ t.place = 256 + dieOfCore core) ∧
            t.vi = o.vi ∧ ∃ a ∈ o.pieceAddrs, t.va ≤ a.toNat ∧ a.toNat < t.va + t.size)) ∧
        ∀ o r, ch.ops = o :: r → ∃ u, exec (.chCtlAbort core k) s = .next u ∧
          QueueIs (u.chan core k) r (o.dst + BitVec.ofNat 64 o.done) ∧
          (u.chan core k).stopped = none ∧ (u.chan core k).completed = ch.completed + 1 ∧
          (u.chan core k).latch = (match ch.latch with
            | some (op, x, _) => some (op, x, true)
            | none => some (o.num, cause, false)) ∧ u.mem = s.mem))

/-! ### Couplings and barriers (chapters 06 and 14) -/

/-- QINIT, QPUSH, QPOP, QALLOW and QCLOSE (R159 to R161), each on every state: where it idles, traps, waits and completes. -/
def Obligations.CouplingsPassHandles : Prop :=
  ∀ (s : State) (c : Ctx) (q : Quals) (d a b : BitVec 6), Issues s c →
    let forms := [Instr.qpush q d a, .qpushTry q d a b, .qinit q d a b, .qallow q d a, .qclose q d]
    let takes := [Instr.qpop q a d, .qpopTry q a d b]
    (c.active q = 0 → ∀ i ∈ forms ++ takes, Idles i s c) ∧
    (c.active q ≠ 0 → (∀ l, s.launch c.g = some l → l.hdr.nq ≤ d.toNat) → ∀ i ∈ forms ++ takes,
      Traps i s c (FaultInfo.ofCause causeProtection)) ∧
    (∀ t l, c.active q ≠ 0 → s.team c.g = some t → s.launch c.g = some l → d.toNat < l.hdr.nq →
      let x := t.qs.getD d.toNat Coupling.zero
      let bad := FaultInfo.ofCause causeQueue
      let sets := fun i => SetsCoupling i s c t d.toNat
      (∀ n w, ReadsS c a n → ReadsS c b w →
        let prod := w.toNat % 2 ^ 16
        let cons := w.toNat / 2 ^ 16 % 2 ^ 16
        let good := (x.opened = false ∨ (x.closed = true ∧ x.handles = [])) ∧ 1 ≤ n.toNat ∧ n.toNat ≤ 1024 ∧
          prod < t.groups.length ∧ cons < t.groups.length ∧ w.toNat < 2 ^ 33 ∧
          (x.stored = true ∨ (t.qs.filter (·.stored)).length < 24 * t.fifo.length)
        let y : Coupling := ⟨true, false, w.getLsbD 32, n.toNat, prod, cons, n.toNat, 0, [], true⟩
        (¬ good → Traps (.qinit q d a b) s c bad) ∧
        (good → c.g.rob ≠ [] → Waits (.qinit q d a b) s c .drained) ∧
        (good → c.g.rob = [] → sets (.qinit q d a b) y c.g.arch ∧ Safety.Coupling.Sound y)) ∧
      (∀ v, ReadsS c a v →
        let good := x.opened = true ∧ x.closed = false ∧ x.prod = c.g.gidx
        let y := { x with allow := x.allow - 1, handles := x.handles ++ [v.setWidth 32] }
        (¬ good → Traps (.qpush q d a) s c bad ∧ Traps (.qpushTry q d a b) s c bad) ∧
        (good → c.g.rob ≠ [] → Waits (.qpush q d a) s c .drained ∧ Waits (.qpushTry q d a b) s c .drained) ∧
        (good → c.g.rob = [] → s.released c.g 0 = false →
          Waits (.qpush q d a) s c (.release 0) ∧ Waits (.qpushTry q d a b) s c (.release 0)) ∧
        (good → c.g.rob = [] → s.released c.g 0 = true →
          (x.allow = 0 → Waits (.qpush q d a) s c (.qRoom d.toNat) ∧ SetsP (.qpushTry q d a b) s c b (c.active q) 0) ∧
          (0 < x.allow → sets (.qpush q d a) y c.g.arch ∧ (Safety.Coupling.Sound x → Safety.Coupling.Sound y) ∧
            ∃ p, WritesP c.g.arch p b (c.active q) (BitVec.allOnes 32) ∧ sets (.qpushTry q d a b) y p))) ∧
      (let good := x.opened = true ∧ x.cons = c.g.gidx
       let allLanes := fun (r : Arch) (p : Arch) => WritesP r p b (c.active q) (BitVec.allOnes 32)
       (¬ good → Traps (.qpop q a d) s c bad ∧ Traps (.qpopTry q a d b) s c bad) ∧
       (good → c.g.rob ≠ [] → Waits (.qpop q a d) s c .drained ∧ Waits (.qpopTry q a d b) s c .drained) ∧
       (good → c.g.rob = [] → x.handles = [] →
         (x.closed = false → Waits (.qpop q a d) s c (.qData d.toNat) ∧ SetsP (.qpopTry q a d b) s c b (c.active q) 0) ∧
         (x.closed = true → SetsS (.qpop q a d) s c a (BitVec.allOnes 64) ∧
           ∃ r p, WritesS c.g.arch r a (BitVec.allOnes 64) ∧ allLanes r p ∧ Ends (.qpopTry q a d b) s c p [])) ∧
       (∀ h more, good → c.g.rob = [] → x.handles = h :: more →
         let y := if x.defer then { x with handles := more, ret := x.ret + 1 }
           else { x with handles := more, allow := x.allow + 1 }
         (Safety.Coupling.Sound x → Safety.Coupling.Sound y) ∧
         ∃ r p, WritesS c.g.arch r a (h.setWidth 64) ∧ allLanes r p ∧ sets (.qpop q a d) y r ∧ sets (.qpopTry q a d b) y p)) ∧
      (∀ n, ReadsS c a n →
        let good := x.opened = true ∧ x.cons = c.g.gidx ∧ x.defer = true ∧ n.toNat ≤ x.ret
        let y := { x with allow := x.allow + n.toNat, ret := x.ret - n.toNat }
        (¬ good → Traps (.qallow q d a) s c bad) ∧
        (good → c.g.rob ≠ [] → Waits (.qallow q d a) s c .drained) ∧
        (good → c.g.rob = [] → sets (.qallow q d a) y c.g.arch ∧ (Safety.Coupling.Sound x → Safety.Coupling.Sound y))) ∧
      (let good := x.opened = true ∧ x.prod = c.g.gidx
       (¬ good → Traps (.qclose q d) s c bad) ∧
       (good → c.g.rob ≠ [] → Waits (.qclose q d) s c .drained) ∧
       (good → c.g.rob = [] → sets (.qclose q d) { x with closed := true } c.g.arch)))

/-- BINIT, BARR, BARRN, BWAIT and BSYNC (R364 to R366). -/
def Obligations.BarriersCountArrivals : Prop :=
  ∀ (s : State) (c : Ctx) (q : Quals) (d a : BitVec 6), Issues s c →
    let passed := (c.g.arch.path c.iss.ent).wait = some (.passed d.toNat)
    let forms := [Instr.binit q d a, .barr q d, .barrn q d a, .bwait q d, .bsync q d]
    (c.active q = 0 → ∀ i ∈ forms, Idles i s c) ∧
    (c.active q ≠ 0 → (∀ l, s.launch c.g = some l → l.hdr.nbar ≤ d.toNat) → c.g.rob = [] → (∃ n, ReadsS c a n) → ¬ passed →
      ∀ i ∈ forms, Traps i s c (FaultInfo.ofCause causeProtection)) ∧
    (c.active q ≠ 0 → passed → Idles (.bsync q d) s c) ∧
    (∀ t l, c.active q ≠ 0 → s.team c.g = some t → s.launch c.g = some l → d.toNat < l.hdr.nbar →
      let x := t.bars.getD d.toNat Barrier.zero
      let sets := fun i => SetsBarrier i s c t d.toNat
      (c.g.rob ≠ [] → ¬ passed → Waits (.barr q d) s c .drained ∧ Waits (.bsync q d) s c .drained) ∧
      (∀ n, ReadsS c a n → c.g.rob ≠ [] → Waits (.binit q d a) s c .drained ∧
        (1 ≤ n.toNat → n.toNat ≤ 32 → Waits (.barrn q d a) s c .drained)) ∧
      (∀ n, ReadsS c a n → c.g.rob = [] →
        let good := x.arr = 0 ∧ 1 ≤ n.toNat ∧ n.toNat ≤ 1024
        (¬ good → Traps (.binit q d a) s c (FaultInfo.ofCause causeProtection)) ∧
        (good → sets (.binit q d a) { x with count := n.toNat })) ∧
      (∀ n, ReadsS c a n → (n.toNat < 1 ∨ 32 < n.toNat) → Traps (.barrn q d a) s c (FaultInfo.ofCause causeProtection)) ∧
      (∀ i w, ((i = .barr q d ∧ w = 1) ∨ (∃ n, i = .barrn q d a ∧ ReadsS c a n ∧ w = n.toNat ∧ 1 ≤ w ∧ w ≤ 32) ∨
          (i = .bsync q d ∧ w = 1 ∧ ¬ passed)) → c.g.rob = [] →
        (x.count = 0 → Traps i s c (FaultInfo.ofCause causeProtection)) ∧
        (x.count ≠ 0 → (x.arrived.getLsbD c.g.gidx = true ∨ x.count < x.arr + w) →
          Traps i s c (FaultInfo.ofCause causeBarrierExcess)) ∧
        (x.count ≠ 0 → x.arrived.getLsbD c.g.gidx = false → x.arr + w ≤ x.count →
          (s.released c.g 0 = false → Waits i s c (.release 0)) ∧
          (s.released c.g 0 = true → ∃ y, Arrives x y c.g.gidx w ∧
            (i ≠ .bsync q d → x.arr + w ≠ x.count → sets i y) ∧
            (x.arr + w = x.count → ∃ u v, TeamSet c s u { t with bars := t.bars.set d.toNat y } ∧
              PassedBy t d.toNat u v ∧ exec i s = .next (c.finish v)) ∧
            (i = .bsync q d → x.arr + 1 ≠ x.count → c.g.gidx < 32 → d.toNat < t.bars.length →
              ∃ u, TeamSet c s u { t with bars := t.bars.set d.toNat y } ∧
                exec i s = .next (c.block u (.barrier d.toNat)))))) ∧
      (x.arrived.getLsbD c.g.gidx = true → ¬ passed → Waits (.bwait q d) s c (.barrier d.toNat)) ∧
      (x.arrived.getLsbD c.g.gidx = false ∨ passed → Idles (.bwait q d) s c))

/-! ### Launches (chapter 14) -/

/-- LAUNCH, TSIG, EVSET, EVWAIT and LSTAT (R362), with the acceptance of a launch (R342, R343, R349), the bit of a team (R350)
and the event vector (R354). -/
def Obligations.LaunchInstructions : Prop :=
  ∀ (s : State) (c : Ctx) (q : Quals) (d a : BitVec 6) (x : DWord), Issues s c →
    let v := c.g.vi
    let forms := [Instr.launch q d a, .tsig q, .evset q a]
    (c.active q = 0 → ∀ i ∈ forms ++ [.evwait q a, .lstat q d a], Idles i s c) ∧
    (c.active q ≠ 0 → s.launch c.g = none → ∀ i ∈ forms, Traps i s c (FaultInfo.ofCause causeProtection)) ∧
    (∀ l, c.active q ≠ 0 → s.launch c.g = some l → ReadsS c a x →
      (x.toNat % 64 ≠ 0 → Traps (.launch q d a) s c (FaultInfo.ofCause causeMisaligned)) ∧
      (c.g.rob ≠ [] → ∀ i ∈ forms, i ≠ .launch q d a ∨ x.toNat % 64 = 0 → Waits i s c .drained) ∧
      (c.g.rob = [] → s.released c.g 1 = false → ∀ i ∈ forms, i ≠ .launch q d a ∨ x.toNat % 64 = 0 →
        Waits i s c (.release 1)) ∧
      (c.g.rob = [] → s.released c.g 1 = true →
        (x.toNat % 64 = 0 →
          (∀ cause, (s.devRead v x 256).2 = .error (.fail cause) → Traps (.launch q d a) s c (FaultInfo.ofCause cause)) ∧
          (∀ u bs, s.devRead v x 256 = (u, .ok bs) →
            (u.headerCode v bs ≠ 0 →
              ∃ r, WritesS c.g.arch r d (BitVec.ofNat 64 (2 ^ 63 + u.headerCode v bs)) ∧
                EndsIn (.launch q d a) s (u.devDone v (submitRanges x bs)) c r []) ∧
            (∀ w, u.headerCode v bs = 0 → u.clearBitmap v (Header.ofBytes bs) = (w, none) →
              ∃ r, WritesS c.g.arch r d (BitVec.ofNat 64 (w.ctx v).nextId) ∧
                EndsIn (.launch q d a) s ((w.accept v l.queue (Header.ofBytes bs)).devDone v (submitRanges x bs)) c r []))) ∧
        (∀ t u, s.team c.g = some t → s.setBit t.vi l.id t.t = (u, none) → exec (.tsig q) s = .next (c.finish u)) ∧
        (∃ u, EndsIn (.evset q a) s u c c.g.arch [] ∧ u = { s with ctxs := u.ctxs } ∧
          (∀ n, n < 256 → (u.ctx v).events.getLsbD n =
            if n = x.toNat % 256 then !x.getLsbD 8 else (s.ctx v).events.getLsbD n) ∧
          (u.ctx v).launches = (s.ctx v).launches.map fun m =>
            if m.incomplete = true ∧ m.evOk = false ∧ m.hdr.evwait &&& ~~~ (u.ctx v).events = 0
              then { m with evOk := true } else m))) ∧
    (c.active q ≠ 0 → ReadsS c a x →
      let n := x.toNat % 256
      (isRanene c.iss.core = true ∨ (s.ctx v).events.getLsbD n = false → Waits (.evwait q a) s c (.event n)) ∧
      (isRanene c.iss.core = false → (s.ctx v).events.getLsbD n = true →
        ∃ t, exec (.evwait q a) s = .next t ∧
          GroupOnly c s t { groupAfter c c.g.arch [] with floor := max c.g.floor s.ns }) ∧
      (isRanene c.iss.core = true ∨ (s.ctx v).launch x.toNat = none → SetsS (.lstat q d a) s c d 0) ∧
      (∀ l, isRanene c.iss.core = false → (s.ctx v).launch x.toNat = some l → l.retired.length < 2 ^ 32 → ∃ r,
        SetsS (.lstat q d a) s c d r ∧ (r.extractLsb' 0 8) = l.status ∧
        (r.extractLsb' 8 24).toNat = (match l.state with | .waiting => 1 | .running => 2 | .complete => 3 | .failed => 4) ∧
        (r.extractLsb' 32 32).toNat = l.retired.length)) ∧
    (∀ q' h, let t := s.accept v q' h
      ((t.ctx v).nextId = (s.ctx v).nextId + 1) ∧
      (∃ l ∈ (t.ctx v).launches, l.id = (s.ctx v).nextId ∧ l.hdr = h ∧ l.queue = q' ∧ l.sent = [] ∧ l.done = [] ∧
        l.retired = [] ∧ l.killed = [] ∧ l.caps = s.caps v ∧ l.stamp = s.clk) ∧
      (t.ctx v).launches.map (·.id) = (s.ctx v).launches.map (·.id) ++ [(s.ctx v).nextId] ∧
      t = { s with ctxs := t.ctxs }) ∧
    (∀ rs, let t := s.devDone v rs
      t = { s with ctxs := t.ctxs } ∧
      t.ctx v = { s.ctx v with hostGot := (t.ctx v).hostGot, hostDone := (t.ctx v).hostDone }) ∧
    (∀ id n l, (s.ctx v).launch id = some l →
      (n ∈ l.done → s.setBit v id n = (s, none)) ∧
      (∀ w e, n ∉ l.done → s.devAtomic v (l.hdr.cbmap + BitVec.ofNat 64 (n / 8)) 7 (2 ^ (n % 8)) = (w, e) →
        (∀ part line, e ≠ some (.later part line)) →
        s.setBit v id n = (w.editLaunch v id fun k => { k with done := k.done ++ [n] }, none)))

/-- The launch queue of an interface and the life of a team: LNQ_BASE_WRITE, LNQ_CFG_WRITE, LNQ_TAIL_WRITE, LAUNCH_ACCEPT,
TEAM_DISPATCH and TEAM_RETIRE. -/
def Obligations.LaunchQueuesAndTeams : Prop :=
  ∀ (s : State) (v q : Nat), q < 16 →
    let base := lnqReg v q 0
    let cfg := lnqReg v q 1
    let head := lnqReg v q 2
    let tail := lnqReg v q 3
    let en := (s.mr base).getLsbD 0
    let off := fun (u : State) => u.disableQueue v q false
    (∀ x,
      (s.viEnabled v = false → ∀ i ∈ [Instr.lnqTailWrite v q x, .lnqCfgWrite v q x, .lnqBaseWrite v q x], exec i s = .next s) ∧
      (s.viEnabled v = true →
        let u := s.setMr base (x &&& 0x1FFFFFFFFFFF001)
        exec (.lnqBaseWrite v q x) s = .next (if en then off u else u)) ∧
      (s.viEnabled v = true →
        let n := x.toNat % 16
        let u := if n < 4 ∨ 12 < n then s.event (s.viPart v) 0x05 cfg (BitVec.ofNat 64 cfg) x else s.setMr cfg (x &&& 0xF)
        exec (.lnqCfgWrite v q x) s = .next (if en then off u else u)) ∧
      (s.viEnabled v = true →
        let t := x.toNat % 2 ^ 16
        let ahead := (t + 2 ^ 16 - (s.mr head).toNat) % 2 ^ 16
        exec (.lnqTailWrite v q x) s = .next (if ahead ≤ 2 ^ ((s.mr cfg).toNat % 16) then s.setMr tail (BitVec.ofNat 64 t)
          else off s))) ∧
    (let u := off s
     (u.mr base).getLsbD 0 = false ∧ (∀ o, o ≠ base → u.mr o = s.mr o) ∧ u.mem = s.mem) ∧
    ((s.viEnabled v = false ∨ s.paused v = true ∨ en = false ∨ s.mr head = s.mr tail) →
      exec (.launchAccept v q) s = .next s) ∧
    (s.viEnabled v = true → s.paused v = false → en = true → s.mr head ≠ s.mr tail → (s.mr head).toNat < 2 ^ 16 →
      let n := (s.mr head).toNat
      let ent := BitVec.ofNat 64 ((s.mr base).toNat / 2 ^ 12 % 2 ^ 45 * 2 ^ 12 + 16 * (n % 2 ^ ((s.mr cfg).toNat % 16)))
      (∀ u cause, s.devRead v ent 16 = (u, .error (.fail cause)) →
        exec (.launchAccept v q) s = .next ((u.devDone v [(ent, 16)]).disableQueue v q true)) ∧
      (∀ u w bs, s.devRead v ent 16 = (u, .ok bs) →
        let answered := fun (w : State) (a : DWord) (entered : State → State) (used : List (DWord × Nat)) =>
          match w.devStore v (ent + 8) (bytesOfNat 8 a.toNat) with
          | (w, some (.later ..)) => w
          | (w, none) => ((entered w).devDone v ((ent, 16) :: used)).setMr head (BitVec.ofNat 64 ((n + 1) % 2 ^ 16))
          | (w, some (.fail _)) =>
            (((entered w).devDone v ((ent, 16) :: used)).setMr head (BitVec.ofNat 64 ((n + 1) % 2 ^ 16))).disableQueue v q true
        let hdr := BitVec.ofNat 64 (fieldOf bs 0 8 / 64 * 64)
        (∀ cause, u.devRead v hdr 256 = (w, .error (.fail cause)) →
          exec (.launchAccept v q) s = .next (answered w (BitVec.ofNat 64 (2 ^ 63 + 0x45)) id [(hdr, 256)])) ∧
        (∀ hs, u.devRead v hdr 256 = (w, .ok hs) →
          (w.headerCode v hs ≠ 0 →
            exec (.launchAccept v q) s =
              .next (answered w (BitVec.ofNat 64 (2 ^ 63 + w.headerCode v hs)) id (submitRanges hdr hs))) ∧
          (∀ y, w.headerCode v hs = 0 → w.clearBitmap v (Header.ofBytes hs) = (y, none) →
            exec (.launchAccept v q) s =
              .next (answered y (BitVec.ofNat 64 (y.ctx v).nextId) (fun z => z.accept v q (Header.ofBytes hs))
                (submitRanges hdr hs)))))) ∧
    (∀ id t core,
      (s.viEnabled v = false ∨ (s.ctx v).launch id = none → exec (.teamDispatch v id t core) s = .next s) ∧
      (∀ l, (s.ctx v).launch id = some l → s.canPlace v l t core = false → exec (.teamDispatch v id t core) s = .next s) ∧
      (∀ l, s.viEnabled v = true → (s.ctx v).launch id = some l → s.canPlace v l t core = true → 
        ∃ u gs k, exec (.teamDispatch v id t core) s = .next u ∧ s.pickGroups core l.hdr.gpt = some gs ∧
          s.teams.find k = none ∧
          (∃ tm, u.teams.find k = some tm ∧ tm.vi = v ∧ tm.launch = id ∧ tm.t = t ∧ tm.core = core ∧ tm.groups = gs ∧
            tm.qs = List.replicate 16 Coupling.zero ∧ tm.bars = List.replicate 16 Barrier.zero) ∧
          (∀ i n, gs[i]? = some n → ∃ g, u.group core n = some g ∧ g.team = some k ∧ g.gidx = i ∧ g.vi = v ∧ g.rob = [] ∧
            g.lq = l.hdr.lq.getD i 0 ∧ (∀ r : BitVec 6, g.arch.sreg r = 0) ∧ (g.arch.path 0).state = .ready ∧
            (g.arch.path 0).pn = l.hdr.entry) ∧
          (∃ m ∈ (u.ctx v).launches, m.id = id ∧ t ∈ m.sent))) ∧
    (∀ id t,
      ((∀ x ∈ s.teams, ¬ (x.2.vi = v ∧ x.2.launch = id ∧ x.2.t = t)) → exec (.teamRetire v id t) s = .next s) ∧
      (∀ k tm, s.teams.find? (fun x => x.2.vi == v && x.2.launch == id && x.2.t == t) = some (k, tm) →
        let quiet := s.teamOver tm = true ∧ ∀ n ∈ tm.groups, ∀ g, s.group tm.core n = some g → g.vtDev < s.ns
        (¬ quiet → exec (.teamRetire v id t) s = .next s) ∧
        (∀ u, quiet → s.setBit v id t = (u, none) →
          let w := (u.freeTeam k tm).editLaunch v id fun l => { l with retired := l.retired ++ [t] }
          exec (.teamRetire v id t) s = .next ((w.endLaunch v id).checkDeps v))))

/-! ### System registers, the window and management instructions (chapters 15, 17, 18) -/

/-- MFS, MTS and DTIME (R387, R388, R47, R378) and TLBI (R386). -/
def Obligations.SystemRegisters : Prop :=
  ∀ (s : State) (c : Ctx) (q : Quals) (d a b : BitVec 6) (x : DWord), Issues s c →
    let priv := isRanene c.iss.core
    let floor := if (b = 0x1C ∧ c.g.dbgsel = 19 ∧ priv = false) ∨ b = 0x22 ∨ b = 0x23 then max c.g.floor s.ns else c.g.floor
    let word := (c.iss.word.setWidth 64 : DWord)
    let denied := FaultInfo.withOperand causePrivilege word
    let illegal := FaultInfo.withOperand causeIllegalEncoding word
    (b.toNat / 16 = 2 → priv = false → Traps (.mfs q d b) s c denied ∧ Traps (.mts q a b) s c denied) ∧
    (c.active q = 0 → (b.toNat / 16 ≠ 2 ∨ priv = true → Idles (.mfs q d b) s c ∧ Idles (.mts q a b) s c) ∧
      Idles (.dtime q d) s c) ∧
    (c.active q ≠ 0 → (b.toNat / 16 ≠ 2 ∨ priv = true) →
      ((b = 0x04 ∨ b = 0x0E) → c.g.rob ≠ [] → Waits (.mfs q d b) s c .drained) ∧
      ((b ≠ 0x04 ∧ b ≠ 0x0E) ∨ c.g.rob = [] → ∃ v r t, SysValue c s b.toNat v ∧ WritesS c.g.arch r d v ∧
        exec (.mfs q d b) s = .next t ∧ GroupOnly c s t { groupAfter c r [] with floor := floor }) ∧
      (ReadsS c a x →
        let mts := Instr.mts q a b
        let sel := x &&& 0x11FFFFF
        (b = 0x03 → (5 ≤ x.toNat % 8 → Traps mts s c illegal) ∧
          (x.toNat % 8 < 5 → Ends mts s c { c.g.arch with fcr := x &&& 0x1F7 } [])) ∧
        (b = 0x04 → (c.g.rob ≠ [] → Waits mts s c .drained) ∧
          (c.g.rob = [] → Ends mts s c { c.g.arch with fsr := x &&& 0x1F0 } [])) ∧
        (b = 0x05 → Ends mts s c { c.g.arch with dph := x.setWidth 16 } []) ∧
        (b = 0x10 → priv = true → (c.g.rob ≠ [] → Waits mts s c .drained) ∧
          (c.g.rob = [] → ∃ t, exec mts s = .next t ∧ GroupOnly c s t { groupAfter c c.g.arch [] with
            wsel := sel, held := false, hold := x.getLsbD 24 && (s.selected c.iss.core { c.g with wsel := sel }).isSome })) ∧
        (48 ≤ b.toNat → Traps mts s c denied) ∧
        (b.toNat / 8 = 3 → priv = false → (c.g.rob ≠ [] → Waits mts s c .drained) ∧
          (c.g.rob = [] → ∃ u, exec mts s = .next (c.finish u) ∧
            (b = 0x18 → u = s.setCtx c.g.vi { s.ctx c.g.vi with dbgctl := x &&& 0x3F3F }) ∧
            (b = 0x19 → u = s.setCtx c.g.vi { s.ctx c.g.vi with bkpc := x }) ∧
            (b = 0x1A → u = (if x.getLsbD 24 then s.heldEntries c.g.vi
                else (s.heldEntries c.g.vi).filter fun e =>
                  e == (x.toNat / 2 ^ 8 % 2 ^ 8, x.toNat % 2 ^ 8, x.toNat / 2 ^ 16 % 2 ^ 5)).foldl (fun s e => s.releaseEntry (!x.getLsbD 24) e) s) ∧
            (b = 0x1B → u = (if x.toNat % 32 ≠ 0 ∧ (x.toNat % 32 < 7 ∨ 20 < x.toNat % 32) then s
                else s.setCtx c.g.vi { s.ctx c.g.vi with trcbase := x &&& 0x1FFFFFFFFFFF01F })) ∧
            (b = 0x1C → ∃ g, u.group c.iss.core c.iss.grp = some g ∧ g = { c.g with dbgsel := x.setWidth 8 } ∧
              ((u.ctx c.g.vi).counters = (s.ctx c.g.vi).counters ∨
                x.getLsbD 63 = true ∧ (u.ctx c.g.vi).counters = (s.ctx c.g.vi).counters.put (x.toNat % 256) 0)))) ∧
        ((b.toNat < 3 ∨ (6 ≤ b.toNat ∧ b.toNat < 48 ∧ b ≠ 0x10 ∧ b.toNat / 8 ≠ 3) ∨
            ((b = 0x10 ∨ b.toNat / 8 = 3) ∧ (priv = true ↔ b.toNat / 8 = 3))) → Idles mts s c))) ∧
    (c.active q ≠ 0 → (c.g.rob ≠ [] → Waits (.dtime q d) s c .drained) ∧
      (c.g.rob = [] → SetsS (.dtime q d) s c d (BitVec.ofNat 64 s.ns))) ∧
    (∀ (g : BitVec 3) (m : MemX) (va sel : DWord),
      let i := Instr.tlbi g a b m
      (priv = false → Traps i s c denied) ∧
      (priv = true → c.active (quals g) = 0 → Idles i s c) ∧
      (priv = true → c.active (quals g) ≠ 0 → ReadsS c a va → ReadsS c b sel →
        let ok := sel.toNat < 2 ^ 10 ∧ sel.toNat / 2 ^ 6 % 4 = 0
        let v := sel.toNat % 64
        let all := sel.getLsbD 9
        let one := !all && !sel.getLsbD 8
        let page := va.toNat / 4096 * 4096
        let die := dieOfCore c.iss.core
        let dies := if m.sc = 4 then oneDie die
          else s.diesOf (s.partOfCore c.iss.core) ||| (if s.mgmt.qdies.getLsbD die then s.mgmt.qdies else 0)
        let vi := if all then none else some v
        (¬ ok → Traps i s c illegal) ∧
        (ok → c.g.rob ≠ [] → Waits i s c .drained) ∧
        (ok → c.g.rob = [] → s.released c.g (scopeClass m.sc) = false → Waits i s c (.release (scopeClass m.sc))) ∧
        (ok → c.g.rob = [] → s.released c.g (scopeClass m.sc) = true → ∃ u,
          (∀ t : Tlb, t ∈ u.tlb ↔ t ∈ s.tlb ∧
            ¬ (dies.getLsbD (if 256 ≤ t.place then t.place - 256 else dieOfCore t.place) = true ∧
              (all = true ∨ t.vi = v ∧ (one = false ∨ t.va ≤ page ∧ page < t.va + t.size)))) ∧
          (∀ k, isRanene (k / 256) = true → u.groups.find k = s.groups.find k) ∧
          (∀ k g n pg, s.groups.find k = some g → isRanene (k / 256) = false → dies.getLsbD (dieOfCore (k / 256)) = true →
            (all = true ∨ g.vi = v) → (g.arch.vreg n).page = some pg → (one = false ∨ pg.va ≤ page ∧ page < pg.va + pg.size) →
            ∃ g', u.groups.find k = some g' ∧ (g'.arch.vreg n).page = none) ∧
          u = { s with tlb := u.tlb, groups := u.groups } ∧
          (u.accessing dies vi = true → exec i s = .next (c.block u (.flushed dies vi))) ∧
          (u.accessing dies vi = false → EndsIn i s u c c.g.arch []))))

/-- WINRD, WINWR and RESUME (R377 to R380, R390 to R392), and the hold that lets them act (R378). -/
def Obligations.WindowActs : Prop :=
  ∀ (s : State) (c : Ctx) (q : Quals) (d a b : BitVec 6) (i x : DWord), Issues s c →
    let priv := isRanene c.iss.core
    let denied := FaultInfo.withOperand causePrivilege (c.iss.word.setWidth 64)
    let forms := [Instr.winrd q d a, .winwr q a b, .resume q a]
    let chosen := s.selected c.iss.core c.g
    (priv = false → ∀ f ∈ forms, Traps f s c denied) ∧
    (priv = true → c.active q = 0 → ∀ f ∈ forms, Idles f s c) ∧
    (priv = true → c.active q ≠ 0 → ReadsS c a i → ReadsS c b x →
      (c.g.rob ≠ [] → ∀ f ∈ forms, Waits f s c .drained) ∧
      (c.g.rob = [] → chosen = none →
        (∃ r, WritesS c.g.arch r d 0 ∧ EndsErr (.winrd q d a) s s c r 6) ∧
        EndsErr (.winwr q a b) s s c c.g.arch 6 ∧ EndsErr (.resume q a) s s c c.g.arch 6) ∧
      (∀ core grp h, c.g.rob = [] → chosen = some (core, grp, h) →
        (c.g.held = false → (∃ r, WritesS c.g.arch r d 0 ∧ EndsErr (.winrd q d a) s s c r 3) ∧
          EndsErr (.winwr q a b) s s c c.g.arch 3) ∧
        (c.g.held = true →
          (∃ e v r, WinValue h i.toNat e v ∧ WritesS c.g.arch r d v ∧ EndsErr (.winrd q d a) s s c r e) ∧
          (∃ e h', WinWrites h i.toNat x e h' ∧ EndsErr (.winwr q a b) s (s.setGroup core grp h') c c.g.arch e)) ∧
        (let mode := i.toNat % 4
         let n := c.g.wsel.toNat / 2 ^ 16 % 32
         let p := h.arch.path n
         let sided := p.valid = true ∧ p.state = .siding
         let u := s.trace core grp n 5 mode p.pn
         let h1 := (u.group core grp).getD h
         let go := fun (w : State) => exec (.resume q a) s = .next (c.finish (c.put w
           { c.g with hold := false, held := false, wsel := c.g.wsel &&& ~~~ 0x1000000, werr := 0 }))
         (mode ≠ 3 → ¬ sided → EndsErr (.resume q a) s s c c.g.arch 5) ∧
         (mode = 0 → sided → ∃ w h2, go w ∧ w = u.setGroup core grp h2 ∧
            (∀ k, k ∉ h.arch.stream n → h2.arch.path k = h1.arch.path k) ∧
            (∀ k, k ∈ h.arch.stream n → k < 32 → (h1.arch.path k).valid = true → (h1.arch.path k).state = .siding →
              (h2.arch.path k).state = .ready ∧ (h2.arch.path k).wait = none ∧ (h2.arch.path k).pn = (h1.arch.path k).pn ∧
              (h2.arch.path k).slot = (h1.arch.path k).slot ∧ (h2.arch.path k).em = (h1.arch.path k).em)) ∧
         (mode = 1 → sided → go (u.letResume core grp h1 (h.arch.stream n) true)) ∧
         (mode = 2 → sided → go (u.killEntries core grp h1 (h.arch.stream n))) ∧
         (∀ k t, mode = 3 → h.team = some k → s.team h = some t → go (s.killTeam k t))))) ∧
    (∀ core grp,
      (s.group core grp = none → exec (.groupHeld core grp) s = .next s) ∧
      (∀ g, s.group core grp = some g → s.quiet core grp g = false → exec (.groupHeld core grp) s = .next s) ∧
      (∀ g, s.group core grp = some g → s.quiet core grp g = true → ∃ t, exec (.groupHeld core grp) s = .next t ∧
        t = { s with groups := t.groups } ∧
        (∀ y ∈ s.holders core grp, (∀ z ∈ s.holders core grp, z.1 = y.1 → z = y) →
          t.groups.find y.1 = some { y.2 with held := true }) ∧
        (∀ k, (∀ y ∈ s.holders core grp, y.1 ≠ k) → t.groups.find k = s.groups.find k)))

/-- PTLOAD, BIAS, CTXSV and CTXRS (R127 to R129, R427, R393 to R396). -/
def Obligations.ManagementForms : Prop :=
  ∀ (s : State) (c : Ctx) (q : Quals) (d a b : BitVec 6) (x y : DWord), Issues s c →
    let priv := isRanene c.iss.core
    let denied := FaultInfo.withOperand causePrivilege (c.iss.word.setWidth 64)
    let save := Instr.ctxsv q d a b
    let back := Instr.ctxrs q d a
    let bias := Instr.bias q d a
    let forms := [Instr.ptload q d a b, bias, save, back]
    let fails := fun (i : Instr) (n : Nat) => SetsS i s c d (BitVec.ofNat 64 (2 ^ 63 + n))
    (priv = false → ∀ f ∈ forms, Traps f s c denied) ∧
    (priv = true → c.active q = 0 → ∀ f ∈ forms, Idles f s c) ∧
    (priv = true → c.active q ≠ 0 → ReadsS c a x → ReadsS c b y →
      (c.g.rob ≠ [] → ∀ f ∈ forms, Waits f s c .drained) ∧
      (c.g.rob = [] →
        (s.imageAt x = none → SetsS (.ptload q d a b) s c d 12) ∧
        (∀ bs, s.imageAt x = some bs →
          let slot := b.toNat % 8
          let code := s.checkImage slot bs
          (code ≠ 0 → SetsS (.ptload q d a b) s c d (BitVec.ofNat 64 code)) ∧
          (code = 0 → ∃ u r, WritesS c.g.arch r d 0 ∧ exec (.ptload q d a b) s = .next (c.finish (c.putArch u r)) ∧
            u.images = s.images.set slot (some (Image.ofBytes bs)) ∧ u.groups = s.groups ∧ u.mem = s.mem)) ∧
        (let part := s.partOfCore c.iss.core
         let page := x.toNat / 2 ^ 12 % 2 ^ 29
         let mine := (c.g.arch.path c.iss.ent).wait = some (.flip part page true)
         let target := if x.getLsbD 1 then 1 else 0
         let inside := x.toNat < 2 ^ 41 ∧ s.windowOf part page ≠ none
         (¬ inside → SetsS bias s c d 1) ∧
         (inside → s.lineHcoh (page * 4096) = false → SetsS bias s c d 2) ∧
         (inside → s.lineHcoh (page * 4096) = true →
           (s.flipOf part page ≠ none → (mine → Waits bias s c (.flip part page true)) ∧
             (¬ mine → Waits bias s c (.flip part page false))) ∧
           (s.flipOf part page = none → (mine → SetsS bias s c d 0) ∧
             (¬ mine → s.bias part page = target → SetsS bias s c d 0) ∧
             (¬ mine → s.bias part page < 2 → s.bias part page ≠ target →
               exec bias s = .next (c.block (s.startFlip part page (x.getLsbD 1)) (.flip part page true)))))) ∧
        (let wait := (c.g.arch.path c.iss.ent).wait
         ((∀ k, wait ≠ some (.gathered k)) →
           (s.selected c.iss.core c.g = none → fails save 1) ∧
           (∀ core grp h k t, s.selected c.iss.core c.g = some (core, grp, h) → h.team = some k → s.teams.find k = some t →
             let c' := { c with g := { c.g with hold := false, held := false, wsel := c.g.wsel &&& ~~~ 0x1000000 } }
             let v := c'.put s c'.g
             (s.teamStopped t = true → fails save 2) ∧
             (s.teamStopped t = false → (x.toNat % 128 ≠ 0 ∨ mgmtOff x 1 = none) → fails save 3) ∧
             (s.teamStopped t = false → x.toNat % 128 = 0 → mgmtOff x 1 ≠ none → ∃ w,
               exec save s = .next (c'.block v w) ∧
               (v.heldByOthers t (groupKey c.iss.core c.iss.grp) = false → v.gathering k = false → w = .gathered k) ∧
               (v.heldByOthers t (groupKey c.iss.core c.iss.grp) = true ∨ v.gathering k = true → w = .unheld k)))) ∧
         (∀ k, wait = some (.gathered k) →
           (s.teams.find k = none → fails save 1) ∧
           (∀ t l, s.teams.find k = some t →
             let u := s.abortStopped t
             let img := u.teamImage t l.hdr
             let saved := fun (w : State) (n : DWord) => ∃ r, WritesS c.g.arch r d n ∧
               exec save s = .next (c.finish (c.putArch w r))
             (u.ctx t.vi).launch t.launch = some l →
             (u.teamSettled t = false → exec save s = .next (c.block u (.gathered k))) ∧
             (u.teamSettled t = true → y.toNat < img.length → saved u (BitVec.ofNat 64 (2 ^ 63 + 4))) ∧
             (u.teamSettled t = true → img.length ≤ y.toNat → mgmtOff x img.length = none →
               saved u (BitVec.ofNat 64 (2 ^ 63 + 3))) ∧
             (∀ off, u.teamSettled t = true → img.length ≤ y.toNat → mgmtOff x img.length = some off →
               saved ((u.mgmtPut off img).freeTeam k t) (BitVec.ofNat 64 img.length))))) ∧
        (let core := c.g.wsel.toNat / 2 ^ 8 % 2 ^ 8
         (∀ e, s.readImage x = .error e → fails back e) ∧
         (∀ h l bs, s.readImage x = .ok (h, l, bs) →
           (s.hasRoom core h l bs = false → fails back 6) ∧
           (∀ banks, s.hasRoom core h l bs = true → s.pickAllBanks (clusterOfCore core) l.hdr = some banks →
             (∀ u n, s.emptyBanks (clusterOfCore core) (banks.1 ++ banks.2.1 ++ banks.2.2) = (u, some n) →
               exec back s = .next (c.block u (.bank (clusterOfCore core) n))) ∧
             (∀ u, s.emptyBanks (clusterOfCore core) (banks.1 ++ banks.2.1 ++ banks.2.2) = (u, none) →
               (∀ e, u.restore core h l bs = .error e → ∃ r, WritesS c.g.arch r d (BitVec.ofNat 64 (2 ^ 63 + e)) ∧
                 EndsIn back s u c r []) ∧
               (∀ w, u.restore core h l bs = .ok w → ∃ r, WritesS c.g.arch r d 0 ∧ EndsIn back s w c r []))))))) ∧
    (∀ (z : Coupling), z.prod < 32 → z.cons < 32 → z.depth ≤ 1024 → z.allow ≤ 1024 → z.ret ≤ 1024 → z.stored = z.opened →
      Coupling.ofBytes z.bytes z.handles = z) ∧
    (∀ (z : Barrier), z.count ≤ 1024 → z.arr ≤ 1024 → Barrier.ofBytes z.bytes = z)

/-- Events at the home of a line (R121 to R125): GETS, GETM, GETU, PUTS, PUTM, ACK, DATA, ATOM, HSNP, HGET, HPUT, NCR,
NCW and RECALL, as the image of the line's range has them. -/
def Obligations.HomesAct : Prop :=
  let arrivals := fun (k : Nat) => [(Instr.gets k, Event.gets), (.getm k, .getm), (.getu k, .getu), (.puts k, .puts),
    (.putm k, .putm), (.ack k, .ack), (.data k, .data), (.atom k, .atom), (.hsnp k, .hsnp), (.hget k, .hget),
    (.hput k, .hput), (.ncr k, .ncr), (.ncw k, .ncw)]
  let own := fun (e : Event) => e == .recall || e == .ue
  (∀ (s : State) (k : Nat) (m : Msg) (ev : Event) (i : Instr), s.net[k]? = some m → m.kind = .home ev → (i, ev) ∈ arrivals k →
    s.admits m = false → exec i s = .next (if s.frozen m.line then s else s.makeHomeRoom m.part m.line)) ∧
  ∀ (s u : State) (m : Msg) (ev : Event) (i : Instr), AtHome u m ev →
    (∃ k, s.net[k]? = some m ∧ m.kind = .home ev ∧ u = { s with net := s.net.eraseIdx k } ∧
      ((i, ev) ∈ arrivals k ∨ ∃ part line, i = .recall part line ∧ ev = .recall ∧
        s.homeOwn part (line / 128 * 128) own = some k)) ∨
    (∃ part line, i = .recall part line ∧ ev = .recall ∧ u = s ∧ s.homeOwn part (line / 128 * 128) own = none ∧
      m = Msg.blank (.home .recall) part (line / 128 * 128) (72 + s.homeSlice part (line / 128 * 128) / 48)) →
    let h := s.home m.part m.line
    let d0 := Dir.ofBits h.dir
    let ev' := lookedUp ev d0 m
    let d := if ev = .puts ∧ d0.coarse = false
      then Dir.ofBits (Dir.pack { d0 with ptrs := d0.ptrs.filter (· != m.peer), o := false }) else d0
    let img := s.imageOf m.line
    let e := img.entry d.state ev'
    let rt := servedRequest ev h m s.tag
    let line := fun (t : State) => t.home m.part m.line
    let slice := s.homeSlice m.part m.line
    (ev = .puts → d0.coarse = false → m.peer ∉ d0.ptrs → exec i s = .next u) ∧
    ((ev = .puts → d0.coarse = true ∨ m.peer ∈ d0.ptrs) → ∃ t, HomeOnly u t m.part m.line ∧
      (img.defined d.state ev' = false → exec i s = .next t ∧ (line t).poison = true ∧ Dir.ofBits (line t).dir = d ∧
        t.net = u.net ++ (if ev'.replied then
          [{ m with kind := .reply ev', data := (line t).data, poison := true, full := true, cls := 4, excl := false }] else []) ∧
        (t.mgmt.evWait.get (slice / 48) []).getLast? = some (eventRecord 2 (slice / 48)
          (slice + s.imageSlot m.line * 256 + d.state * 2048) (BitVec.ofNat 64 m.line) (BitVec.ofNat 64 ev'.code) s.ns)) ∧
      (img.defined d.state ev' = true → act e 12 = true → exec i s = .next t ∧ (line t).queue = h.queue ++ [m] ∧
        Dir.ofBits (line t).dir = d ∧ t.net = u.net) ∧
      (img.defined d.state ev' = true → act e 12 = false → act e 6 = true → d.acks - 1 ≠ 0 →
        exec i s = .next t ∧ (line t).queue = h.queue ∧ t.net = u.net ∧ (line t).txn = putmTxn ev' m h.txn ∧
        (line t).dir = Dir.pack { d with acks := d.acks - 1, h := d.h && !(ev' == .hsnp && act e 19) }) ∧
      (img.defined d.state ev' = true → act e 12 = false → (act e 6 = true → d.acks - 1 = 0) → ∃ out,
        EntryActs u t ev' m e d rt.1 rt.2 out ∧
        (act e 5 = false ∨ out.filter Counted ≠ [] → exec i s = .next t) ∧
        (act e 5 = true → out.filter Counted = [] → exec i s =
          .next (applyEntry 3 t .ack { Msg.blank (.home .ack) m.part m.line rt.1.peer with tag := rt.2, vi := m.vi }))))

/-- Messages that reach a cluster, a replica slice or a host port (R112, R113, R119, R121, R136), and what a home does by itself: a
lease that ends (R471) and an eviction (R111, R472). -/
def Obligations.AgentsAnswer : Prop :=
  ∀ (s : State) (k : Nat),
    let kinds := [Instr.invalidation k, .update k, .forward k, .reply k, .replicaFill k, .backInvalidation k]
    let fromHome := fun (x : Msg) => ∀ e, x.kind ≠ .home e
    (s.net[k]? = none → ∀ i ∈ kinds, exec i s = .next s) ∧
    (∀ j m x, s.net[k]? = some m → j < k → s.net[j]? = some x → fromHome m → fromHome x → x.peer = m.peer → x.line = m.line →
      x.part = m.part → ∀ i ∈ kinds, exec i s = .next s) ∧
    (∀ m, s.net[k]? = some m → s.mayDeliver k = true →
      let u := { s with net := s.net.eraseIdx k }
      let c := m.peer
      let x := s.cluster c
      let own := x.lines.find m.line
      let held := if s.partOfCluster c = m.part then own else none
      let lines := fun (ls : Table CLine) => u.setCluster c { x with lines := ls }
      let updated := fun (l : CLine) =>
        { l with data := Line.merge l.data m.data m.mask, poison := l.poison && !(m.mask == BitVec.allOnes 128) }
      let ack := { Msg.blank (.home .ack) m.part m.line c with tag := m.tag }
      let data := fun (l : CLine) => { Msg.blank (.home .data) m.part m.line c with tag := m.tag, data := l.data, poison := l.poison, full := true, vi := l.vi }
      (m.kind = .inv →
        (held = none → exec (.invalidation k) s = .next (u.send ack)) ∧
        (∀ l, held = some l →
          exec (.invalidation k) s = .next ((lines (x.lines.drop m.line)).send (if l.st = .m then data l else ack)))) ∧
      (m.kind = .upd →
        ((∀ l, held = some l → l.st ≠ .s ∧ l.st ≠ .u) → exec (.update k) s = .next (u.send ack)) ∧
        (∀ l, held = some l → l.st = .s ∨ l.st = .u →
          exec (.update k) s =
            .next ((lines (x.lines.put m.line (updated l))).send ack))) ∧
      (∀ e, m.kind = .fwd e →
        ((∀ l, held = some l → l.st ≠ .m ∧ l.st ≠ .e) → exec (.forward k) s = .next (u.send ack)) ∧
        (∀ l, held = some l → l.st = .m ∨ l.st = .e →
          exec (.forward k) s = .next ((if e = .gets ∨ e = .ncr then lines (x.lines.put m.line { l with st := .s })
            else lines (x.lines.drop m.line)).send (data l)))) ∧
      (∀ e, m.kind = .fill e → ∃ l : CLine, l.st = .p ∧ l.data = m.data ∧ l.poison = m.poison ∧ l.granted = m.granted ∧ l.rvt = m.rvt ∧
        exec (.replicaFill k) s = .next ({ u with replicas := u.replicas.put (homeKey (replicaSlice (sectorOfCluster c) m.line) m.line) l }.send { m with kind := .reply .gets })) ∧
      (m.kind = .bisnp → exec (.backInvalidation k) s =
        .next { u with out := { u.out with snoops := u.out.snoops ++ [⟨c - 76, m.part, m.line, m.tag, false, false⟩] } }) ∧
      (∀ e, m.kind = .reply e →
        let caching := c < 72 ∧ (e = .gets ∨ e = .getm ∨ e = .getu) ∧ m.cls < 4
        let grant := CState.ofCode (((s.imageOf m.line).grant.getD m.cls 0).toNat)
        let room := own ≠ none ∨ ∃ b ∈ x.ways, ∀ p ∈ x.lines, cacheSet p.1 = cacheSet m.line → p.1 ≠ m.line → p.2.bank ≠ b
        let line := fun (t : State) => (t.cluster c).lines.find m.line
        ∃ t, exec (.reply k) s = .next t ∧
          (c < 72 → e = .gets ∨ e = .getm ∨ e = .getu → ∀ q ∈ (t.cluster c).mshr, q.line ≠ m.line) ∧
          (m.ref = none → c < 72 → m.cls = 4 → line t = none) ∧
          (∀ st, caching → grant = some st → m.full = true → room → m.ref = none → ∃ l, line t = some l ∧ l.st = st ∧
            l.data = m.data ∧ l.poison = m.poison ∧ l.expiry = m.expiry ∧ l.granted = m.granted ∧ l.rvt = m.rvt) ∧
          (∀ r op q, m.ref = some r → s.reqOf r = some (op, q) →
            let atHome := e = .ncr ∨ e = .ncw ∨ e = .atom ∨ m.cls = 4
            let done := fun (as : List Acc) (f : Option (BitVec 8)) (v n : Nat) =>
              { q with stat := .done, accs := as, fail := f, rvt := v, ns := n }
            let bad := m.poison = true ∨ ((e = .getu ∨ q.stat = .asked) ∧ ∃ l, line t = some l ∧ l.poison = true)
            let poison := fun (p : Option (BitVec 8)) => (bad → p = some causePoison) ∧ (¬ bad → p = none)
            (m.cls = 5 → t.reqOf r = some (op, { q with stat := .todo })) ∧
            (m.cls = 6 → t.reqOf r = some (op, done q.accs (some causeProtection) 0 s.ns)) ∧
            (q.stat = .asked → m.cls < 5 →
              (bad ∧ op.kind ≠ .czero → t.reqOf r = some (op, done q.accs (some causePoison) 0 s.ns)) ∧
              (¬ bad ∨ op.kind = .czero → t.reqOf r = some (op, { q with stat := .granted }))) ∧
            (q.stat ≠ .asked → m.cls < 5 → op.kind.isWrite = false →
              (∃ p, poison p ∧ t.reqOf r = some (op, done (readAccs op m.data q.accs) p m.rvt m.granted)) ∧
              (∀ g, s.group r.core r.grp = some g → ∃ g', t.group r.core r.grp = some g' ∧ g'.vtDev = max g.vtDev m.rvt ∧
                g'.vtSys = max g.vtSys m.rvt ∧ g'.floor = if atHome then max g.floor m.granted else g.floor)) ∧
            (q.stat ≠ .asked → m.cls < 5 → op.kind.isWrite = true → m.excl = false ∨ atHome →
              (∃ p, poison p ∧ t.reqOf r = some (op, done (if e = .atom then m.accs else q.accs) p m.rvt
                (if e = .atom then m.granted else s.ns))) ∧
              (∀ g, s.group r.core r.grp = some g → e = .atom → ∃ g', t.group r.core r.grp = some g' ∧
                g'.floor = max g.floor m.granted)) ∧
            (∀ st v p, q.stat ≠ .asked → caching → grant = some st → m.excl = true → op.kind.isWrite = true → room →
              (if m.full then v = m.data ∧ p = m.poison else ∃ l, own = some l ∧ v = l.data ∧ p = l.poison) →
              p = false ∨ op.kind = .czero →
              t.reqOf r = some (op, done (performAccs op v q.accs).2 none 0 s.ns) ∧
              ∃ l, line t = some l ∧ l.st = .m ∧ l.data = (performAccs op v q.accs).1 ∧ l.poison = false)))) ∧
    (∀ part a,
      let l := a / 128 * 128
      let h := s.home part l
      let d := Dir.ofBits h.dir
      let img := s.imageOf l
      let waits := fun (e : Event) => e == .leasex
      let busy := h.queue ≠ [] ∨ h.held ≠ [] ∨ h.ueWait ≠ [] ∨ img.inTransient d.state = true
      (∀ j, s.homeOwn part l waits = some j → exec (.leasex part a) s = .next (s.deliverAt j)) ∧
      (s.homeOwn part l waits = none → (∀ e, h.lease = some e → s.ns ≤ e) → exec (.leasex part a) s = .next s) ∧
      (∀ e, s.homeOwn part l waits = none → h.lease = some e → e < s.ns → ∃ t, exec (.leasex part a) s = .next t ∧
        HomeOnly s t part l ∧ (t.home part l).lease = none ∧
        (dirRead h.dir = .clean h.dir → h.ueData = none → img.defined d.state .leasex = false →
          (t.home part l).poison = true ∧ Dir.ofBits (t.home part l).dir = d ∧ t.net = s.net ∧
          (t.mgmt.evWait.get (s.homeSlice part l / 48) []).getLast? = some (eventRecord 2 (s.homeSlice part l / 48)
            (s.homeSlice part l + s.imageSlot l * 256 + d.state * 2048) (BitVec.ofNat 64 l) 9 s.ns))) ∧
      (s.passedOver part l = true →
        (s.victim part l = none → exec (.sliceEviction part a) s = .next s) ∧
        (∀ j, s.victim part l = some j → exec (.sliceEviction part a) s = .next (s.evictLine part j) ∧ j ≠ l ∧
          s.passedOver part j = false ∧ j ∈ s.setLines part l)) ∧
      (s.passedOver part l = false → busy → exec (.sliceEviction part a) s = .next s) ∧
      (∀ e, h.lease = some e → s.ns ≤ e → s.passedOver part l = true) ∧
      (s.passedOver part l = false → ¬ busy →
        (img.inNocopy d.state = false ∨ d.h = true →
          exec (.sliceEviction part a) s = .next ((s.setHome part l { h with evict := true }).recallLine part l)) ∧
        (img.inNocopy d.state = true → d.h = false → ∃ t, exec (.sliceEviction part a) s = .next t ∧
          t.home part l = { HomeLine.zero with lease := h.lease } ∧
          (∀ n, n ≠ homeKey part l → t.homes.find n = s.homes.find n) ∧
          (∀ x, h.here = true → h.dirty = true → s.dpaKind part l = .dram x →
            t.mem = Memory.setBytes s.mem x (Line.toBytes h.data)) ∧
          (h.here = false ∨ h.dirty = false → t.mem = s.mem) ∧
          (s.readOnly part l = true → (t.mgmt.evWait.get (s.homeSlice part l / 48) []).getLast? =
            some (eventRecord 0x0A (s.homeSlice part l / 48) 0 (BitVec.ofNat 64 l) 0 s.ns)))))

/-- Run starts (R359, R467), the ends of waits (R358), walks (R382, R383) and the writing of fault records (R374) and halt records
(R452; its answer's code is log 53's). That a round is one run start is the specification's; which event comes next is this model's choice (log 2). -/
def Obligations.RunsAndWaits : Prop :=
  ∀ s : State,
    (∀ core part,
      let i := Instr.runStart core part
      let xs := s.readyStreams core part
      let level := fun (x : Nat × Nat × Nat) => min 3 (s.prio core x.1 + x.2.2 / 64)
      (s.partIdle core part = false ∨ xs = [] → exec i s = .next s) ∧
      (s.partIdle core part = true → xs ≠ [] → StreamsApart s core xs → ∃ x ∈ xs, ∃ t, exec i s = .next t ∧
        ((∃ y ∈ xs, 192 ≤ y.2.2) → ∀ y ∈ xs, y.2.2 < x.2.2 ∨ (y.2.2 = x.2.2 ∧ streamCode x ≤ streamCode y)) ∧
        ((∀ y ∈ xs, y.2.2 < 192) →
          let last := (s.part core part).last.find? fun p => p.1 == level x
          let after := fun (y : Nat × Nat × Nat) => ∀ p, last = some p → p.2 < streamCode y
          (∀ y ∈ xs, level y < level x ∨ (level y = level x ∧ (after y → after x ∧ streamCode x ≤ streamCode y) ∧
            (¬ after x → streamCode x ≤ streamCode y))) ∧
          (t.part core part).last.find? (fun p => p.1 == level x) = some (level x, streamCode x)) ∧
        (∀ y ∈ xs, ∀ g, s.group core y.1 = some g → ∃ h, t.group core y.1 = some h ∧ h.arch.v = g.arch.v ∧ h.arch.s = g.arch.s ∧
          ∀ j ∈ g.arch.stream y.2.1, j < 32 → (h.arch.path j).pn = (g.arch.path j).pn ∧
            (h.arch.path j).lost = if y = x then 0 else (g.arch.path j).lost + 1) ∧
        (∀ g, s.group core x.1 = some g →
          let v := s.ctx g.vi
          let p := g.arch.path x.2.1
          let counts := p.run = 0 ∧ isRanene core = false ∧ v.dbgctl.getLsbD 3 = true ∧ (s.features core g).getLsbD 10 = true
          let inside := v.cxLo.toNat ≤ p.pn.toNat ∧ p.pn.toNat < v.cxHi.toNat
          let d := if counts ∧ ¬ inside then v.cxDelay.toNat else 0
          let counter := fun (n : Nat) => (t.ctx g.vi).counters.get n 0
          (d = 0 → t.running = s.running ++ [(core, x.1, x.2.1)]) ∧
          (d ≠ 0 → t.running = s.running ∧ ∃ h, t.group core x.1 = some h ∧ ∀ j ∈ g.arch.stream x.2.1, j < 32 →
            (h.arch.path j).state = .blocked ∧ (h.arch.path j).wait = some (.causal (s.clk + d))) ∧
          (counts → inside → counter 17 = v.counters.get 17 0 + 1) ∧
          (counts → ¬ inside → counter 18 = v.counters.get 18 0 + 1 ∧ counter 16 = v.counters.get 16 0 + BitVec.ofNat 64 d)))) ∧
    (∀ core grp ent g w, s.group core grp = some g → (g.arch.path ent).wait = some w →
      let p := g.arch.path ent
      let waitEnd := Instr.waitEnd core grp ent
      let causal := Instr.causalDelayEnd core grp ent
      let blocked := p.valid = true ∧ p.state = .blocked
      let woken := fun (t : State) (i : Instr) => exec i s = .next t ∧ ∃ h, t.group core grp = some h ∧
        ∀ j ∈ g.arch.stream ent, j < 32 → (h.arch.path j).state = .ready ∧ (h.arch.path j).lost = 0 ∧
          (h.arch.path j).pn = (g.arch.path j).pn ∧ (h.arch.path j).run = (g.arch.path j).run
      let held := s.isHeld core grp = true
      (¬ blocked ∨ g.ended = true ∨ g.stopped = true ∨ held ∨ s.waitOver core grp g ent w = false → exec waitEnd s = .next s) ∧
      (blocked → g.ended = false → g.stopped = false → ¬ held → s.waitOver core grp g ent w = true →
        (∀ part line, w = .reach part line → isHostDpa line = false → s.reachable part line = false →
          exec waitEnd s = .next ((s.callHome part line).settleLine part line)) ∧
        ((∀ part line, w = .reach part line → isHostDpa line = true ∨ s.reachable part line = true) → ∃ t, woken t waitEnd ∧
          ∃ a, t = s.setGroup core grp { g with arch := a } ∧ PathsOnly g.arch a ∧
            (a.path ent).wait = if w.kept then some w else none)) ∧
      (∀ clk, w = .causal clk → (blocked → ¬ held → clk ≤ s.clk → ∃ t, woken t causal) ∧
        (¬ blocked ∨ held ∨ s.clk < clk → exec causal s = .next s)) ∧
      ((∀ clk, w ≠ .causal clk) → exec causal s = .next s)) ∧
    (∀ core grp ent, (∀ g, s.group core grp = some g → (g.arch.path ent).wait = none) →
      exec (.waitEnd core grp ent) s = .next s ∧ exec (.causalDelayEnd core grp ent) s = .next s) ∧
    (∀ vi core (va : BitVec 64),
      let i := Instr.translationWalk vi core va
      let root := s.mr (xltReg vi 0)
      let found := s.walk (s.partOfCore core) vi va
      (2 ^ 56 ≤ va.toNat ∨ root.getLsbD 0 = false → exec i s = .next s) ∧
      (found = none → ∃ t, exec i s = .next t ∧ Touches s t ∧ t.tlb = s.tlb) ∧
      (root.getLsbD 0 = false → found = none) ∧
      (∀ es e, root.getLsbD 0 = true → WalkChain s (s.partOfCore core) va.toNat 5 (root.toNat / 2 ^ 12 % 2 ^ 40 * 4096) es →
        es.getLast? = some e →
        let size := 2 ^ (12 + 9 * (5 - es.length))
        found = some ⟨va.toNat / size * size, size, e.toNat / 2 ^ 12 % 2 ^ 40 * 4096, e.getLsbD 1, e.getLsbD 2, e.getLsbD 3⟩) ∧
      (∀ p, va.toNat < 2 ^ 56 → found = some p → ∃ t, exec i s = .next t ∧ Touches s t ∧
        Tlb.mk core vi p.va p.size p.pa p.r p.w p.x ∈ t.tlb ∧ Tlb.mk (256 + dieOfCore core) vi p.va p.size p.pa p.r p.w p.x ∈ t.tlb ∧
        ∀ x ∈ t.tlb, x ∈ s.tlb ∨ x = Tlb.mk core vi p.va p.size p.pa p.r p.w p.x ∨
          x = Tlb.mk (256 + dieOfCore core) vi p.va p.size p.pa p.r p.w p.x)) ∧
    (∀ d, d < 4 →
      let i := Instr.faultRecordWrite d
      let base := fqReg d 0
      let head := (s.mr (base + 16)).toNat
      let tail := (s.mr (base + 24)).toNat
      let n := 2 ^ ((s.mr (base + 8)).toNat % 16)
      let room := (s.mr base).getLsbD 0 = true ∧ (tail + 0x10000 - head % 0x10000) % 0x10000 < n
      let quiet := s.mgmt.halted.getLsbD d = true ∨ ∀ h ∈ s.mgmt.haltWait, h.1 ≠ d
      (quiet → s.mgmt.fqWait.get d [] = [] → exec i s = .next s) ∧
      (∀ r rest, quiet → s.mgmt.fqWait.get d [] = r :: rest →
        (room → ∃ t, exec i s = .next t ∧ t.mgmt.fqWait.get d [] = rest ∧ t.groups = s.groups ∧
          t.mr (base + 24) = BitVec.ofNat 64 ((tail + 1) % 0x10000) ∧ t.mr (base + 16) = s.mr (base + 16) ∧
          (let at0 := mgmtCell (((s.mr base).toNat / 64 * 64 + 64 * (tail % n)) % 2 ^ 32)
           Memory.wf s.mem = true → (∀ k, k < 64 → Memory.byte t.mem (at0 + k) = r.extractLsb' (8 * k) 8) ∧
             ∀ a, a < at0 ∨ at0 + 64 ≤ a → Memory.byte t.mem a = Memory.byte s.mem a)) ∧
        (¬ room → exec i s = .next (if (s.mr (base + 8)).getLsbD 8 then s else s.setMr (base + 8) (s.mr (base + 8) ||| 0x100)))) ∧
      (∀ h, s.mgmt.halted.getLsbD d = false → s.mgmt.haltWait.find? (fun h => h.1 == d) = some h → ∃ t, exec i s = .next t ∧
        t.mgmt.halts.find d = some (h.2.2, h.2.1) ∧ t.mgmt.merr = true ∧ t.mgmt.halted.getLsbD d = true ∧
        t.mgmt.haltWait = s.mgmt.haltWait.erase h ∧ t.groups = s.groups ∧ t.out.answer = some ⟨9, d / 2, false, []⟩ ∧
        (d ≠ 0 → (t.mgmt.evWait.get 0 []).getLast? = some (eventRecord 0x09 d 0 (BitVec.ofNat 64 (0x160000 + 0x40 * d)) 0 s.ns))))

/-- What the host and the links do to the device (R413, R418 to R421, R424, R426, R428 to R431, R435): the requests, and what the
device answers. The codes of answers and the places of the base address registers are this model's (log 53, 58). -/
def Obligations.HostActs : Prop :=
  ∀ s : State,
    (∀ port dec off (x : BitVec 512),
      let j := port % 2 * 2 + dec % 2
      let o := off / 64 * 64
      let a := (s.mr (hwReg j 1)).toNat + o
      let half := byteMask (a % 128 / 64 * 64) 64
      let inside := (s.mr (hwReg j 0)).getLsbD 0 = true ∧ o < (s.mr (hwReg j 2)).toNat ∧ s.lineHcoh (a / 128 * 128) = true
      let miss := s.event (port % 2 * 2) 0x04 0 (s.mr (hwReg j 1) + BitVec.ofNat 64 o) 0
      (∀ d, s.windowDies j = some d → inside →
        let ask := fun (e : Event) => { Msg.blank (.home e) (s.partOfDie d) (a / 128 * 128) (76 + port % 2) with mask := half }
        exec (.memrd port dec off) s = .next ((s.send (ask .hget)).count 0 7 64) ∧
        exec (.memwr port dec off x) s = .next ((s.send { ask .hput with data := x.setWidth 1024 <<< (8 * (a % 128)) }).count 0 7 64)) ∧
      (s.windowDies j = none ∨ ¬ inside →
        exec (.memrd port dec off) s = .next (miss.answerHost 1 o true (List.replicate 64 0)) ∧
        exec (.memwr port dec off x) s = .next miss)) ∧
    (∀ port part line half,
      let i := Instr.birsp port part line half
      let found := s.out.snoops.find? fun x => x.port == port && x.part == part && x.line == line
      let mine := fun (m : Msg) => m.kind == .home .hput && m.part == part && m.line == line && m.peer == 76 + port
      (found = none → exec i s = .next s) ∧
      (∀ x, found = some x →
        let y := if half % 2 = 0 then { x with low := true } else { x with high := true }
        (y.low = false ∨ y.high = false → exec i s =
          .next { s with out := { s.out with snoops := s.out.snoops.map fun z => if z == x then y else z } }) ∧
        (y.low = true → y.high = true → exec i s =
          .next (((s.net.filter mine).foldl deliver
            { s with out := { s.out with snoops := s.out.snoops.erase x }, net := s.net.filter fun m => !mine m }).send
            { Msg.blank (.home .hsnp) part line (76 + port) with tag := x.tag }))) ∧
      exec (.h2dSnoop port line) s = .next { s with out := { s.out with answer := some ⟨3, line, false, [BitVec.ofNat 8 (port % 2)]⟩ } }) ∧
    (∀ k (l : Line) poison,
      let read := Instr.rdcurrCompletion k l poison
      let seen := Instr.globalObservation k
      (s.out.reqs[k]? = none → exec read s = .next s ∧ exec seen s = .next s) ∧
      (∀ r, s.out.reqs[k]? = some r →
        (r.write = true → exec read s = .next s) ∧ (r.write = false → exec seen s = .next s) ∧
        (∀ f op q g, r.ref = some f → s.reqOf f = some (op, q) → s.group f.core f.grp = some g →
          let done := fun (t : State) (as : List Acc) (p : Option (BitVec 8)) => t.out.reqs = s.out.reqs.eraseIdx k ∧
            t.reqOf f = some (op, { q with stat := .done, accs := as, fail := p, rvt := 0, ns := s.ns })
          (r.write = false → ∃ t h, exec read s = .next t ∧ done t (readAccs op l q.accs) (if poison then some causePoison else none) ∧
            t.group f.core f.grp = some h ∧ h.floor = max g.floor s.ns) ∧
          (r.write = true → ∃ t h, exec seen s = .next t ∧ done t q.accs none ∧ t.group f.core f.grp = some h ∧
            h.vtClu = max g.vtClu s.ns ∧ h.vtDev = max g.vtDev s.ns ∧ h.vtSys = max g.vtSys s.ns)) ∧
        (∀ c, r.ref = none → r.chan = some c → r.write = false →
          let ch := s.chans.get c Channel.zero
          r.addr ∈ ch.asked → ∃ t, exec read s = .next t ∧ t.chans.get c Channel.zero =
            { ch with asked := ch.asked.filter (· != r.addr), got := ch.got ++ [(r.addr, l, poison)] }) ∧
        (∀ v, r.ref = none → r.chan = none → r.eng = some v →
          (r.write = false → ∃ t, exec read s = .next t ∧ (t.ctx v).hostGot = (s.ctx v).hostGot ++ [(r.addr, l, poison)]) ∧
          (r.write = true → ∃ t, exec seen s = .next t ∧ (t.ctx v).hostDone = (s.ctx v).hostDone ++ [(r.addr, r.data, r.mask)])))) ∧
    (∀ v (x : BitVec 64), v < 64 → s.viEnabled v = true →
      let ask := Instr.biasReqWrite v x
      let busy := (s.mr (biasStatReg v)).getLsbD 8
      let recorded := s.setMr (biasReqReg v) (x &&& 0x1FFFFFFF003)
      ((s.caps v).getLsbD 8 = false ∨ x.getLsbD 0 = false ∨ busy = true → exec ask s = .next s) ∧
      ((s.caps v).getLsbD 8 = true → x.getLsbD 0 = true → busy = false → exec ask s =
        .next (if s.paused v then recorded else recorded.setMr (biasStatReg v) (s.mr (biasStatReg v) ||| 0x100))) ∧
      exec (.biasStatWrite v x) s =
        .next ((s.setMr (biasStatReg v) (x &&& 0xFF)).setMr (biasReqReg v) (s.mr (biasReqReg v) &&& ~~~ 1))) ∧
    (∀ v x, 64 ≤ v ∨ s.viEnabled v = false → exec (.biasReqWrite v x) s = .next s ∧ exec (.biasStatWrite v x) s = .next s) ∧
    (∀ part page,
      let i := Instr.biasFlipComplete part page
      (s.flipOf part page = none → exec i s = .next s) ∧
      (∀ f, s.flipOf part page = some f →
        (f.recalled.length < 32 → exec i s = .next s) ∧
        (32 ≤ f.recalled.length →
          let b := s.setBias part page (if f.toH then 1 else 0)
          exec i s = .next ((pageLines page).foldl (fun t l => t.unhold part l fun _ => true)
            { b with mgmt := { b.mgmt with flips := b.mgmt.flips.filter (· != f) } }))) ∧
      (∀ code j, code < 4 → s.windowOf part page = some j →
        let n := page - (s.mr (hwReg j 1)).toNat / 4096
        let a := (s.mr (hwReg j 3)).toNat + n / 4
        Line.field ((s.setBias part page code).home part (a / 128 * 128)).data (a % 128) 1 / 2 ^ (n % 4 * 2) % 4 = code)) ∧
    (∀ hostNs ok,
      let i := Instr.ptmDialogue hostNs ok
      let ofs := Int.ofNat hostNs - Int.ofNat s.ns
      let follow := ok = true ∧ (s.mr timeCfgReg).getLsbD 0 = true
      let due := s.ns + 2 ^ min 10 (bitsOf (s.mr timeCfgReg) 7 4) * 1000000
      let m := { s.mgmt with ptmDue := due }
      let u := { s with free := s.free + 1 }.setMr timeOfsReg (BitVec.ofInt 64 ofs)
      (¬ follow → exec i s = .next { s with mgmt := { m with slew := 0 }, free := s.free + 1 }) ∧
      (follow → 1000000 < ofs → exec i s = .next { u with clk := max s.clk (2 * hostNs), mgmt := { m with slew := 0 } }) ∧
      (follow → ofs ≤ 1000000 → exec i s = .next { u with mgmt := { m with slew := 4 * ofs } }) ∧
      s.clk ≤ s.nextClock.clk ∧ s.nextClock.clk ≤ s.clk + 2) ∧
    (∀ k ok,
      let i := Instr.buithFlit k ok
      let n := s.out.replays.get k 0
      let up := k < 12 ∧ (s.mr (blReg k 0)).getLsbD 1 = true
      (¬ up → exec i s = .next s) ∧
      (up → ok = true →
        let q := s.out.inbox.get k []
        let rest := q.tail
        let u := { s with out := { s.out with
          replays := s.out.replays.drop k, inbox := if rest = [] then s.out.inbox.drop k else s.out.inbox.put k rest } }
        (q = [] → exec i s = .next { s with out := { s.out with replays := s.out.replays.drop k } }) ∧
        (∀ r, q.head? = some r →
          let base := s.mr (blReg k 1)
          let a := base.toNat / 2 ^ 12 % 2 ^ 29 * 4096 + r.off / 128 * 128
          let open' := a < (s.mr (blReg k 2)).toNat / 2 ^ 12 % 2 ^ 29 * 4096 ∧ base.getLsbD (if r.write then 1 else 0) = true
          (¬ open' → exec i s = .next (u.answerHost 4 k false [1])) ∧
          (open' → exec i s = .next (u.send { Msg.blank (.home (if r.write then .ncw else .ncr)) (s.partOfDie (k / 3)) a (78 + k) with
            vi := 64, data := r.data, mask := r.mask })))) ∧
      (up → ok = false → n ≠ 8 → exec i s = .next { s with out := { s.out with replays := s.out.replays.put k (n + 1) } }) ∧
      (up → ok = false → n = 8 → ∃ t, exec i s = .next t ∧ (t.mr (blReg k 0)).getLsbD 1 = false ∧
        (t.mgmt.evWait.get (k / 3) []).getLast? = some (eventRecord 0x08 (k / 3) 0 (BitVec.ofNat 64 k) 0 s.ns))) ∧
    (∀ j (x : BitVec 64), j < 4 →
      let y := x &&& 0x1F
      let u := s.setMr (hwReg j 0) y
      let fits := ∃ p, u.windowDies j = some p ∧ (s.mr (hwReg j 1)).toNat + (s.mr (hwReg j 2)).toNat ≤ s.normalSize p
      (y.getLsbD 0 = false ∨ fits → exec (.hwCfgWrite j 0 x) s = .next u) ∧
      (y.getLsbD 0 = true → ¬ fits → exec (.hwCfgWrite j 0 x) s = .next (s.event 0 0x05 (hwReg j 0) (BitVec.ofNat 64 (hwReg j 0)) y))) ∧
    (∀ port reg,
      let i := Instr.configurationRequest port reg
      let about := port % 2 * 2 ^ 16 + reg
      (s.mgmt.ready = false → s.mgmt.fail = 0 → exec i s = .next (s.answerHost 2 about false [2])) ∧
      (s.mgmt.fail ≠ 0 → reg = 0x10 ∨ reg = 0x14 → exec i s = .next (s.answerHost 2 about false [0, 0, 0, 0, 0])) ∧
      ((s.mgmt.ready = true ∨ s.mgmt.fail ≠ 0) → (s.mgmt.fail = 0 ∨ (reg ≠ 0x10 ∧ reg ≠ 0x14)) → ∃ t bs, exec i s = .next t ∧
        bs.length = 4 ∧ t.out.answer = some ⟨2, about, false, 0 :: bs⟩ ∧
        (0x10 ≤ reg → reg < 0x28 → port % 2 = 1 ∨ 0x18 ≤ reg → bs = [0, 0, 0, 0])))

/-- Writes of the registers of the management window (R92, R93, R115, R116, R373, R433, R438, R439, R444, R445). -/
def Obligations.RegisterWrites : Prop :=
  ∀ (s : State) (x : BitVec 64),
    let refused := fun (off : Nat) (y : BitVec 64) => s.event 0 0x05 off (BitVec.ofNat 64 off) y
    let quiesced := fun (d : Nat) => s.mgmt.qdies.getLsbD d = true
    let sets := fun (i : Instr) (off : Nat) (y : BitVec 64) => exec i s = .next (s.setMr off y) ∧ exec (.registerWrite off x) s = .next (s.setMr off y)
    let refuses := fun (i : Instr) (off : Nat) (y : BitVec 64) =>
      exec i s = .next (refused off y) ∧ exec (.registerWrite off x) s = .next (refused off y)
    (∀ k r, k < 64 → r < 4 →
      let off := rangeReg k r
      let y := x &&& (match r with
        | 0 => 0x1FFFFFFF001
        | 1 => 0x1FFFFFFF000
        | 2 => 7
        | _ => 0x3FFFF)
      let u := s.setMr off y
      let bad := ((u.mr (rangeReg k 0)).getLsbD 0 = true ∧ s.images.getD ((u.mr (rangeReg k 2)).toNat % 8) none = none) ∨ u.rangesOk = false
      let ext := fun (t : State) => ((t.mr (rangeReg k 0)).toNat / 2 ^ 12 % 2 ^ 29 * 4096, (t.mr (rangeReg k 1)).toNat / 2 ^ 12 % 2 ^ 29 * 4096)
      let es := [ext s, ext u]
      let done := fun (t : State) => { t with mgmt := { t.mgmt with rangeWr := t.mgmt.rangeWr.filter fun w => w.1 != off } }
      (bad → exec (.prangeWrite k r x) s = .next ((done s).event 0 0x05 off (BitVec.ofNat 64 off) y) ∧
        exec (.registerWrite off x) s = .next ((done s).event 0 0x05 off (BitVec.ofNat 64 off) y)) ∧
      (∀ w, ¬ bad → s.emptyExtents es = (w, false) → ∃ t, exec (.prangeWrite k r x) s = .next t ∧ (off, y, es) ∈ t.mgmt.rangeWr ∧
        t = { w with mgmt := { w.mgmt with rangeWr := t.mgmt.rangeWr } }) ∧
      (∀ w, ¬ bad → s.emptyExtents es = (w, true) → ∃ t, exec (.prangeWrite k r x) s = .next t ∧ t.mreg = w.mreg.put off y ∧
        (∀ p ∈ t.mgmt.rangeWr, p.1 ≠ off) ∧
        ∀ n h, w.homes.find n = some h → t.homes.find n =
          some (if w.imageSlot (n % 2 ^ 52) = t.imageSlot (n % 2 ^ 52) then h else { h with dir := 0 }))) ∧
    (∀ k r, k < 16 → r < 5 →
      let off := fmtReg k r
      let y := x &&& (match r with
        | 0 | 1 => 0x1FFFFFFFF80
        | 2 => 3
        | 3 => 0x7FFFFFFF80
        | _ => 0x7FFFFFFFF0)
      let ext := fun (t : State) => ((t.mr (fmtReg k 0)).toNat, (t.mr (fmtReg k 1)).toNat)
      let done := fun (t : State) => { t with mgmt := { t.mgmt with rangeWr := t.mgmt.rangeWr.filter fun w => w.1 != off } }
      (r = 2 → y = 3 → exec (.fmtWrite k r x) s = .next (done s)) ∧
      (∀ w, (r = 2 → y ≠ 3) → s.emptyExtents [ext s, ext (s.setMr off y)] = (w, true) →
        exec (.fmtWrite k r x) s = .next ((done w).setMr off y)) ∧
      (∀ w, (r = 2 → y ≠ 3) → s.emptyExtents [ext s, ext (s.setMr off y)] = (w, false) → ∃ t, exec (.fmtWrite k r x) s = .next t ∧
        (off, y, []) ∈ t.mgmt.rangeWr ∧ t = { w with mgmt := { w.mgmt with rangeWr := t.mgmt.rangeWr } })) ∧
    (∀ st, st < 8 →
      let b := bankpartReg st
      let m := mirmetReg st
      let y := x &&& 1
      let z := x &&& 0xFF0F0F
      let resident := ∃ t ∈ s.teams, s.partOfCore t.2.core = s.partOfDie (st / 2)
      let frames := ∃ g ∈ s.groups, ∃ n, n < 64 ∧ (g.2.arch.vreg n).place = .m ∧ computeStack (g.2.arch.vreg n).dpa = st
      let legal := 10 ≤ x.toNat / 2 ^ 16 % 2 ^ 8 ∧ 1 ≤ x.toNat % 2 ^ 4 ∧ x.toNat % 2 ^ 4 ≤ 8
      (y = s.mr b → sets (.bankpartWrite st x) b y) ∧
      (y ≠ s.mr b → resident ∨ frames → refuses (.bankpartWrite st x) b y) ∧
      (y ≠ s.mr b → ¬ resident → ¬ frames → (∀ g ∈ s.groups, g.2.rob = []) → sets (.bankpartWrite st x) b y) ∧
      (legal → sets (.mirmetCfgWrite st x) m z) ∧ (¬ legal → refuses (.mirmetCfgWrite st x) m z)) ∧
    (∀ d, d < 4 →
      let staged := fun (off : Nat) (y : BitVec 64) (dies : List Nat) =>
        ((∀ e ∈ dies, quiesced e) → sets (.partitionRegisterWrite off x) off y) ∧
        (¬ (∀ e ∈ dies, quiesced e) → refuses (.partitionRegisterWrite off x) off y)
      let q := fqReg d 1
      let old := s.mr q
      let bad := x.toNat % 16 < 4 ∨ 12 < x.toNat % 16
      let ovf := if old.getLsbD 8 = true ∧ x.getLsbD 8 = false then 256 else 0
      let t := s.setMr q (BitVec.ofNat 64 ((if bad then old.toNat % 16 else x.toNat % 16) + ovf))
      staged (partCfgReg d) (x &&& 0xF) [d] ∧ staged (memilReg d) (x &&& 0xFF) [d] ∧
      staged (netbReg d) (x &&& 1) [d, (d + 1) % 4] ∧
      (¬ bad → exec (.fqCfgWrite d x) s = .next t) ∧
      (bad → exec (.fqCfgWrite d x) s = .next (t.event d 0x05 q (BitVec.ofNat 64 q) x))) ∧
    (∀ v, v < 64 →
      let m := viMapReg v
      let p := viPolicyReg v
      let y := x &&& 0x10F
      let z := x &&& 0xFFF
      let noLoads := y.getLsbD 8 = true ∧ (s.mr p).getLsbD 0 = false
      let still := ∀ d, d < 4 → (s.mr m).getLsbD d = true ∨ y.getLsbD d = true → quiesced d
      (¬ noLoads → still → sets (.partitionRegisterWrite m x) m y) ∧
      (noLoads ∨ ¬ still → refuses (.partitionRegisterWrite m x) m y) ∧
      let en := s.viEnabled v = true ∨ (s.mr m).getLsbD 8 = true
      (¬ en ∨ z.getLsbD 0 = true → sets (.viPolicyWrite v x) p z) ∧
      (en → z.getLsbD 0 = false → refuses (.viPolicyWrite v x) p z) ∧
      sets (.registerWrite (xltReg v 1) x) (xltReg v 1) (x &&& 0xFFFFF)) ∧
    (let y := x &&& 0xFFFFFFFF
     (y ≠ 0 → sets (.partQtimeoutWrite x) qtimeoutReg y) ∧ (y = 0 → refuses (.partQtimeoutWrite x) qtimeoutReg 0)) ∧
    (∀ off, off % 8 ≠ 0 ∨ (0x180000 ≤ off ∧ off < 0x200000) → exec (.registerWrite off x) s = .next s) ∧
    (∀ off, off % 8 = 0 → 0x1000000 ≤ off → off < 0x9000000 →
      exec (.registerWrite off x) s = .next { s with mem := Memory.setBytes s.mem (mgmtCell off) (bytesOfNat 8 x.toNat) })

/-- Changing partitions (R438 to R442) and start-up (R435, R457). -/
def Obligations.PartitionChanges : Prop :=
  ∀ (s : State) (dies : BitVec 4),
    let word := fun (op : Nat) => BitVec.ofNat 64 (op * 2 ^ 8 + dies.toNat)
    let put := fun (op : Nat) => s.setMr partCmdReg (word op)
    let refused := fun (op : Nat) => s.event 0 0x05 partCmdReg (BitVec.ofNat 64 partCmdReg) (word op)
    let result := fun (op : Nat) (code : BitVec 64) => { put op with mgmt := { s.mgmt with stat := code } }
    let running := s.mgmt.quiesce ≠ none
    let whole := dies ≠ 0 ∧ ∀ d e, d < 4 → e < 4 → dies.getLsbD d = true → (s.mgmt.part.getD d 0).getLsbD e = true → dies.getLsbD e = true
    (running ∨ s.mgmt.qdies ≠ 0 → exec (.quiesce dies) s = .next (refused 1)) ∧
    (¬ running → s.mgmt.qdies = 0 → ¬ whole → exec (.quiesce dies) s = .next (result 1 0x20000)) ∧
    (¬ running → s.mgmt.qdies = 0 → whole → exec (.quiesce dies) s = .next { put 1 with mgmt := { s.mgmt with stat := 0, quiesce := some ⟨dies, s.ns + 1000 * (s.mr qtimeoutReg).toNat⟩ } }) ∧
    (∀ op i, (op, i) ∈ [(2, Instr.release dies), (3, Instr.abort dies)] →
      (running → exec i s = .next (refused op)) ∧
      (¬ running → s.mgmt.qdies = 0 → exec i s = .next (result op 0x40000)) ∧
      (¬ running → s.mgmt.qdies ≠ 0 → dies ≠ s.mgmt.qdies → exec i s = .next (result op 0x20000))) ∧
    (¬ running → s.mgmt.qdies ≠ 0 → dies = s.mgmt.qdies →
      let lifted := fun (t : State) => t.mgmt.quiesce = none ∧ t.mgmt.qdies = 0 ∧ t.mgmt.stat = 0
      (s.consistent = false → exec (.release dies) s = .next (result 2 0x50000)) ∧
      (s.consistent = true → ∃ t, exec (.release dies) s = .next t ∧ lifted t ∧
        (∀ d, d < 4 → t.mgmt.part.getD d 0 = (s.mr (partCfgReg d)).setWidth 4 ∧ t.mgmt.memil.getD d 0 = (s.mr (memilReg d)).setWidth 8 ∧
          t.mgmt.netb.getD d false = (s.mr (netbReg d)).getLsbD 0) ∧
        (∀ v, v < 64 → t.mgmt.viMap.get v 0 = (s.mr (viMapReg v)).setWidth 9 &&& 0x10F) ∧
        (∀ j, j < 4 → (t.mr (hwReg j 0)).getLsbD 0 = true → ∃ p, t.windowDies j = some p) ∧
        t.mgmt.meas.take 3 = s.mgmt.meas.take 3 ∧
        (s.mgmt.meas.length = 4 → t.mgmt.meas.getD 3 0 = BitVec.ofNat 512 (natOfBytes (shake256 (bytesOfNat 64 (s.mgmt.meas.getD 3 0).toNat ++
          shake256 t.configBytes)))) ∧
        (∀ v, v < 64 → t.mgmt.viMap.get v 0 ≠ s.mgmt.viMap.get v 0 → (s.mr (bar0 v 0x1020)).getLsbD 0 = true →
          (t.ctx v).adm.getLast? = some ⟨0xFFFF, 0x81, BitVec.ofNat 64 ((t.mgmt.viMap.get v 0).toNat % 16)⟩)) ∧
      (∃ t, exec (.abort dies) s = .next t ∧ lifted t ∧ t.mgmt.part = s.mgmt.part ∧ t.mgmt.memil = s.mgmt.memil ∧ t.mgmt.netb = s.mgmt.netb ∧
        t.mgmt.viMap = s.mgmt.viMap ∧ (∀ d, d < 4 → t.mr (partCfgReg d) = (s.mgmt.part.getD d 0).setWidth 64 ∧
          t.mr (memilReg d) = (s.mgmt.memil.getD d 0).setWidth 64) ∧ ∀ v, v < 64 → t.mr (viMapReg v) = (s.mgmt.viMap.get v 0).setWidth 64)) ∧
    (s.mgmt.quiesce = none → exec .quiesceDone s = .next s ∧ exec .quiesceTimeout s = .next s) ∧
    (∀ q, s.mgmt.quiesce = some q →
      let concerned := fun (v : Nat) => v < 64 ∧ s.viEnabled v = true ∧ s.viDies v &&& q.dies ≠ 0
      let busy := fun (v : Nat) => concerned v ∧ ∃ n, s.busyQueue v = some n
      (∀ v n, s.busyQueue v = some n → (n < 16 ∧ ∃ l ∈ (s.ctx v).launches, l.queue = n ∧ (l.state = .waiting ∨ l.state = .running)) ∨
        (n = 16 ∧ (s.ctx v).busy = true) ∨ (n = 17 ∧ (s.mr (biasStatReg v)).getLsbD 8 = true)) ∧
      ((∃ v, busy v) → exec .quiesceDone s = .next s) ∧
      ((∀ v, ¬ busy v) → ∃ t, exec .quiesceDone s = .next t ∧ (t.mgmt.quiesce = none →
        t.mgmt.qdies = q.dies ∧ t.mgmt.stat = 0 ∧ ∀ c, c < 72 → q.dies.getLsbD (c / 18) = true → (t.cluster c).lines = [])) ∧
      (s.ns < q.deadline ∨ (∀ v, ¬ busy v) → exec .quiesceTimeout s = .next s) ∧
      (∀ v n, q.deadline ≤ s.ns → busy v → (∀ w, w < v → ¬ busy w) → s.busyQueue v = some n →
        ∃ t, exec .quiesceTimeout s = .next t ∧ t.mgmt.quiesce = none ∧ t.mgmt.qdies = 0 ∧
          t.mgmt.stat = BitVec.ofNat 64 (2 ^ 16 + v * 2 ^ 24 + n * 2 ^ 32))) ∧
    (let stops := fun (code : BitVec 8) => exec .moduleReset s = .next { s.powerOn with mgmt := { State.reset.mgmt with fail := code } }
     (s.flash.readable = false → stops 2) ∧
     (s.flash.readable = true → s.flash.signed = false → stops 1) ∧
     (s.flash.readable = true → s.flash.signed = true → ∃ t, exec .moduleReset s = .next t ∧
       (s.flash.trains = false → t.mgmt.fail = 3 ∧ t.mgmt.ready = false ∧
         t.mgmt.meas.getD 0 0 = BitVec.ofNat 512 (natOfBytes (shake256 (bytesOfNat 64 0 ++ shake256 s.flash.firmware)))) ∧
       (s.flash.trains = true → s.flash.config = [] → s.flash.images = [] → t.mgmt.fail = 0 ∧ t.mgmt.ready = true ∧ t.flash = s.flash)))

/-- The admin queue (R447 to R450), halts (R452), accounting (R453 to R456) and attestation (R458). The codes of answers, the layout of
SPDM messages, what counts as one activity, and the values of sensors and signatures are this model's (log 13, 14, 15, 53). -/
def Obligations.AdminActs : Prop :=
  ∀ (s : State) (v : Nat),
    let adm := fun (o : Nat) => bar0 v (0x1000 + o)
    let sq := fun (u : State) => (u.mr (adm 0x18)).toNat % 2 ^ ((u.mr (adm 8)).toNat % 16)
    let ready := fun (u : State) => u.consuming v = true ∧ (u.mr (adm 0)).getLsbD 0 = true ∧ u.mr (adm 0x18) ≠ u.mr (adm 0x10) ∧ (u.ctx v).busy = false
    let fetch := fun (u : State) => u.devRead v (BitVec.ofNat 64 ((u.mr (adm 0)).toNat / 2 ^ 12 % 2 ^ 45 * 4096 + 64 * sq u)) 64
    let ends := fun (i : Instr) (t : State) (cid : BitVec 16) (st : BitVec 8) (res : DWord) => ∃ w, exec i s = .next w ∧
      w.mr (adm 0x18) = BitVec.ofNat 64 (((t.mr (adm 0x18)).toNat + 1) % 0x10000) ∧ (w.ctx v).busy = true ∧
      (w.ctx v).adm = (t.ctx v).adm ++ [⟨cid, st, res⟩] ∧ w.mem = t.mem ∧ w.groups = t.groups ∧ w.images = t.images
    (∀ x : BitVec 64,
      let bell := Instr.admSqTailWrite v x
      let cfg := Instr.admCfgWrite v x
      let u := s.setMr (adm 0x10) (x &&& 0xFFFF)
      let legal := 2 ≤ x.toNat % 16 ∧ x.toNat % 16 ≤ 8 ∧ 2 ≤ x.toNat / 16 % 16 ∧ x.toNat / 16 % 16 ≤ 8
      (64 ≤ v → exec bell s = .next s ∧ exec cfg s = .next s) ∧
      (s.viEnabled v = false → exec bell s = .next s ∧ exec cfg s = .next s) ∧
      (v < 64 → s.viEnabled v = true →
        (legal → exec cfg s = .next (s.setMr (adm 8) (x &&& 0xFF))) ∧
        (¬ legal → exec cfg s = .next (s.event (s.viPart v) 0x05 (adm 8) (BitVec.ofNat 64 (adm 8)) x)) ∧
        (¬ ready u → exec bell s = .next u) ∧
        (∀ t, ready u →
          (∀ p l, fetch u = (t, .error (.later p l)) → exec bell s = .next t) ∧
          (∀ c, fetch u = (t, .error (.fail c)) → ends bell t 0xFFFE 2 (BitVec.ofNat 64 (sq u))) ∧
          (∀ bs, fetch u = (t, .ok bs) →
            ((Command.ofBytes bs).opc = 0 → ends bell t (Command.ofBytes bs).cid 1 0) ∧
            ((Command.ofBytes bs).opc ≠ 0 → exec bell s = .next u))))) ∧
    (∀ n i, (n, i) ∈ [(1, Instr.resync v), (2, .imageLoad v), (3, .acct v), (4, .ctxReset v)] →
      (¬ ready s → exec i s = .next s) ∧
      (ready s → ∀ t bs, fetch s = (t, .ok bs) → (Command.ofBytes bs).opc ≠ n → exec i s = .next s)) ∧
    (∀ t bs, ready s → fetch s = (t, .ok bs) →
      let c := Command.ofBytes bs
      let writes := fun (i : Instr) (out : List Byte) =>
        (∀ w, t.devStore v c.addr out = (w, none) → ends i w c.cid 0 0) ∧
        (∀ w e, t.devStore v c.addr out = (w, some (.fail e)) → ends i w c.cid 2 0) ∧
        (∀ w p l, t.devStore v c.addr out = (w, some (.later p l)) → exec i s = .next w)
      (c.opc = 1 → writes (.resync v) (t.summary v)) ∧
      (c.opc = 3 → writes (.acct v) (t.acctBytes v ++ List.replicate 48 0)) ∧
      (c.opc = 2 →
        (c.arg ≠ 6 → c.arg ≠ 7 → ends (.imageLoad v) t c.cid 1 0) ∧
        ((c.arg = 6 ∨ c.arg = 7) → (t.caps v).getLsbD 11 = false → ends (.imageLoad v) t c.cid 3 0) ∧
        ((c.arg = 6 ∨ c.arg = 7) → (t.caps v).getLsbD 11 = true →
          (∀ w e, t.devRead v c.addr 1088 = (w, .error (.fail e)) → ends (.imageLoad v) w c.cid 2 0) ∧
          (∀ w img, t.devRead v c.addr 1088 = (w, .ok img) →
            let code := w.checkImage c.arg.toNat img
            (code ≠ 0 → ends (.imageLoad v) w c.cid (BitVec.ofNat 8 (0x10 + code)) 0) ∧
            (code = 0 → ∃ u, u.images = w.images.set c.arg.toNat (some (Image.ofBytes img)) ∧ u.mreg = w.mreg ∧ u.ctxs = w.ctxs ∧
              u.mem = w.mem ∧ u.mgmt.meas.take 2 = w.mgmt.meas.take 2 ∧ ends (.imageLoad v) u c.cid 0 0)))) ∧
      (c.opc = 4 → ∃ w, exec (.ctxReset v) s = .next w ∧ (∀ x ∈ w.teams, x.2.vi ≠ v) ∧ (w.ctx v).events = 0 ∧
        (∀ l ∈ (w.ctx v).launches, l.state = .complete ∨ l.state = .failed) ∧
        (∀ q, q < 16 → (w.mr (lnqReg v q 0)).getLsbD 0 = false) ∧ (w.ctx v).adm.getLast? = some ⟨c.cid, 0, 0⟩)) ∧
    (let x := s.summary v
     x.length = 512 ∧ fieldOf x 0x000 4 = 1 ∧ fieldOf x 0x060 32 = (s.ctx v).events.toNat ∧ fieldOf x 0x190 8 = s.ns % 2 ^ 64) ∧
    (let i := Instr.adminCompletionWrite v
     let tail := (s.mr (adm 0x30)).toNat
     let used := (tail + 0x10000 - (s.mr (adm 0x28)).toNat % 0x10000) % 0x10000
     let room := (s.mr (adm 0x20)).getLsbD 0 = true ∧ used < 2 ^ ((s.mr (adm 8)).toNat / 16 % 16)
     ((s.ctx v).adm = [] → exec i s = .next s) ∧
     (s.viEnabled v = false ∨ ¬ room → exec i s = .next s) ∧
     (∀ e rest, (s.ctx v).adm = e :: rest → s.viEnabled v = true → room →
       let at0 := (s.mr (adm 0x20)).toNat / 2 ^ 12 % 2 ^ 45 * 4096 + 16 * (tail % 2 ^ ((s.mr (adm 8)).toNat / 16 % 16))
       let put := s.devStore v (BitVec.ofNat 64 at0) (bytesOfNat 2 e.cid.toNat ++ [e.status] ++ List.replicate 5 0 ++ bytesOfNat 8 e.result.toNat)
       (∀ t p l, put = (t, some (.later p l)) → exec i s = .next t) ∧
       (∀ t c, put = (t, some (.fail c)) → ∃ w, exec i s = .next w ∧ (w.ctx v).adm = rest ∧ w.mr (adm 0x30) = t.mr (adm 0x30) ∧
         (w.mr (adm 0)).getLsbD 0 = false ∧ (w.mr (adm 0x20)).getLsbD 0 = false ∧
         (w.mgmt.evWait.get (t.viPart v) []).getLast? =
           some (eventRecord 0x06 (t.viPart v) 16 (BitVec.ofNat 64 (adm 0)) (BitVec.ofNat 64 v) t.ns)) ∧
       (∀ t, put = (t, none) → ∃ w, exec i s = .next w ∧ (w.ctx v).adm = rest ∧ w.mr (adm 0x30) = BitVec.ofNat 64 ((tail + 1) % 0x10000) ∧
         w.mem = t.mem ∧ (w.ctx v).busy = ((t.ctx v).busy && e.cid == 0xFFFF) ∧
         ((t.msixByte v 12).getLsbD 0 = true → (w.out.msix.get v 0).getLsbD 0 = true) ∧
         ((t.msixByte v 12).getLsbD 0 = false → ∃ bs, w.out.answer = some ⟨5, v * 32, false, bs⟩)))) ∧
    (∀ d (b : BitVec 8), d < 4 →
      let i := Instr.haltWrite d b
      (s.mgmt.halts.find d = none ∨ b ≠ 0 ∨ s.mgmt.halted.getLsbD d = false → exec i s = .next s) ∧
      (∀ r n, s.mgmt.halts.find d = some (r, n) → b = 0 → s.mgmt.halted.getLsbD d = true → ∃ t, exec i s = .next t ∧
        t.mgmt.halted.getLsbD d = false ∧ (∀ g, s.group (144 + d) n = some g → ∃ h, t.group (144 + d) n = some h ∧
          h.ended = true ∧ h.stopped = false ∧ h.rob = []))) ∧
    (let i := Instr.accountingUpdate v
     let a := s.acct.get v Acct.zero
     (s.viEnabled v = false → exec i s = .next s) ∧
     (s.viEnabled v = true → ∃ t, exec i s = .next t ∧ t.groups = s.groups ∧ t.mem = s.mem ∧
       (let shown := fun (k : Nat) => (t.acct.get v Acct.zero).shown.getD k 0
        let part := fun (k n : Nat) => n * Config.coefficient k
        let run := fun (k : Nat) => a.run.getD k 0
        (∀ k, k < 4 → shown k = BitVec.ofNat 64 (a.run.getD k 0 / 2)) ∧
        (∀ k, 4 ≤ k → k < 8 → shown k = BitVec.ofNat 64 (a.run.getD k 0)) ∧
        shown 8 = BitVec.ofNat 64 ((part 0 (run 8) + part 1 (run 9) + part 2 (run 10) + part 3 (run 11) + part 4 (run 12) + part 5 (run 13) +
          part 6 (run 14) + part 7 (run 4 + run 5) + part 8 (run 0 / 2)) / 100 / 1000000) ∧ shown 9 = BitVec.ofNat 64 s.ns) ∧
       ∀ w, w ≠ v → t.acct.get w Acct.zero = s.acct.get w Acct.zero)) ∧
    (let answers := fun (i : Instr) (kind about : Nat) (bs : List Byte) => ∃ t, exec i s = .next t ∧ t.out.answer = some ⟨kind, about, false, bs⟩ ∧
       t.mem = s.mem ∧ t.groups = s.groups ∧ t.mgmt = s.mgmt ∧ t.mreg = s.mreg
     (v < 64 → answers (.acctRead v) 6 v (0 :: BitVec.ofNat 8 v :: s.acctBytes v)) ∧
     (∃ bs, bs.length = 4 ∧ answers (.pldmSensorRead v) 7 v (0 :: bs)) ∧
     (∀ code : BitVec 8,
       let signed := code = 0xE0 ∨ code = 0x83 ∨ code = 0xE4
       let inside := code = 0xFE ∨ code = 0xE5 ∨ code = 0xEC
       let refused := (signed ∧ s.mgmt.ready = false) ∨ (inside ∧ s.out.session = false)
       (refused → answers (.spdmRequest code) 8 code.toNat [0x7F]) ∧
       (¬ refused → ∃ body bs, answers (.spdmRequest code) 8 code.toNat ((code &&& 0x7F) :: body ++ bs) ∧
         (signed → bs.length = 114) ∧ (code = 0x84 → body = [2, 0x00, 0x12, 0x00, 0x13]) ∧
         (code = 0xE0 → ∀ i, i < 4 → ∃ type : Byte, type.toNat / 128 = 1 ∧ ((body.drop (1 + 71 * i)).take 71 =
           [BitVec.ofNat 8 (i + 1), 1, 67, 0, type, 64, 0] ++ bytesOfNat 64 (s.mgmt.meas.getD i 0).toNat))) ∧
       (∀ t, exec (.spdmRequest code) s = .next t →
         (¬ refused → code = 0xE4 → t.out.session = true) ∧ (code = 0xEC → t.out.session = false) ∧
         (code ≠ 0xE4 → code ≠ 0xEC → t.out.session = s.out.session) ∧
         (¬ refused → code = 0xFE → ∀ port, port < 2 → t.out.ide.find port ≠ none))))
end

