-- ==== Sys2Proof/Laws/Step.lean ====
section
/-!
SUPPORT. What a step adds around an instruction or an event: the charging of what it costs, and the second instructions of chain
groups that wait.
-/
namespace Sys2Proof.Machine

/-! ### Charging -/

/-- Counting touches the accounts alone. -/
theorem State.count_only (s : State) (vi i n : Nat) : s.count vi i n = { s with acct := (s.count vi i n).acct } := by
  unfold State.count
  split <;> rfl

theorem State.charge_only (s : State) (w : Work) : s.charge w = { s with acct := (s.charge w).acct } := by
  have h : ∀ (w : Work) (t : State), t = { s with acct := t.acct } →
      State.charge t w = { s with acct := (State.charge t w).acct } := by
    intro w
    induction w with
    | nil => exact fun _ h => h
    | cons x r ih =>
      intro t ht
      refine ih _ ?_
      dsimp only
      split
      · exact ht
      · rw [State.count_only, ht]
  exact h w s rfl

/-- What a charged instruction or event answers is what it answers uncharged, but for the accounts. -/
theorem charged_cases {i : Instr} {s t : State} (h : charged i s = .next t) :
    ∃ u, exec i s = .next u ∧ t = { u with acct := t.acct } := by
  unfold charged at h
  split at h
  next u hu => cases h; exact ⟨u, hu, State.charge_only u _⟩
  next o hn => exact absurd h (hn t)

theorem charged_runs {i : Instr} {s u : State} (h : exec i s = .next u) : charged i s = .next (u.charge (s.work u i)) := by
  unfold charged
  rw [h]

/-! ### Second instructions that wait -/

/-- Only the group of the stream changes. -/
theorem State.putLate_only (s : State) (core grp : Nat) (l : Late) :
    s.putLate core grp l = { s with groups := (s.putLate core grp l).groups } := by
  unfold State.putLate
  split <;> rfl

theorem State.dropLate_only (s : State) (core grp ent : Nat) :
    s.dropLate core grp ent = { s with groups := (s.dropLate core grp ent).groups } := by
  unfold State.dropLate
  split
  · split <;> rfl
  · rfl

end Sys2Proof.Machine
end

