-- ==== Sys2Proof/Tests/Slice0.lean ====
section
/-!
SUPPORT. Tests: ill-formed terms that the checks refuse, words written out from the encoding tables and the instructions they
decode to, and states and operands that meet the hypotheses of the statements, at the ends of their ranges.
-/
namespace Sys2Proof.Tests
open Sys2Proof Sys2Proof.Machine Sys2Proof.Safety

-- one theorem at a time: their kernel evaluations are large
set_option Elab.async false

/-! ### Well-formedness: one refused term for each check, beside one that passes -/

/-- A head word of major `op` and selector `f`, with these fields. -/
def headOf (op : BitVec 6) (f : BitVec 4) (g : BitVec 3) (d a b : BitVec 6) (e : Ext) : Head := ⟨op, g, d, a, b, f, e⟩

/-- No modifiers: the EXT.MOD word of zeros. -/
def plain : ModX := ⟨false, false, 0, false, 0, 0, 0, 0⟩

/-- 03 R75: major 0x0E has no F 9, and no form is in major 0x3E. -/
theorem test_wf_form : (headOf 0x0E 8 0 1 1 1 .none).ok = true ∧ (headOf 0x0E 9 0 1 1 1 .none).ok = false ∧
    (headOf 0x3E 0 0 0 0 0 .none).ok = false := by decide

/-- 03 Table 03-3: SALU takes EXT.IMM and no EXT.MEM; LDI must carry its EXT.IMM and LDX its EXT.MEM. -/
theorem test_wf_extension : (headOf 0x08 0 0 1 1 0 (.imm 5)).ok = true ∧
    (headOf 0x08 0 0 1 1 0 (.mem ⟨0, 0, 0, 0⟩)).ok = false ∧ (headOf 0x0B 1 0 1 0 0 .none).ok = false ∧
    (headOf 0x0B 1 0 1 0 0 (.mod plain)).ok = false ∧ (headOf 0x24 0 0 1 0 1 .none).ok = false ∧
    (headOf 0x24 0 0 1 0 1 (.mem ⟨0, 0, 0, 0⟩)).ok = true := by decide

/-- 03 R67: two guard indexes, a negated constant guard, a guard on LAND, and BRM without a selector are refused. -/
theorem test_wf_guard : (headOf 0x0C 0 0 1 1 1 (.mod { plain with gx := 9, gn := true })).ok = true ∧
    (headOf 0x0C 0 1 1 1 1 (.mod { plain with gx := 9 })).ok = false ∧
    (headOf 0x0C 0 0 1 1 1 (.mod { plain with gn := true })).ok = false ∧ (headOf 0x00 1 1 0 0 0 .none).ok = false ∧
    (headOf 0x02 0 0 0 0 0 .none).ok = false ∧ (headOf 0x02 0 1 0 0 0 .none).ok = true := by decide

/-- 03 R68: TB on a scalar source, and TA on a form whose A names no vector register, are refused. -/
theorem test_wf_marks : (headOf 0x0C 0 0 1 1 1 (.mod { plain with ta := true, tb := true })).ok = true ∧
    (headOf 0x14 0 0 1 1 1 (.mod { plain with tb := true })).ok = false ∧
    (headOf 0x20 4 0 1 0 1 (.mod { plain with ta := true })).ok = false := by decide

/-- 03 R69: pattern 6 is reserved, pattern 4 takes 1 to 5, pattern 0 takes 0, and JMPV's source has no permutation. -/
theorem test_wf_permutation : (headOf 0x0C 0 0 1 1 1 (.mod { plain with pa := 4, pax := 5 })).ok = true ∧
    (headOf 0x0C 0 0 1 1 1 (.mod { plain with pa := 4, pax := 6 })).ok = false ∧
    (headOf 0x0C 0 0 1 1 1 (.mod { plain with pa := 6 })).ok = false ∧
    (headOf 0x0C 0 0 1 1 1 (.mod { plain with pax := 1 })).ok = false ∧
    (headOf 0x04 1 0 0 1 0 (.mod { plain with pa := 1 })).ok = false := by decide

/-- 03 R60, R64, R70: an unused field, a B beside its EXT.IMM, and coupling or barrier 16 are refused. -/
theorem test_wf_fields : (headOf 0x0B 0 0 1 1 1 .none).ok = false ∧ (headOf 0x08 0 0 1 1 1 (.imm 5)).ok = false ∧
    (headOf 0x34 0 0 16 1 0 .none).ok = false ∧ (headOf 0x34 0 0 15 1 0 .none).ok = true ∧
    (headOf 0x37 1 0 16 0 0 .none).ok = false ∧ (headOf 0x35 0 0 1 16 0 .none).ok = false := by decide

/-- 03 R65, 07 Table 07-6, R193: scope 7, an acquire on STX, an offset on FENCE and a scope on LD are refused. -/
theorem test_wf_memory : (headOf 0x24 0 0 1 0 1 (.mem ⟨7, 0, 0, 0⟩)).ok = false ∧
    (headOf 0x25 0 0 1 0 1 (.mem ⟨2, 1, 0, 0⟩)).ok = false ∧ (headOf 0x25 0 0 1 0 1 (.mem ⟨2, 2, 0, 0⟩)).ok = true ∧
    (headOf 0x29 0 0 0 0 0 (.mem ⟨3, 1, 0, 4⟩)).ok = false ∧ (headOf 0x29 0 0 0 0 0 (.mem ⟨3, 0, 0, 0⟩)).ok = false ∧
    (headOf 0x20 4 0 1 0 1 (.mem ⟨2, 0, 0, 0⟩)).ok = false ∧ (headOf 0x3D 2 0 0 1 1 (.mem ⟨3, 0, 0, 0⟩)).ok = false := by decide

/-- The limits of single entries: MMA's D and A, SPILL's span, a pair at 63, WFLD, MMSP's SEL, CVT's rounding, MAP0's w. -/
theorem test_wf_limits : (headOf 0x2E 0 0 8 56 1 .none).ok = true ∧ (headOf 0x2E 0 0 4 56 1 .none).ok = false ∧
    (headOf 0x2E 0 0 8 57 1 .none).ok = false ∧ (headOf 0x2B 0 0 48 16 1 .none).ok = true ∧
    (headOf 0x2B 0 0 49 16 1 .none).ok = false ∧ (headOf 0x20 5 0 63 0 1 .none).ok = false ∧
    (headOf 0x0B 3 0 1 0 6 .none).ok = false ∧ (headOf 0x2F 0 0 8 8 1 (.cx 1 3)).ok = false ∧
    (headOf 0x1D 0 0 1 1 6 .none).ok = false ∧ (headOf 0x05 2 0 47 1 0 .none).ok = false ∧
    (headOf 0x05 2 0 48 47 0 .none).ok = true := by decide

/-- The same checks refuse the instruction terms, and events have no word. -/
theorem test_wf_instructions : (Instr.qpush ⟨0, .none⟩ 16 1).wf = false ∧ (Instr.qpush ⟨0, .none⟩ 15 1).wf = true ∧
    (Instr.mmaI8 ⟨0, .none⟩ 4 8 1).wf = false ∧ (Instr.sadd ⟨0, .imm 5⟩ 1 1 1).wf = false ∧
    (Instr.brm ⟨0, .none⟩ 0).wf = false ∧ (Instr.moduleReset).view = none := by
  and_intros <;> rfl

/-! ### Decoding: words written out from the encoding tables of chapter 03 -/

/-- A word that is no instruction: major 0x3E as a head, F 9 of major 0, a head whose mandatory extension is absent, one that
carries the wrong kind. -/
theorem test_decode_refuses : (∃ e, decode [0x7C000000] = .error e) ∧ (∃ e, decode [0x00000009] = .error e) ∧
    (∃ e, decode [0x16080001] = .error e) ∧ (∃ e, decode [0x96080001, 0x74000000] = .error e) ∧
    (∃ e, decode [] = .error e) := by
  and_intros <;> exact ⟨_, rfl⟩

/-- Optional extensions (Table 03-2): EXT.MOD TA, PA 2, PAX 3, GX 9, GN on IADD; EXT.IMM −1 on SADD; EXT.MEM HINT 1, OFS −4
on LD.B32. -/
theorem test_decode_extensions :
    decode [0x980814D0, 0x7D134300] =
      .ok (.iadd ⟨0, .mod ⟨true, false, 9, true, 2, 3, 0, 0⟩⟩ 8 5 13, []) ∧
    decode [0x90081400, 0x7FFFFFFF] = .ok (.sadd ⟨0, .imm 0x1FFFFFF⟩ 8 5 0, []) ∧
    decode [0xC0081414, 0x7407FFFC] = .ok (.ldB32 ⟨0, .mem ⟨0, 0, 1, 0x3FFFC⟩⟩ 8 5 1, []) := by
  and_intros <;> rfl

/-- Major 0x00: every form. -/
theorem test_decode_major_00 :
    decode [0x00C00000] = .ok (.nop ⟨3, .none⟩, []) ∧
    decode [0x00000001] = .ok (.land ⟨0, .none⟩, []) ∧
    decode [0x00C00002] = .ok (.yield ⟨3, .none⟩, []) ∧
    decode [0x00C00003] = .ok (.exit ⟨3, .none⟩, []) ∧
    decode [0x00C00094] = .ok (.brk ⟨3, .none⟩ 9, []) ∧
    decode [0x00C00095] = .ok (.trap ⟨3, .none⟩ 9, []) ∧
    decode [0x00C80006] = .ok (.waitf ⟨3, .none⟩ 8, []) ∧
    decode [0x00C000F7] = .ok (.prog ⟨3, .none⟩ 15, []) ∧
    decode [0x00C00008] = .ok (.dphinc ⟨3, .none⟩, []) := by
  and_intros <;> rfl

/-- Major 0x01: every form. -/
theorem test_decode_major_01 :
    decode [0x02FFFFFE] = .ok (.br ⟨3, .none⟩ 4194302, []) := by
  rfl

/-- Major 0x02: every form. -/
theorem test_decode_major_02 :
    decode [0x04FFFFFE] = .ok (.brm ⟨3, .none⟩ 4194302, []) := by
  rfl

/-- Major 0x03: every form. -/
theorem test_decode_major_03 :
    decode [0x06FFFFFE] = .ok (.call ⟨3, .none⟩ 4194302, []) := by
  rfl

/-- Major 0x04: every form. -/
theorem test_decode_major_04 :
    decode [0x08C05000] = .ok (.jmps ⟨3, .none⟩ 20, []) ∧
    decode [0x08C05001] = .ok (.jmpv ⟨3, .none⟩ 20, []) ∧
    decode [0x08C05002] = .ok (.calls ⟨3, .none⟩ 20, []) ∧
    decode [0x08C00003] = .ok (.ret ⟨3, .none⟩, []) := by
  and_intros <;> rfl

/-- Major 0x05: every form. -/
theorem test_decode_major_05 :
    decode [0x0A000000] = .ok (.join, []) ∧
    decode [0x0A000001] = .ok (.joinm, []) ∧
    decode [0x0A358402] = .ok (.map0 5 33, []) ∧
    decode [0x0A358403] = .ok (.map1 5 33, []) ∧
    decode [0x0A080004] = .ok (.side 8, []) ∧
    decode [0x8A000005, 0x7FFFFFFE] = .ok (.split 0x1FFFFFE, []) := by
  and_intros <;> rfl

/-- Major 0x06: every form. -/
theorem test_decode_major_06 :
    decode [0x0C080000] = .ok (.emrd ⟨0, .none⟩ 8, []) ∧
    decode [0x0C005001] = .ok (.emwr ⟨0, .none⟩ 20, []) ∧
    decode [0x0CC80002] = .ok (.laneid ⟨3, .none⟩ 8, []) ∧
    decode [0x0C080003] = .ok (.emp ⟨0, .none⟩ 8, []) ∧
    decode [0x0C080004] = .ok (.pathid 8, []) := by
  and_intros <;> rfl

/-- Major 0x08: every form. -/
theorem test_decode_major_08 :
    decode [0x10C85090] = .ok (.sadd ⟨3, .none⟩ 8 20 9, []) ∧
    decode [0x10C85091] = .ok (.ssub ⟨3, .none⟩ 8 20 9, []) ∧
    decode [0x10C85092] = .ok (.smul ⟨3, .none⟩ 8 20 9, []) ∧
    decode [0x10C85093] = .ok (.smulhi ⟨3, .none⟩ 8 20 9, []) ∧
    decode [0x10C85094] = .ok (.smulhu ⟨3, .none⟩ 8 20 9, []) ∧
    decode [0x10C85095] = .ok (.sand ⟨3, .none⟩ 8 20 9, []) ∧
    decode [0x10C85096] = .ok (.sor ⟨3, .none⟩ 8 20 9, []) ∧
    decode [0x10C85097] = .ok (.sxor ⟨3, .none⟩ 8 20 9, []) ∧
    decode [0x10C85098] = .ok (.sandn ⟨3, .none⟩ 8 20 9, []) ∧
    decode [0x10C85099] = .ok (.sshl ⟨3, .none⟩ 8 20 9, []) ∧
    decode [0x10C8509A] = .ok (.sshr ⟨3, .none⟩ 8 20 9, []) ∧
    decode [0x10C8509B] = .ok (.ssar ⟨3, .none⟩ 8 20 9, []) ∧
    decode [0x10C8509C] = .ok (.smin ⟨3, .none⟩ 8 20 9, []) ∧
    decode [0x10C8509D] = .ok (.smax ⟨3, .none⟩ 8 20 9, []) ∧
    decode [0x10C8509E] = .ok (.sminu ⟨3, .none⟩ 8 20 9, []) ∧
    decode [0x10C8509F] = .ok (.smaxu ⟨3, .none⟩ 8 20 9, []) := by
  and_intros <;> rfl

/-- Major 0x09: every form. -/
theorem test_decode_major_09 :
    decode [0x12C853E0] = .ok (.saddImm6 ⟨3, .none⟩ 8 20 62, []) ∧
    decode [0x12C853E1] = .ok (.ssubImm6 ⟨3, .none⟩ 8 20 62, []) ∧
    decode [0x12C853E2] = .ok (.smulImm6 ⟨3, .none⟩ 8 20 62, []) ∧
    decode [0x12C853E3] = .ok (.smulhiImm6 ⟨3, .none⟩ 8 20 62, []) ∧
    decode [0x12C853E4] = .ok (.smulhuImm6 ⟨3, .none⟩ 8 20 62, []) ∧
    decode [0x12C853E5] = .ok (.sandImm6 ⟨3, .none⟩ 8 20 62, []) ∧
    decode [0x12C853E6] = .ok (.sorImm6 ⟨3, .none⟩ 8 20 62, []) ∧
    decode [0x12C853E7] = .ok (.sxorImm6 ⟨3, .none⟩ 8 20 62, []) ∧
    decode [0x12C853E8] = .ok (.sandnImm6 ⟨3, .none⟩ 8 20 62, []) ∧
    decode [0x12C853E9] = .ok (.sshlImm6 ⟨3, .none⟩ 8 20 62, []) ∧
    decode [0x12C853EA] = .ok (.sshrImm6 ⟨3, .none⟩ 8 20 62, []) ∧
    decode [0x12C853EB] = .ok (.ssarImm6 ⟨3, .none⟩ 8 20 62, []) ∧
    decode [0x12C853EC] = .ok (.sminImm6 ⟨3, .none⟩ 8 20 62, []) ∧
    decode [0x12C853ED] = .ok (.smaxImm6 ⟨3, .none⟩ 8 20 62, []) ∧
    decode [0x12C853EE] = .ok (.sminuImm6 ⟨3, .none⟩ 8 20 62, []) ∧
    decode [0x12C853EF] = .ok (.smaxuImm6 ⟨3, .none⟩ 8 20 62, []) := by
  and_intros <;> rfl

/-- Major 0x0A: every form. -/
theorem test_decode_major_0A :
    decode [0x14C85090] = .ok (.scmpEq ⟨3, .none⟩ 8 20 9, []) ∧
    decode [0x14C85091] = .ok (.scmpNe ⟨3, .none⟩ 8 20 9, []) ∧
    decode [0x14C85092] = .ok (.scmpLt ⟨3, .none⟩ 8 20 9, []) ∧
    decode [0x14C85093] = .ok (.scmpLe ⟨3, .none⟩ 8 20 9, []) ∧
    decode [0x14C85094] = .ok (.scmpLtu ⟨3, .none⟩ 8 20 9, []) ∧
    decode [0x14C85095] = .ok (.scmpLeu ⟨3, .none⟩ 8 20 9, []) ∧
    decode [0x14C85096] = .ok (.scmpBt ⟨3, .none⟩ 8 20 9, []) := by
  and_intros <;> rfl

/-- Major 0x0B: every form. -/
theorem test_decode_major_0B :
    decode [0x16C85000] = .ok (.smov ⟨3, .none⟩ 8 20, []) ∧
    decode [0x16C80053] = .ok (.wfld ⟨3, .none⟩ 8 5, []) ∧
    decode [0x16C85004] = .ok (.sclz ⟨3, .none⟩ 8 20, []) ∧
    decode [0x16C85005] = .ok (.spopc ⟨3, .none⟩ 8 20, []) ∧
    decode [0x16C85006] = .ok (.sbrev ⟨3, .none⟩ 8 20, []) ∧
    decode [0x16C851F7] = .ok (.vext ⟨3, .none⟩ 8 20 31, []) ∧
    decode [0x16C85008] = .ok (.sext32 ⟨3, .none⟩ 8 20, []) ∧
    decode [0x96880001, 0x7FFFFFFD] = .ok (.ldi 2 8 0x1FFFFFD, []) ∧
    decode [0x96880002, 0x7E000005] = .ok (.ldih 2 8 5, []) := by
  and_intros <;> rfl

/-- Major 0x0C: every form. -/
theorem test_decode_major_0C :
    decode [0x18C85090] = .ok (.iadd ⟨3, .none⟩ 8 20 9, []) ∧
    decode [0x18C85091] = .ok (.isub ⟨3, .none⟩ 8 20 9, []) ∧
    decode [0x18C85092] = .ok (.imul ⟨3, .none⟩ 8 20 9, []) ∧
    decode [0x18C85093] = .ok (.imulhi ⟨3, .none⟩ 8 20 9, []) ∧
    decode [0x18C85094] = .ok (.imulhu ⟨3, .none⟩ 8 20 9, []) ∧
    decode [0x18C85095] = .ok (.and ⟨3, .none⟩ 8 20 9, []) ∧
    decode [0x18C85096] = .ok (.or ⟨3, .none⟩ 8 20 9, []) ∧
    decode [0x18C85097] = .ok (.xor ⟨3, .none⟩ 8 20 9, []) ∧
    decode [0x18C85098] = .ok (.andn ⟨3, .none⟩ 8 20 9, []) ∧
    decode [0x18C85099] = .ok (.shl ⟨3, .none⟩ 8 20 9, []) ∧
    decode [0x18C8509A] = .ok (.shr ⟨3, .none⟩ 8 20 9, []) ∧
    decode [0x18C8509B] = .ok (.sar ⟨3, .none⟩ 8 20 9, []) ∧
    decode [0x18C8509C] = .ok (.imin ⟨3, .none⟩ 8 20 9, []) ∧
    decode [0x18C8509D] = .ok (.imax ⟨3, .none⟩ 8 20 9, []) ∧
    decode [0x18C8509E] = .ok (.iminu ⟨3, .none⟩ 8 20 9, []) ∧
    decode [0x18C8509F] = .ok (.imaxu ⟨3, .none⟩ 8 20 9, []) := by
  and_intros <;> rfl

/-- Major 0x0D: every form. -/
theorem test_decode_major_0D :
    decode [0x1AC853E0] = .ok (.iaddImm6 ⟨3, .none⟩ 8 20 62, []) ∧
    decode [0x1AC853E1] = .ok (.isubImm6 ⟨3, .none⟩ 8 20 62, []) ∧
    decode [0x1AC853E2] = .ok (.imulImm6 ⟨3, .none⟩ 8 20 62, []) ∧
    decode [0x1AC853E3] = .ok (.imulhiImm6 ⟨3, .none⟩ 8 20 62, []) ∧
    decode [0x1AC853E4] = .ok (.imulhuImm6 ⟨3, .none⟩ 8 20 62, []) ∧
    decode [0x1AC853E5] = .ok (.andImm6 ⟨3, .none⟩ 8 20 62, []) ∧
    decode [0x1AC853E6] = .ok (.orImm6 ⟨3, .none⟩ 8 20 62, []) ∧
    decode [0x1AC853E7] = .ok (.xorImm6 ⟨3, .none⟩ 8 20 62, []) ∧
    decode [0x1AC853E8] = .ok (.andnImm6 ⟨3, .none⟩ 8 20 62, []) ∧
    decode [0x1AC853E9] = .ok (.shlImm6 ⟨3, .none⟩ 8 20 62, []) ∧
    decode [0x1AC853EA] = .ok (.shrImm6 ⟨3, .none⟩ 8 20 62, []) ∧
    decode [0x1AC853EB] = .ok (.sarImm6 ⟨3, .none⟩ 8 20 62, []) ∧
    decode [0x1AC853EC] = .ok (.iminImm6 ⟨3, .none⟩ 8 20 62, []) ∧
    decode [0x1AC853ED] = .ok (.imaxImm6 ⟨3, .none⟩ 8 20 62, []) ∧
    decode [0x1AC853EE] = .ok (.iminuImm6 ⟨3, .none⟩ 8 20 62, []) ∧
    decode [0x1AC853EF] = .ok (.imaxuImm6 ⟨3, .none⟩ 8 20 62, []) := by
  and_intros <;> rfl

/-- Major 0x0E: every form. -/
theorem test_decode_major_0E :
    decode [0x1CC85090] = .ok (.imad ⟨3, .none⟩ 8 20 9, []) ∧
    decode [0x1CC85001] = .ok (.vclz ⟨3, .none⟩ 8 20, []) ∧
    decode [0x1CC85002] = .ok (.vpopc ⟨3, .none⟩ 8 20, []) ∧
    decode [0x1CC85003] = .ok (.vbrev ⟨3, .none⟩ 8 20, []) ∧
    decode [0x1CC85094] = .ok (.bfe ⟨3, .none⟩ 8 20 9, []) ∧
    decode [0x1CC85095] = .ok (.bfi ⟨3, .none⟩ 8 20 9, []) ∧
    decode [0x1CC85096] = .ok (.bysel ⟨3, .none⟩ 8 20 9, []) ∧
    decode [0x1CC85097] = .ok (.i8dot4 ⟨3, .none⟩ 8 20 9, []) ∧
    decode [0x1CC85098] = .ok (.n8dot4 ⟨3, .none⟩ 8 20 9, []) := by
  and_intros <;> rfl

/-- Major 0x0F: every form. -/
theorem test_decode_major_0F :
    decode [0x1EC85090] = .ok (.icmpEq ⟨3, .none⟩ 8 20 9, []) ∧
    decode [0x1EC85091] = .ok (.icmpNe ⟨3, .none⟩ 8 20 9, []) ∧
    decode [0x1EC85092] = .ok (.icmpLt ⟨3, .none⟩ 8 20 9, []) ∧
    decode [0x1EC85093] = .ok (.icmpLe ⟨3, .none⟩ 8 20 9, []) ∧
    decode [0x1EC85094] = .ok (.icmpGt ⟨3, .none⟩ 8 20 9, []) ∧
    decode [0x1EC85095] = .ok (.icmpGe ⟨3, .none⟩ 8 20 9, []) ∧
    decode [0x1EC85096] = .ok (.icmpLtu ⟨3, .none⟩ 8 20 9, []) ∧
    decode [0x1EC85097] = .ok (.icmpLeu ⟨3, .none⟩ 8 20 9, []) ∧
    decode [0x1EC85098] = .ok (.icmpGtu ⟨3, .none⟩ 8 20 9, []) ∧
    decode [0x1EC85099] = .ok (.icmpGeu ⟨3, .none⟩ 8 20 9, []) ∧
    decode [0x1EC8509A] = .ok (.icmpBt ⟨3, .none⟩ 8 20 9, []) := by
  and_intros <;> rfl

/-- Major 0x10: every form. -/
theorem test_decode_major_10 :
    decode [0x20C85000] = .ok (.vmov ⟨3, .none⟩ 8 20, []) ∧
    decode [0x20C85091] = .ok (.sel ⟨3, .none⟩ 8 20 9, []) ∧
    decode [0x20C85002] = .ok (.bcst ⟨3, .none⟩ 8 20, []) ∧
    decode [0x20C851F4] = .ok (.vins ⟨3, .none⟩ 8 20 31, []) ∧
    decode [0xA0490003, 0x7E000007] = .ok (.ldiv 1 9 7, []) := by
  and_intros <;> rfl

/-- Major 0x11: every form. -/
theorem test_decode_major_11 :
    decode [0x22C85090] = .ok (.pand ⟨3, .none⟩ 8 20 9, []) ∧
    decode [0x22C85091] = .ok (.por ⟨3, .none⟩ 8 20 9, []) ∧
    decode [0x22C85092] = .ok (.pxor ⟨3, .none⟩ 8 20 9, []) ∧
    decode [0x22C85093] = .ok (.pandn ⟨3, .none⟩ 8 20 9, []) ∧
    decode [0x22C85094] = .ok (.porn ⟨3, .none⟩ 8 20 9, []) ∧
    decode [0x22C85005] = .ok (.pnot ⟨3, .none⟩ 8 20, []) ∧
    decode [0x22C85006] = .ok (.pmov ⟨3, .none⟩ 8 20, []) ∧
    decode [0x22C80007] = .ok (.pset ⟨3, .none⟩ 8, []) ∧
    decode [0x22C80008] = .ok (.pclr ⟨3, .none⟩ 8, []) := by
  and_intros <;> rfl

/-- Major 0x12: every form. -/
theorem test_decode_major_12 :
    decode [0x24C85000] = .ok (.p2s ⟨3, .none⟩ 8 20, []) ∧
    decode [0x24C85001] = .ok (.s2p ⟨3, .none⟩ 8 20, []) ∧
    decode [0x24C85002] = .ok (.ppop ⟨3, .none⟩ 8 20, []) ∧
    decode [0x24C85003] = .ok (.pfirst ⟨3, .none⟩ 8 20, []) := by
  and_intros <;> rfl

/-- Major 0x13: every form. -/
theorem test_decode_major_13 :
    decode [0x26C85090] = .ok (.shfl ⟨3, .none⟩ 8 20 9, []) ∧
    decode [0x26C85091] = .ok (.shfls ⟨3, .none⟩ 8 20 9, []) := by
  and_intros <;> rfl

/-- Major 0x14: every form. -/
theorem test_decode_major_14 :
    decode [0x28C85090] = .ok (.xredAddI32 ⟨3, .none⟩ 8 20 9, []) ∧
    decode [0x28C85091] = .ok (.xredMinI32 ⟨3, .none⟩ 8 20 9, []) ∧
    decode [0x28C85092] = .ok (.xredMaxI32 ⟨3, .none⟩ 8 20 9, []) ∧
    decode [0x28C85093] = .ok (.xredMinu ⟨3, .none⟩ 8 20 9, []) ∧
    decode [0x28C85094] = .ok (.xredMaxu ⟨3, .none⟩ 8 20 9, []) ∧
    decode [0x28C85095] = .ok (.xredAnd ⟨3, .none⟩ 8 20 9, []) ∧
    decode [0x28C85096] = .ok (.xredOr ⟨3, .none⟩ 8 20 9, []) ∧
    decode [0x28C85097] = .ok (.xredXor ⟨3, .none⟩ 8 20 9, []) ∧
    decode [0x28C85098] = .ok (.xredAddF32 ⟨3, .none⟩ 8 20 9, []) ∧
    decode [0x28C85099] = .ok (.xredMinF32 ⟨3, .none⟩ 8 20 9, []) ∧
    decode [0x28C8509A] = .ok (.xredMaxF32 ⟨3, .none⟩ 8 20 9, []) := by
  and_intros <;> rfl

/-- Major 0x15: every form. -/
theorem test_decode_major_15 :
    decode [0x2AC85090] = .ok (.xscanAddI32 ⟨3, .none⟩ 8 20 9, []) ∧
    decode [0x2AC85091] = .ok (.xscanAddF32 ⟨3, .none⟩ 8 20 9, []) ∧
    decode [0x2AC85092] = .ok (.xscanMaxF32 ⟨3, .none⟩ 8 20 9, []) ∧
    decode [0x2AC85093] = .ok (.xscanMinF32 ⟨3, .none⟩ 8 20 9, []) ∧
    decode [0x2AC85094] = .ok (.xscanMaxI32 ⟨3, .none⟩ 8 20 9, []) ∧
    decode [0x2AC85095] = .ok (.xscanOr ⟨3, .none⟩ 8 20 9, []) := by
  and_intros <;> rfl

/-- Major 0x16: every form. -/
theorem test_decode_major_16 :
    decode [0x2CC85090] = .ok (.xvoteAll ⟨3, .none⟩ 8 20 9, []) ∧
    decode [0x2CC85091] = .ok (.xvoteAny ⟨3, .none⟩ 8 20 9, []) ∧
    decode [0x2CC85092] = .ok (.xvoteBallot ⟨3, .none⟩ 8 20 9, []) ∧
    decode [0x2CC85093] = .ok (.xvoteMatch ⟨3, .none⟩ 8 20 9, []) := by
  and_intros <;> rfl

/-- Major 0x18: every form. -/
theorem test_decode_major_18 :
    decode [0x30C85090] = .ok (.fadd ⟨3, .none⟩ 8 20 9, []) ∧
    decode [0x30C85091] = .ok (.fsub ⟨3, .none⟩ 8 20 9, []) ∧
    decode [0x30C85092] = .ok (.fmul ⟨3, .none⟩ 8 20 9, []) ∧
    decode [0x30C85093] = .ok (.fmin ⟨3, .none⟩ 8 20 9, []) ∧
    decode [0x30C85094] = .ok (.fmax ⟨3, .none⟩ 8 20 9, []) ∧
    decode [0x30C85095] = .ok (.fminn ⟨3, .none⟩ 8 20 9, []) ∧
    decode [0x30C85096] = .ok (.fmaxn ⟨3, .none⟩ 8 20 9, []) ∧
    decode [0x30C85007] = .ok (.fabs ⟨3, .none⟩ 8 20, []) ∧
    decode [0x30C85008] = .ok (.fneg ⟨3, .none⟩ 8 20, []) ∧
    decode [0x30C85099] = .ok (.fcps ⟨3, .none⟩ 8 20 9, []) ∧
    decode [0x30C8500A] = .ok (.fflr ⟨3, .none⟩ 8 20, []) ∧
    decode [0x30C8500B] = .ok (.fcel ⟨3, .none⟩ 8 20, []) ∧
    decode [0x30C8500C] = .ok (.ftrc ⟨3, .none⟩ 8 20, []) ∧
    decode [0x30C8500D] = .ok (.frni ⟨3, .none⟩ 8 20, []) := by
  and_intros <;> rfl

/-- Major 0x19: every form. -/
theorem test_decode_major_19 :
    decode [0x32C85090] = .ok (.hadd2 ⟨3, .none⟩ 8 20 9, []) ∧
    decode [0x32C85091] = .ok (.hmul2 ⟨3, .none⟩ 8 20 9, []) ∧
    decode [0x32C85092] = .ok (.hmin2 ⟨3, .none⟩ 8 20 9, []) ∧
    decode [0x32C85093] = .ok (.hmax2 ⟨3, .none⟩ 8 20 9, []) ∧
    decode [0x32C85094] = .ok (.badd2 ⟨3, .none⟩ 8 20 9, []) ∧
    decode [0x32C85095] = .ok (.bmul2 ⟨3, .none⟩ 8 20 9, []) ∧
    decode [0x32C85096] = .ok (.bmin2 ⟨3, .none⟩ 8 20 9, []) ∧
    decode [0x32C85097] = .ok (.bmax2 ⟨3, .none⟩ 8 20 9, []) := by
  and_intros <;> rfl

/-- Major 0x1A: every form. -/
theorem test_decode_major_1A :
    decode [0x34C85090] = .ok (.fma ⟨3, .none⟩ 8 20 9, []) ∧
    decode [0x34C85091] = .ok (.fms ⟨3, .none⟩ 8 20 9, []) ∧
    decode [0x34C85092] = .ok (.fnma ⟨3, .none⟩ 8 20 9, []) ∧
    decode [0x34C85094] = .ok (.hfma2 ⟨3, .none⟩ 8 20 9, []) ∧
    decode [0x34C85095] = .ok (.bfma2 ⟨3, .none⟩ 8 20 9, []) ∧
    decode [0xB4485093, 0x3F600000] = .ok (.fma3 1 8 20 9 44 0, []) := by
  and_intros <;> rfl

/-- Major 0x1B: every form. -/
theorem test_decode_major_1B :
    decode [0x36C85090] = .ok (.fcmpEq ⟨3, .none⟩ 8 20 9, []) ∧
    decode [0x36C85091] = .ok (.fcmpNe ⟨3, .none⟩ 8 20 9, []) ∧
    decode [0x36C85092] = .ok (.fcmpLt ⟨3, .none⟩ 8 20 9, []) ∧
    decode [0x36C85093] = .ok (.fcmpLe ⟨3, .none⟩ 8 20 9, []) ∧
    decode [0x36C85094] = .ok (.fcmpGt ⟨3, .none⟩ 8 20 9, []) ∧
    decode [0x36C85095] = .ok (.fcmpGe ⟨3, .none⟩ 8 20 9, []) ∧
    decode [0x36C85096] = .ok (.fcmpUno ⟨3, .none⟩ 8 20 9, []) ∧
    decode [0x36C85097] = .ok (.fcmpOrd ⟨3, .none⟩ 8 20 9, []) ∧
    decode [0xB6492808, 0x7E0001FF] = .ok (.fcmpClass 1 9 10 0x1FF, []) := by
  and_intros <;> rfl

/-- Major 0x1C: every form. -/
theorem test_decode_major_1C :
    decode [0x38C85000] = .ok (.frcp ⟨3, .none⟩ 8 20, []) ∧
    decode [0x38C85001] = .ok (.frsq ⟨3, .none⟩ 8 20, []) ∧
    decode [0x38C85002] = .ok (.fsqrt ⟨3, .none⟩ 8 20, []) ∧
    decode [0x38C85003] = .ok (.fexp2 ⟨3, .none⟩ 8 20, []) ∧
    decode [0x38C85004] = .ok (.flog2 ⟨3, .none⟩ 8 20, []) ∧
    decode [0x38C85095] = .ok (.fdiv ⟨3, .none⟩ 8 20 9, []) := by
  and_intros <;> rfl

/-- Major 0x1D: every form. -/
theorem test_decode_major_1D :
    decode [0x3AC851C0] = .ok (.cvtF16F32 ⟨3, .none⟩ 8 20 1 1 4, []) ∧
    decode [0x3AC851C1] = .ok (.cvtBf16F32 ⟨3, .none⟩ 8 20 1 1 4, []) ∧
    decode [0x3AC851C2] = .ok (.cvtF8e4F32 ⟨3, .none⟩ 8 20 1 1 4, []) ∧
    decode [0x3AC851C3] = .ok (.cvtF8e5F32 ⟨3, .none⟩ 8 20 1 1 4, []) ∧
    decode [0x3AC85104] = .ok (.cvtF32F16 ⟨3, .none⟩ 8 20 1, []) ∧
    decode [0x3AC85105] = .ok (.cvtF32Bf16 ⟨3, .none⟩ 8 20 1, []) ∧
    decode [0x3AC85106] = .ok (.cvtF32F8e4 ⟨3, .none⟩ 8 20 1, []) ∧
    decode [0x3AC85107] = .ok (.cvtF32F8e5 ⟨3, .none⟩ 8 20 1, []) ∧
    decode [0x3AC850C8] = .ok (.cvtI32F32 ⟨3, .none⟩ 8 20 1 4, []) ∧
    decode [0x3AC850C9] = .ok (.cvtN32F32 ⟨3, .none⟩ 8 20 1 4, []) ∧
    decode [0x3AC8504A] = .ok (.cvtF32I32 ⟨3, .none⟩ 8 20 4, []) ∧
    decode [0x3AC8504B] = .ok (.cvtF32N32 ⟨3, .none⟩ 8 20 4, []) ∧
    decode [0x3AC8501C] = .ok (.cbk ⟨3, .none⟩ 8 20 1, []) := by
  and_intros <;> rfl

/-- Major 0x1E: every form. -/
theorem test_decode_major_1E :
    decode [0x3CC85090] = .ok (.pk2h ⟨3, .none⟩ 8 20 9, []) ∧
    decode [0x3CC85091] = .ok (.pkhi ⟨3, .none⟩ 8 20 9, []) ∧
    decode [0x3CC85092] = .ok (.pkb01 ⟨3, .none⟩ 8 20 9, []) ∧
    decode [0x3CC85093] = .ok (.pkb23 ⟨3, .none⟩ 8 20 9, []) ∧
    decode [0x3CC85004] = .ok (.upklo ⟨3, .none⟩ 8 20, []) ∧
    decode [0x3CC85005] = .ok (.upkhi ⟨3, .none⟩ 8 20, []) := by
  and_intros <;> rfl

/-- Major 0x20: every form. -/
theorem test_decode_major_20 :
    decode [0x40C85210] = .ok (.ldB8z ⟨3, .none⟩ 8 20 33, []) ∧
    decode [0x40C85211] = .ok (.ldB8s ⟨3, .none⟩ 8 20 33, []) ∧
    decode [0x40C85212] = .ok (.ldB16z ⟨3, .none⟩ 8 20 33, []) ∧
    decode [0x40C85213] = .ok (.ldB16s ⟨3, .none⟩ 8 20 33, []) ∧
    decode [0x40C85214] = .ok (.ldB32 ⟨3, .none⟩ 8 20 33, []) ∧
    decode [0x40C85215] = .ok (.ldB64 ⟨3, .none⟩ 8 20 33, []) ∧
    decode [0x40C85216] = .ok (.ldB128 ⟨3, .none⟩ 8 20 33, []) ∧
    decode [0x40C85007] = .ok (.ldW32 ⟨3, .none⟩ 8 20, []) := by
  and_intros <;> rfl

/-- Major 0x21: every form. -/
theorem test_decode_major_21 :
    decode [0x42C85210] = .ok (.stB8 ⟨3, .none⟩ 8 20 33, []) ∧
    decode [0x42C85211] = .ok (.stB16 ⟨3, .none⟩ 8 20 33, []) ∧
    decode [0x42C85212] = .ok (.stB32 ⟨3, .none⟩ 8 20 33, []) ∧
    decode [0x42C85213] = .ok (.stB64 ⟨3, .none⟩ 8 20 33, []) ∧
    decode [0x42C85214] = .ok (.stB128 ⟨3, .none⟩ 8 20 33, []) ∧
    decode [0x42C85005] = .ok (.stW32 ⟨3, .none⟩ 8 20, []) := by
  and_intros <;> rfl

/-- Major 0x22: every form. -/
theorem test_decode_major_22 :
    decode [0x44C80210] = .ok (.lduB32z ⟨3, .none⟩ 8 33, []) ∧
    decode [0x44C80211] = .ok (.lduB32s ⟨3, .none⟩ 8 33, []) ∧
    decode [0x44C80212] = .ok (.lduB64 ⟨3, .none⟩ 8 33, []) := by
  and_intros <;> rfl

/-- Major 0x23: every form. -/
theorem test_decode_major_23 :
    decode [0x46C80210] = .ok (.stuB32 ⟨3, .none⟩ 8 33, []) ∧
    decode [0x46C80211] = .ok (.stuB64 ⟨3, .none⟩ 8 33, []) := by
  and_intros <;> rfl

/-- Major 0x24: every form. -/
theorem test_decode_major_24 :
    decode [0xC910FA10, 0x749FFFF8] = .ok (.ldxB8z 4 16 62 33 ⟨2, 1, 3, 262136⟩, []) ∧
    decode [0xC910FA11, 0x749FFFF8] = .ok (.ldxB8s 4 16 62 33 ⟨2, 1, 3, 262136⟩, []) ∧
    decode [0xC910FA12, 0x749FFFF8] = .ok (.ldxB16z 4 16 62 33 ⟨2, 1, 3, 262136⟩, []) ∧
    decode [0xC910FA13, 0x749FFFF8] = .ok (.ldxB16s 4 16 62 33 ⟨2, 1, 3, 262136⟩, []) ∧
    decode [0xC910FA14, 0x749FFFF8] = .ok (.ldxB32 4 16 62 33 ⟨2, 1, 3, 262136⟩, []) ∧
    decode [0xC910FA15, 0x749FFFF8] = .ok (.ldxB64 4 16 62 33 ⟨2, 1, 3, 262136⟩, []) ∧
    decode [0xC910FA16, 0x749FFFF8] = .ok (.ldxB128 4 16 62 33 ⟨2, 1, 3, 262136⟩, []) := by
  and_intros <;> rfl

/-- Major 0x25: every form. -/
theorem test_decode_major_25 :
    decode [0xCB10FA10, 0x74A00008] = .ok (.stxB8 4 16 62 33 ⟨2, 2, 0, 8⟩, []) ∧
    decode [0xCB10FA11, 0x74A00008] = .ok (.stxB16 4 16 62 33 ⟨2, 2, 0, 8⟩, []) ∧
    decode [0xCB10FA12, 0x74A00008] = .ok (.stxB32 4 16 62 33 ⟨2, 2, 0, 8⟩, []) ∧
    decode [0xCB10FA13, 0x74A00008] = .ok (.stxB64 4 16 62 33 ⟨2, 2, 0, 8⟩, []) ∧
    decode [0xCB10FA14, 0x74A00008] = .ok (.stxB128 4 16 62 33 ⟨2, 2, 0, 8⟩, []) := by
  and_intros <;> rfl

/-- Major 0x26: every form. -/
theorem test_decode_major_26 :
    decode [0xCC500210, 0x75700004] = .ok (.atomAddI32 1 16 0 33 ⟨5, 3, 0, 4⟩, []) ∧
    decode [0xCC500211, 0x75700004] = .ok (.atomAddF32 1 16 0 33 ⟨5, 3, 0, 4⟩, []) ∧
    decode [0xCC500212, 0x75700004] = .ok (.atomMinI32 1 16 0 33 ⟨5, 3, 0, 4⟩, []) ∧
    decode [0xCC500213, 0x75700004] = .ok (.atomMaxI32 1 16 0 33 ⟨5, 3, 0, 4⟩, []) ∧
    decode [0xCC500214, 0x75700004] = .ok (.atomMinu 1 16 0 33 ⟨5, 3, 0, 4⟩, []) ∧
    decode [0xCC500215, 0x75700004] = .ok (.atomMaxu 1 16 0 33 ⟨5, 3, 0, 4⟩, []) ∧
    decode [0xCC500216, 0x75700004] = .ok (.atomAnd 1 16 0 33 ⟨5, 3, 0, 4⟩, []) ∧
    decode [0xCC500217, 0x75700004] = .ok (.atomOr 1 16 0 33 ⟨5, 3, 0, 4⟩, []) ∧
    decode [0xCC500218, 0x75700004] = .ok (.atomXor 1 16 0 33 ⟨5, 3, 0, 4⟩, []) ∧
    decode [0xCC500219, 0x75700004] = .ok (.atomXchg 1 16 0 33 ⟨5, 3, 0, 4⟩, []) ∧
    decode [0xCC50021A, 0x75700004] = .ok (.atomIncw 1 16 0 33 ⟨5, 3, 0, 4⟩, []) ∧
    decode [0xCC50021B, 0x75700004] = .ok (.atomDecw 1 16 0 33 ⟨5, 3, 0, 4⟩, []) ∧
    decode [0xCC50021C, 0x75700004] = .ok (.atomAddI64 1 16 0 33 ⟨5, 3, 0, 4⟩, []) ∧
    decode [0xCC50021D, 0x75700004] = .ok (.atomXchg64 1 16 0 33 ⟨5, 3, 0, 4⟩, []) ∧
    decode [0xCC50021E, 0x75700004] = .ok (.atomAddH2 1 16 0 33 ⟨5, 3, 0, 4⟩, []) ∧
    decode [0xCC50021F, 0x75700004] = .ok (.atomAddB2 1 16 0 33 ⟨5, 3, 0, 4⟩, []) := by
  and_intros <;> rfl

/-- Major 0x27: every form. -/
theorem test_decode_major_27 :
    decode [0xCE505210, 0x75600004] = .ok (.redAddI32 1 16 20 33 ⟨5, 2, 0, 4⟩, []) ∧
    decode [0xCE505211, 0x75600004] = .ok (.redAddF32 1 16 20 33 ⟨5, 2, 0, 4⟩, []) ∧
    decode [0xCE505212, 0x75600004] = .ok (.redMinI32 1 16 20 33 ⟨5, 2, 0, 4⟩, []) ∧
    decode [0xCE505213, 0x75600004] = .ok (.redMaxI32 1 16 20 33 ⟨5, 2, 0, 4⟩, []) ∧
    decode [0xCE505214, 0x75600004] = .ok (.redMinu 1 16 20 33 ⟨5, 2, 0, 4⟩, []) ∧
    decode [0xCE505215, 0x75600004] = .ok (.redMaxu 1 16 20 33 ⟨5, 2, 0, 4⟩, []) ∧
    decode [0xCE505216, 0x75600004] = .ok (.redAnd 1 16 20 33 ⟨5, 2, 0, 4⟩, []) ∧
    decode [0xCE505217, 0x75600004] = .ok (.redOr 1 16 20 33 ⟨5, 2, 0, 4⟩, []) ∧
    decode [0xCE505218, 0x75600004] = .ok (.redXor 1 16 20 33 ⟨5, 2, 0, 4⟩, []) ∧
    decode [0xCE505219, 0x75600004] = .ok (.redXchg 1 16 20 33 ⟨5, 2, 0, 4⟩, []) ∧
    decode [0xCE50521A, 0x75600004] = .ok (.redIncw 1 16 20 33 ⟨5, 2, 0, 4⟩, []) ∧
    decode [0xCE50521B, 0x75600004] = .ok (.redDecw 1 16 20 33 ⟨5, 2, 0, 4⟩, []) ∧
    decode [0xCE50521C, 0x75600004] = .ok (.redAddI64 1 16 20 33 ⟨5, 2, 0, 4⟩, []) ∧
    decode [0xCE50521D, 0x75600004] = .ok (.redXchg64 1 16 20 33 ⟨5, 2, 0, 4⟩, []) ∧
    decode [0xCE50521E, 0x75600004] = .ok (.redAddH2 1 16 20 33 ⟨5, 2, 0, 4⟩, []) ∧
    decode [0xCE50521F, 0x75600004] = .ok (.redAddB2 1 16 20 33 ⟨5, 2, 0, 4⟩, []) := by
  and_intros <;> rfl

/-- Major 0x28: every form. -/
theorem test_decode_major_28 :
    decode [0xD0505210, 0x75800000] = .ok (.cas32 1 16 20 33 ⟨6, 0, 0, 0⟩, []) ∧
    decode [0xD0505211, 0x75800000] = .ok (.cas64 1 16 20 33 ⟨6, 0, 0, 0⟩, []) := by
  and_intros <;> rfl

/-- Major 0x29: every form. -/
theorem test_decode_major_29 :
    decode [0xD2000000, 0x74F00000] = .ok (.fence ⟨3, 3, 0, 0⟩, []) ∧
    decode [0xD2000001, 0x75500000] = .ok (.fenceEng ⟨5, 1, 0, 0⟩, []) := by
  and_intros <;> rfl

/-- Major 0x2A: every form. -/
theorem test_decode_major_2A :
    decode [0x54C00210] = .ok (.pref ⟨3, .none⟩ 33, []) ∧
    decode [0x54C00211] = .ok (.cwb ⟨3, .none⟩ 33, []) ∧
    decode [0x54C00212] = .ok (.cinv ⟨3, .none⟩ 33, []) ∧
    decode [0x54C00213] = .ok (.czero ⟨3, .none⟩ 33, []) ∧
    decode [0x54C00E14] = .ok (.bankm ⟨3, .none⟩ 3 33, []) ∧
    decode [0x54C00215] = .ok (.cevt ⟨3, .none⟩ 33, []) := by
  and_intros <;> rfl

/-- Major 0x2B: every form. -/
theorem test_decode_major_2B :
    decode [0x56C84210] = .ok (.spill ⟨3, .none⟩ 8 16 33, []) ∧
    decode [0x56C84211] = .ok (.fill ⟨3, .none⟩ 8 16 33, []) := by
  and_intros <;> rfl

/-- Major 0x2C: every form. -/
theorem test_decode_major_2C :
    decode [0x58C80210] = .ok (.ldoF8 ⟨3, .none⟩ 8 33, []) ∧
    decode [0x58C80211] = .ok (.ldoBf16 ⟨3, .none⟩ 8 33, []) ∧
    decode [0x58C80212] = .ok (.ldoQ4n ⟨3, .none⟩ 8 33, []) := by
  and_intros <;> rfl

/-- Major 0x2D: every form. -/
theorem test_decode_major_2D :
    decode [0x5AC80000] = .ok (.claim ⟨3, .none⟩ 8, []) ∧
    decode [0x5AC80001] = .ok (.rels ⟨3, .none⟩ 8, []) ∧
    decode [0x5AC85002] = .ok (.slotq ⟨3, .none⟩ 8 20, []) := by
  and_intros <;> rfl

/-- Major 0x2E: every form. -/
theorem test_decode_major_2E :
    decode [0x5CC85090] = .ok (.mmaE4e4 ⟨3, .none⟩ 8 20 9, []) ∧
    decode [0x5CC85091] = .ok (.mmaE5e4 ⟨3, .none⟩ 8 20 9, []) ∧
    decode [0x5CC85092] = .ok (.mmaE4e5 ⟨3, .none⟩ 8 20 9, []) ∧
    decode [0x5CC85093] = .ok (.mmaE5e5 ⟨3, .none⟩ 8 20 9, []) ∧
    decode [0x5CC85094] = .ok (.mmaBf16 ⟨3, .none⟩ 8 20 9, []) ∧
    decode [0x5CC85095] = .ok (.mmaF16 ⟨3, .none⟩ 8 20 9, []) ∧
    decode [0x5CC85096] = .ok (.mmaE4q4 ⟨3, .none⟩ 8 20 9, []) ∧
    decode [0x5CC85097] = .ok (.mmaI8 ⟨3, .none⟩ 8 20 9, []) := by
  and_intros <;> rfl

/-- Major 0x2F: every form. -/
theorem test_decode_major_2F :
    decode [0xDE48F090, 0x3F640000] = .ok (.mmspE4e4 1 8 60 9 44 2, []) ∧
    decode [0xDE48F091, 0x3F640000] = .ok (.mmspBf16 1 8 60 9 44 2, []) ∧
    decode [0xDE48F092, 0x3F640000] = .ok (.mmspI8 1 8 60 9 44 2, []) := by
  and_intros <;> rfl

/-- Major 0x30: every form. -/
theorem test_decode_major_30 :
    decode [0x60C85095] = .ok (.cpy ⟨3, .none⟩ 8 20 9 5, []) ∧
    decode [0xE048509D, 0x0FFFE003] = .ok (.cpy2d 1 8 20 9 5 4095 3, []) := by
  and_intros <;> rfl

/-- Major 0x31: every form. -/
theorem test_decode_major_31 :
    decode [0x62C05005] = .ok (.twait ⟨3, .none⟩ 20 5, []) := by
  rfl

/-- Major 0x32: every form. -/
theorem test_decode_major_32 :
    decode [0x64C80005] = .ok (.treadIss ⟨3, .none⟩ 8 5, []) ∧
    decode [0x64C80015] = .ok (.treadDone ⟨3, .none⟩ 8 5, []) ∧
    decode [0x64C80025] = .ok (.treadWp ⟨3, .none⟩ 8 5, []) := by
  and_intros <;> rfl

/-- Major 0x33: every form. -/
theorem test_decode_major_33 :
    decode [0x66C05005] = .ok (.wpwait ⟨3, .none⟩ 20 5, []) := by
  rfl

/-- Major 0x34: every form. -/
theorem test_decode_major_34 :
    decode [0x68CF5000] = .ok (.qpush ⟨3, .none⟩ 15 20, []) ∧
    decode [0x68CF5091] = .ok (.qpushTry ⟨3, .none⟩ 15 20 9, []) := by
  and_intros <;> rfl

/-- Major 0x35: every form. -/
theorem test_decode_major_35 :
    decode [0x6AC83C00] = .ok (.qpop ⟨3, .none⟩ 8 15, []) ∧
    decode [0x6AC83C91] = .ok (.qpopTry ⟨3, .none⟩ 8 15 9, []) := by
  and_intros <;> rfl

/-- Major 0x36: every form. -/
theorem test_decode_major_36 :
    decode [0x6CCF5090] = .ok (.qinit ⟨3, .none⟩ 15 20 9, []) ∧
    decode [0x6CCF5001] = .ok (.qallow ⟨3, .none⟩ 15 20, []) ∧
    decode [0x6CCF0002] = .ok (.qclose ⟨3, .none⟩ 15, []) := by
  and_intros <;> rfl

/-- Major 0x37: every form. -/
theorem test_decode_major_37 :
    decode [0x6ECF5000] = .ok (.binit ⟨3, .none⟩ 15 20, []) ∧
    decode [0x6ECF0001] = .ok (.barr ⟨3, .none⟩ 15, []) ∧
    decode [0x6ECF0002] = .ok (.bwait ⟨3, .none⟩ 15, []) ∧
    decode [0x6ECF0003] = .ok (.bsync ⟨3, .none⟩ 15, []) ∧
    decode [0x6ECF5004] = .ok (.barrn ⟨3, .none⟩ 15 20, []) := by
  and_intros <;> rfl

/-- Major 0x38: every form. -/
theorem test_decode_major_38 :
    decode [0x70C80000] = .ok (.homeL ⟨3, .none⟩ 8, []) ∧
    decode [0x70C80001] = .ok (.homeK ⟨3, .none⟩ 8, []) ∧
    decode [0x70C85002] = .ok (.homeH ⟨3, .none⟩ 8 20, []) ∧
    decode [0x70C85003] = .ok (.homeM ⟨3, .none⟩ 8 20, []) := by
  and_intros <;> rfl

/-- Major 0x39: every form. -/
theorem test_decode_major_39 :
    decode [0x72C00000] = .ok (.drain ⟨3, .none⟩, []) ∧
    decode [0x72C85001] = .ok (.mfpm ⟨3, .none⟩ 8 20, []) ∧
    decode [0x72C05002] = .ok (.quota ⟨3, .none⟩ 20, []) := by
  and_intros <;> rfl

/-- Major 0x3B: every form. -/
theorem test_decode_major_3B :
    decode [0x76C85000] = .ok (.akey ⟨3, .none⟩ 8 20, []) ∧
    decode [0x76C85001] = .ok (.aact ⟨3, .none⟩ 8 20, []) ∧
    decode [0x76C80002] = .ok (.acmp ⟨3, .none⟩ 8, []) ∧
    decode [0x76C80003] = .ok (.acmpa ⟨3, .none⟩ 8, []) ∧
    decode [0x76C80004] = .ok (.acmpo ⟨3, .none⟩ 8, []) ∧
    decode [0x76C80005] = .ok (.awrt ⟨3, .none⟩ 8, []) ∧
    decode [0x76C85006] = .ok (.apass ⟨3, .none⟩ 8 20, []) ∧
    decode [0x76C80007] = .ok (.apre ⟨3, .none⟩ 8, []) ∧
    decode [0x76C80078] = .ok (.ardt ⟨3, .none⟩ 8 7, []) ∧
    decode [0x76C80009] = .ok (.acnt ⟨3, .none⟩ 8, []) := by
  and_intros <;> rfl

/-- Major 0x3C: every form. -/
theorem test_decode_major_3C :
    decode [0x78C85000] = .ok (.launch ⟨3, .none⟩ 8 20, []) ∧
    decode [0x78C00001] = .ok (.tsig ⟨3, .none⟩, []) ∧
    decode [0x78C05002] = .ok (.evset ⟨3, .none⟩ 20, []) ∧
    decode [0x78C05003] = .ok (.evwait ⟨3, .none⟩ 20, []) ∧
    decode [0x78C85004] = .ok (.lstat ⟨3, .none⟩ 8 20, []) := by
  and_intros <;> rfl

/-- Major 0x3D: every form. -/
theorem test_decode_major_3D :
    decode [0x7AC80240] = .ok (.mfs ⟨3, .none⟩ 8 36, []) ∧
    decode [0x7AC051B1] = .ok (.mts ⟨3, .none⟩ 20 27, []) ∧
    decode [0x7AC85093] = .ok (.ctxsv ⟨3, .none⟩ 8 20 9, []) ∧
    decode [0x7AC85004] = .ok (.ctxrs ⟨3, .none⟩ 8 20, []) ∧
    decode [0x7AC85005] = .ok (.winrd ⟨3, .none⟩ 8 20, []) ∧
    decode [0x7AC05096] = .ok (.winwr ⟨3, .none⟩ 20 9, []) ∧
    decode [0x7AC05007] = .ok (.resume ⟨3, .none⟩ 20, []) ∧
    decode [0x7AC85078] = .ok (.ptload ⟨3, .none⟩ 8 20 7, []) ∧
    decode [0x7AC85009] = .ok (.bias ⟨3, .none⟩ 8 20, []) ∧
    decode [0x7AC8000A] = .ok (.dtime ⟨3, .none⟩ 8, []) ∧
    decode [0xFA405092, 0x75000000] = .ok (.tlbi 1 20 9 ⟨4, 0, 0, 0⟩, []) := by
  and_intros <;> rfl

/-! ### Small machines -/

/-- The stream of entry 0 of group 0 of a core, at packet 0, word 0, one word long. -/
def issue (core : Nat) : Issue := ⟨core, 0, 0, 0, 0, 0, 1, false, none⟩

/-- The reset machine with group g as group 0 of a core, issuing. -/
def machine (core : Nat) (g : Group) : State := { State.reset.setGroup core 0 g with iss := some (issue core) }

/-- The stream that `machine` issues. -/
def stream (core : Nat) (g : Group) : Ctx := ⟨issue core, g, g.arch, g.arch.stream 0⟩

/-- The same with a team and an engine context of interface 0. -/
def teamMachine (g : Group) (t : Team) (x : Context) : State := { machine 0 g with teams := [(0, t)], ctxs := [(0, x)] }

theorem issues_machine (core : Nat) (g : Group) : Issues (machine core g) (stream core g) := by
  simp [Issues, State.issueCtx, machine, stream, issue, State.group, State.setGroup]

theorem issues_team (g : Group) (t : Team) (x : Context) : Issues (teamMachine g t x) (stream 0 g) := issues_machine 0 g

/-- A register that no load owes. -/
theorem reads_now {c : Ctx} (h : c.src.sPend = []) (n : BitVec 6) (x : DWord) (hx : c.src.sreg n = x) : ReadsS c n x :=
  ⟨Or.inr (by simp [h]), hx.symm⟩

/-- Under guard 0 with no extension. -/
def q0 : Quals := ⟨0, .none⟩

/-- A group of team 0, one whose path has no active lane, and a privileged group. -/
def user : Group := { Group.priv 0 with team := some 0 }
def off : Group := { user with arch := user.arch.editPath 0 fun p => { p with em := 0 } }
def priv : Group := Group.priv 0

/-- The group with one register or one field of path 0 replaced. -/
def withS (g : Group) (n : BitVec 6) (x : DWord) : Group := { g with arch := g.arch.setS n x }
def withV (g : Group) (n : Nat) (r : VReg) : Group := { g with arch := g.arch.setV n r }
def withPath (g : Group) (f : Path → Path) : Group := { g with arch := g.arch.editPath 0 f }

/-- An instruction at L that has not reported: the retire window is not empty. -/
def pending : Entry := ⟨0, 0, 0, 0, .l, .home 1 VReg.zero, .posted, 0, [], Arch.start 0, Arch.start 0, none⟩
def busy : Group := { user with rob := [pending], seq := 1 }

/-- A launch of one team with every feature, one channel, one coupling and one barrier, and its team. -/
def header : Header :=
  ⟨false, 0, 0xFFF, [1, 1, 1], [], 1, 0, 64, 0, 0, 0, 0, 0, 0, 1, 1, 1, [1, 1, 1], 0, [64], 0, 0, 0, 0, 0, 0, 0, 0, 0, 0, 0, List.replicate 64 0⟩
def launched : Launch := ⟨1, header, 0, 0, .running, [], [0], [], [], true, [], 0, 0⟩
def context : Context := { Context.zero with nextId := 2, launches := [launched] }
def team : Team := ⟨0, 1, 0, 0, [0], [], [], [], [0], 64, List.replicate 16 Coupling.zero, List.replicate 16 Barrier.zero⟩

/-- The machine of that team, with group g. -/
def teamed (g : Group) : State := teamMachine g team context

/-! ### The hypotheses of the statements can be met -/

/-- An instruction runs, on an active stream and on one with no active lane. -/
theorem test_met_active : (stream 0 user).active q0 ≠ 0 ∧ (stream 0 off).active q0 = 0 ∧
    (stream 144 priv).active q0 ≠ 0 ∧ (stream 0 user).ents = [0] := by decide +kernel

/-- ScalarForms, ScalarMoves: s1 := s2 + s3, an EXT.IMM, an imm6, an SCMP. -/
theorem test_met_scalar :
    scalarAluForm (.sadd q0 1 2 3) = some ⟨.add, q0, 1, 2, .ofB q0 3⟩ ∧ Issues (machine 0 user) (stream 0 user) ∧
    ReadsS (stream 0 user) 2 0 ∧ (ScalarSrc.ofB q0 3).Reads (stream 0 user) 0 ∧
    (ScalarSrc.ofB ⟨0, .imm 0x1FFFFFF⟩ 0).Reads (stream 0 user) (BitVec.allOnes 64) ∧
    scalarCmpForm (.scmpBt q0 63 2 3) = some ⟨.bt, q0, 63, 2, .ofB q0 3⟩ ∧ ReadsS (stream 0 (withS user 63 7)) 63 7 := by
  refine ⟨rfl, issues_machine .., reads_now rfl _ _ rfl, reads_now rfl _ _ rfl, rfl, rfl, reads_now rfl _ _ ?_⟩
  decide +kernel

/-- IntegerResults: an amount of the width and beyond is a shift out. -/
theorem test_shift_out : aluOp .shl (1 : BitVec 64) 64 = 0 ∧ aluOp .sar (BitVec.ofInt 64 (-1)) 200 = BitVec.ofInt 64 (-1) ∧
    aluOp .mulhi (BitVec.ofInt 32 (-2)) 3 = BitVec.ofInt 32 (-1) ∧ clz (0 : BitVec 32) = 32 ∧ clz (1 : BitVec 64) = 63 := by
  decide +kernel

/-- ScalarMoves: VEXT of an L register that is full. -/
theorem test_met_vext : (stream 0 user).checkOnce (machine 0 user)
    ({ Need.atL with meld := (stream 0 user).isW 63 }.source (Quals.modx q0).ta (63 : BitVec 6).toNat) = .ok () := by
  decide +kernel

/-- PredicatesAndMask: a PLOG form; EMWR of lane 31, which the path has, and of lane 32, which no path has. -/
theorem test_met_predicates :
    (∃ f, predLogicForm (.porn q0 63 0 1) = some (q0, 63, 0, 1, f)) ∧
    ((0x80000000 : DWord).toNat < 2 ^ 32 ∧ ∀ l, l < 64 → (0x80000000 : DWord).getLsbD l = true →
      ((stream 0 user).src.maskOf (stream 0 user).ents).getLsbD l = true) ∧
    ¬ (2 ^ 32 : DWord).toNat < 2 ^ 32 := by
  refine ⟨⟨_, rfl⟩, ?_, ?_⟩ <;> decide +kernel

/-- LaneWise: v8 := v20 + v9 at L, and the same with v8 at K, which is posted; FloatExceptionTraps: 1/0 with DZE set. -/
def atK : VReg := { VReg.zero with place := .k }
def halfAt (p : Place) : Half := ⟨0, 0xFFFFFFFF, 8, 20, 9, 0, none, 0, p⟩

theorem test_met_lanes_at_l :
    laneForm (.iadd q0 8 20 9) = some ⟨.alu .add, q0, 8, 20, 9, 0, none, none⟩ ∧
    LaneForm.halves ⟨.alu .add, q0, 8, 20, 9, 0, none, none⟩ (stream 0 user) = [halfAt .l] ∧
    LaneReady (stream 0 user) (machine 0 user) (.alu .add) (Quals.modx q0) false [halfAt .l] ∧
    Allowed (machine 0 user) (stream 0 user) none false := by
  refine ⟨rfl, by decide +kernel, ⟨?_, ?_, ?_, ?_, ?_⟩, allowed_all ..⟩ <;> decide +kernel

/-- LaneWise at K: the register lives there, feature bit 1 is set, and the window has room for one more post. -/
theorem test_met_lanes_at_k :
    LaneReady (stream 0 (withV user 8 atK)) (teamed (withV user 8 atK)) (.alu .add) (Quals.modx q0) false [halfAt .k] ∧
    remotePlaces [halfAt .k] = [.k] := by
  refine ⟨⟨?_, ?_, ?_, ?_, ?_⟩, ?_⟩ <;> decide +kernel

/-- FloatExceptionTraps: lane by lane 1.0 / 0 with DZE (bit 6 of %fcr) set raises DZ everywhere. -/
def divides : Group :=
  let ones : VReg := { VReg.zero with lanes := Vector.replicate 32 0x3F800000 }
  { withV user 20 ones with arch := { (withV user 20 ones).arch with fcr := 0x40 } }

theorem test_met_float_trap :
    laneForm (.fdiv q0 8 20 9) = some ⟨.spc .div, q0, 8, 20, 9, 0, none, none⟩ ∧
    LaneForm.halves ⟨.spc .div, q0, 8, 20, 9, 0, none, none⟩ (stream 0 divides) = [halfAt .l] ∧
    (stream 0 divides).check (machine 0 divides) (LaneOp.need (.spc .div) (stream 0 divides) (Quals.modx q0) false (halfAt .l)) = none ∧
    (∀ r ∈ (LaneOp.need (.spc .div) (stream 0 divides) (Quals.modx q0) false (halfAt .l)).waits,
      ((stream 0 divides).src.vreg r).full = true) ∧
    (∃ r ∈ (halfAt .l).results (.spc .div) (stream 0 divides).src (Quals.modx q0),
      r.2.2 &&& enables (stream 0 divides).src.fcr ≠ 0) ∧ (stream 0 divides).ents = [(stream 0 divides).iss.ent] := by
  refine ⟨rfl, ?_, ?_, ?_, ?_, rfl⟩ <;> decide +kernel

/-- VectorMoves: SEL, BCST of s2, and VINS into lane 31. -/
theorem test_met_moves :
    LaneReady (stream 0 user) (machine 0 user) .sel (Quals.modx q0) (permMeld (stream 0 user) (Quals.modx q0) 20 9 none)
      (((stream 0 user).halves (stream 0 user).em).map fun h => (stream 0 user).half h.1 h.2 8 20 9 0 none 5) ∧
    LaneReady (stream 0 user) (machine 0 user) .splat (Quals.modx q0) (permMeld (stream 0 user) (Quals.modx q0) 0 0 (some 0))
      (((stream 0 user).halves ((stream 0 user).active q0)).map fun h => (stream 0 user).half h.1 h.2 8 0 0 0 (some 7) 0) ∧
    LaneReady (stream 0 user) (machine 0 user) (.vins 31) (Quals.modx q0) false [⟨0, Mask.one 31, 8, 0, 0, 0, some 7, 0, .l⟩] ∧
    (stream 0 user).isW 63 = false := by
  refine ⟨⟨?_, ?_, ?_, ?_, ?_⟩, ⟨?_, ?_, ?_, ?_, ?_⟩, ⟨?_, ?_, ?_, ?_, ?_⟩, ?_⟩ <;> decide +kernel

/-- VectorCompares: one form of each kind passes its checks. -/
theorem test_met_compares :
    vectorCmpForm (.icmpBt q0 1 20 9) = some (.bt, q0, 1, 20, 9) ∧ floatCmpForm (.fcmpUno q0 1 20 9) = some (.uno, q0, 1, 20, 9) ∧
    CompareReady ⟨q0, 1, 20, 9, true, Quals.immV q0, fun x y => (icmpOp .bt x y, 0)⟩ (stream 0 user) (machine 0 user) ∧
    CompareReady ⟨q0, 1, 20, 9, true, Quals.immF q0, fcmpOp .uno⟩ (stream 0 user) (machine 0 user) ∧
    CompareReady ⟨quals 0, 1, 20, 0, false, none, fun x _ => ((0x1FF : BitVec 25).getLsbD (fclass x.toNat), 0)⟩ (stream 0 user)
      (machine 0 user) := by
  refine ⟨rfl, rfl, ⟨?_, ?_, ?_, ?_⟩, ⟨?_, ?_, ?_, ?_⟩, ⟨?_, ?_, ?_, ?_⟩⟩ <;> decide +kernel

/-- Shuffles, Reductions, Votes: sources full; every lane a member, and lane 31 left out, which traps. -/
theorem test_met_cross :
    CrossReady (stream 0 user) (machine 0 user) (Quals.modx q0) 8 20 (some 9) ∧
    CrossReady (stream 0 user) (machine 0 user) (Quals.modx q0) 8 20 none ∧
    (∃ o, reduceForm (.xscanAddF32 q0 8 20 3) = some (o, true, q0, 8, 20, 3)) ∧
    Contributors (stream 0 user) ((stream 0 user).active q0) 0xFFFFFFFF 0xFFFFFFFF ∧
    (∃ l, l < 32 ∧ ((stream 0 user).active q0).getLsbD l = true ∧ (0x7FFFFFFF : DWord).getLsbD l = false) := by
  refine ⟨rfl, rfl, ⟨_, rfl⟩, ⟨?_, ?_⟩, 31, ?_⟩
  · decide +kernel
  · decide +kernel
  · decide +kernel

/-- Reductions: the sums that the statement asks to raise no enabled exception. -/
theorem test_met_reduction : ∀ l ∈ Mask.list ((stream 0 user).active q0),
    (redOp .addI (Rnd.of 0 0 0) (((Mask.list 0xFFFFFFFF).filter fun j => !false || j ≤ l).map fun j =>
      ((stream 0 user).src.vreg 20).through 0 0 j)).2 &&& enables (stream 0 user).src.fcr = 0 := by decide +kernel

/-- Reductions: the words of an XRED into v8 on their way, and there. -/
def crossed (st : Stage) : Entry :=
  ⟨0, 0, 0, 0, .l, .cross 8 0xFFFFFFFF (Vector.replicate 32 7), st, 0, [], Arch.start 0, Arch.start 0, none⟩
def crossing (st : Stage) : Group :=
  { withV user 8 { VReg.zero with prods := [(0, 0xFFFFFFFF)] } with rob := [crossed st], seq := 1 }

theorem test_met_cross_arrives :
    (crossing .posted).rob.filter (fun x => x.pos == 0) = [crossed .posted] ∧
    (((crossing .posted).arch.vreg 8).owed 0).getLsbD 31 = true ∧ (((crossing .posted).arch.vreg 9).owed 0).getLsbD 31 = false ∧
    (crossing .executed).rob = [crossed .executed] ∧ (crossing .executed).arch.valid ≠ [] := by decide +kernel

/-! ### Paths -/

/-- A group that is in two sides of one consist, lanes 0 to 15 and 16 to 31, with a join point at packet 0. -/
def sides : Group :=
  let one : Path := { Path.start 0 with mask := 0x0000FFFF, em := 0x0000FFFF, meld := true, link := some 1, jstack := [0] }
  let two : Path := { Path.start 0 with mask := 0xFFFF0000, em := 0xFFFF0000, meld := true, side := true, link := some 0, jstack := [0] }
  { user with arch := (user.arch.setPath 0 one).setPath 1 two }

/-- Two plain paths with one join point, the second of which waits at the JOIN of packet 0. -/
def joiners : Group :=
  let one : Path := { Path.start 0 with mask := 0x0000FFFF, em := 0x0000FFFF, jstack := [0] }
  let two : Path := { Path.start 0 with mask := 0xFFFF0000, em := 0xFFFF0000, jstack := [0], state := .joinWait, wait := some (.join false) }
  { user with arch := (user.arch.setPath 0 one).setPath 1 two }

/-- StreamMovesOn: a stream of one entry at its instruction, in slot 0 and, of three words, at the packet's end; entry 31 is
no part of it. -/
theorem test_met_advance : (stream 0 user).ents.Nodup ∧ (stream 0 user).iss.atMe ((stream 0 user).g.arch.path 0) = true ∧
    (user.arch.path 0).slot + (stream 0 user).iss.words < 3 ∧
    3 ≤ ({ Path.start 0 with slot := 2 } : Path).slot + (stream 0 user).iss.words ∧ 31 ∉ (stream 0 user).ents := by decide +kernel

/-- BranchesResolve: no lane, every lane, lane 31 alone; and of a consist the lanes of one side. -/
theorem test_met_branches :
    (stream 0 off).active q0 &&& emNow (stream 0 off) = 0 ∧
    (stream 0 user).active q0 &&& emNow (stream 0 user) = user.arch.emOf (stream 0 user).ents ∧
    (let g := { user with arch := user.arch.setP 1 0xFFFFFFFF 0x80000000 }
     let t := (stream 0 g).active ⟨1, .none⟩ &&& emNow (stream 0 g)
     t ≠ 0 ∧ t ≠ (g.arch.path 0).em ∧ t &&& ~~~ (g.arch.path 0).em = 0 ∧ (g.arch.path 0).em &&& ~~~ (g.arch.path 0).mask = 0 ∧
     (g.arch.path 0).valid = true ∧ g.arch.freeEntry ≠ none ∧ (stream 0 g).ents = [0]) ∧
    (let g := { sides with arch := sides.arch.setP 1 0xFFFFFFFF 0xFFFF }
     let t := (stream 0 g).active ⟨1, .none⟩ &&& emNow (stream 0 g)
     (stream 0 g).ents = [0, 1] ∧ t ≠ 0 ∧ t ≠ g.arch.emOf [0, 1] ∧ t &&& ~~~ g.arch.emOf [0, 1] = 0 ∧
     (g.arch.path 0).valid = true ∧ (g.arch.path 1).valid = true) := by decide +kernel

/-- JumpsLand: packet 0 of firmware code begins with LAND. -/
theorem test_met_landing :
    ((machine 144 priv).writeBytes (mgmtCell 0x1000000) (packetBytesOf 1)).landing 144 priv 0 = none ∧
    (∀ e ∈ (stream 144 priv).ents, (priv.arch.path e).valid = true ∧ (priv.arch.path e).state = .ready) ∧
    (stream 144 priv).checkOnce (machine 144 priv) (({ Need.atL with meld := (stream 144 priv).isW 62 }.source (Quals.modx q0).ta
      62).source (Quals.modx q0).ta 63) = .ok () ∧
    (∀ l ∈ Mask.list ((stream 144 priv).active q0), packetAt ((priv.arch.vreg 63).lane l ++ (priv.arch.vreg 62).lane l) = some 0) := by
  decide +kernel

/-- JumpsLand: packet 0 of firmware memory that holds zeros has no LAND; the stream is a path of one half. -/
theorem test_met_landing_fails :
    (machine 144 priv).landing 144 priv 0 = some causeBadLanding ∧ (stream 144 priv).active q0 ≠ 0 ∧
    (stream 144 priv).halves ((stream 144 priv).active q0) = [(0, (stream 144 priv).active q0)] ∧
    priv.arch.freeEntry = some 1 ∧ (stream 144 priv).ents.Nodup ∧
    (let g := { sides with vi := priv.vi }
     2 ≤ ((stream 144 g).halves ((stream 144 g).active q0)).length ∧ (machine 144 g).landing 144 g 0 = some causeBadLanding) := by
  decide +kernel

/-- VectorMoves: VINS of a w-name in a consist. -/
theorem test_met_vins_meld : (stream 0 sides).isW 48 = true ∧ (stream 0 sides).active q0 ≠ 0 := by decide +kernel

/-- ByteAddressNamesPacket: the last packet of a line is at byte 108, and byte 120 names none. -/
theorem test_packet_addresses : packetAt 108 = some 9 ∧ packetAt 120 = none ∧ packetAt 128 = some 10 ∧ packetAt 12 = some 1 := by
  decide +kernel

/-- ConsistsFormAndEnd: BRM on a melded path and on one without a join point, with a selector of no lane, of every lane and
of lane 0; JOINM outside a consist, and of a consist at its join point. -/
theorem test_met_consists :
    (let g := withPath user fun p => { p with jstack := [7] }
     (g.arch.path 0).meld = false ∧ (g.arch.path 0).jstack ≠ [] ∧ (g.arch.path 0).valid = true ∧ g.arch.freeEntry = some 1 ∧
     (g.arch.path 0).em &&& (stream 0 g).guard ⟨1, .none⟩ = 0 ∧
     (g.arch.path 0).mask &&& ~~~ ((g.arch.path 0).em &&& (stream 0 g).guard q0) = 0) ∧
    (let g := withPath { user with arch := user.arch.setP 1 1 1 } fun p => { p with jstack := [7] }
     (g.arch.path 0).em &&& (stream 0 g).guard ⟨1, .none⟩ = 1 ∧
     (g.arch.path 0).mask &&& ~~~ ((g.arch.path 0).em &&& (stream 0 g).guard ⟨1, .none⟩) = 0xFFFFFFFE) ∧
    (user.arch.path 0).jstack = [] ∧ (stream 0 user).meld = false ∧ (stream 0 sides).meld = true ∧ (stream 0 sides).topIsMe = true ∧
    (stream 0 sides).ents = [0, 1] ∧ sides.arch.peers 0 = [0, 1] ∧ (stream 0 sides).iss.words = 1 ∧
    (∀ k ∈ (stream 0 sides).ents, (sides.arch.path k).valid = true ∧ (sides.arch.path k).pn = 0 ∧ (sides.arch.path k).slot = 0 ∧
      (sides.arch.path k).meld = true) := by decide +kernel

/-- The consist forms are allowed to a launch with feature bit 4, and to a privileged group. -/
theorem test_met_feature : Allowed (teamed user) (stream 0 user) (some 4) false ∧
    Allowed (machine 144 priv) (stream 144 priv) (some 10) true := by
  refine ⟨⟨?_, ?_⟩, ⟨?_, ?_⟩⟩ <;> intros <;> first | decide +kernel | (rename_i b h; cases h; decide +kernel) | contradiction

/-- SideShowsSideOne, PathidFields, MapsRename: a consist, and a path that is none. -/
theorem test_met_sides : (∀ e ∈ (stream 0 user).ents, ((stream 0 user).src.path e).meld = false) ∧
    (∃ e ∈ (stream 0 sides).ents, ((stream 0 sides).src.path e).meld = true ∧ ((stream 0 sides).src.path e).side = true ∧
      ((stream 0 sides).src.path e).mask.getLsbD 31 = true) := by decide +kernel

/-- SplitAndJoin: a stack with room and a full one; JOIN away from its point, with a peer still to come, and with the last. -/
theorem test_met_joins :
    (∀ e ∈ (stream 0 user).ents, (user.arch.path e).jstack.length < 64) ∧
    (let g := withPath user fun p => { p with jstack := List.replicate 64 0 }
     ∃ e ∈ (stream 0 g).ents, 64 ≤ (g.arch.path e).jstack.length) ∧
    (stream 0 user).topIsMe = false ∧
    (stream 0 joiners).topIsMe = true ∧ joiners.arch.peers 0 = [0, 1] ∧
    (∀ k ∈ joiners.arch.peers 0, k ≠ 0 → (joiners.arch.path k).state = .joinWait ∧ (joiners.arch.path k).pn = 0 ∧
      (joiners.arch.path k).wait = some (.join false)) ∧
    (let g := { joiners with arch := joiners.arch.editPath 1 fun p => { p with state := .ready } }
     ∃ k ∈ g.arch.peers 0, k ≠ 0 ∧ ((g.arch.path k).state ≠ .joinWait ∨ (g.arch.path k).pn ≠ 0)) := by decide +kernel

/-- A register that instruction 0 owes. -/
def owed : VReg := { VReg.zero with prods := [(0, 0xFFFFFFFF)] }

/-- SmallControlForms: WAITF of a full register and of one that is owed; TRAP of one half with a free entry, and of two halves;
breakpoints on (%dbgctl bit 0), in a launch of interface 0. -/
theorem test_met_control :
    (∀ h ∈ (stream 0 user).halves ((stream 0 user).active q0),
      (stream 0 user).check (machine 0 user) (Need.atL.names [(stream 0 user).rename h.1 63]) = none) ∧
    ((stream 0 user).ents.map fun e => (stream 0 user).rename e 63).filter (fun r => !(user.arch.vreg r).full) = [] ∧
    (let g := withV user 63 owed
     (∀ h ∈ (stream 0 g).halves ((stream 0 g).active q0),
       (stream 0 g).check (machine 0 g) (Need.atL.names [(stream 0 g).rename h.1 63]) = none) ∧
     ((stream 0 g).ents.map fun e => (stream 0 g).rename e 63).filter (fun r => !(g.arch.vreg r).full) = [63]) ∧
    (stream 0 user).halves ((stream 0 user).active q0) = [(0, 0xFFFFFFFF)] ∧ user.arch.freeEntry = some 1 ∧
    (user.arch.path 0).valid = true ∧ (stream 0 user).ents.Nodup ∧
    ((stream 0 sides).halves ((stream 0 sides).active q0)).length = 2 ∧
    (let s := teamMachine user team { context with dbgctl := 1 }
     (s.ctx 0).dbgctl.getLsbD 0 = true ∧ (s.ctx 0).dbgctl.getLsbD 2 = false ∧ (s.ctx 0).dbgctl.getLsbD 13 = false) ∧
    isRanene 0 = false ∧ isRanene 143 = false ∧ isRanene 144 = true := by decide +kernel

/-- ExitRemovesLanes: a live path of a group in which none waits; guard 1 keeps every lane, guard 0 none. -/
theorem test_met_exit :
    (∀ n, n < 32 → (user.arch.path n).valid = true → (user.arch.path n).state ≠ .joinWait) ∧ (user.arch.path 0).link = none ∧
    (user.arch.path 0).mask &&& ~~~ ((user.arch.path 0).mask &&& (stream 0 user).guard ⟨1, .none⟩) ≠ 0 ∧
    (user.arch.path 0).mask &&& ~~~ ((user.arch.path 0).mask &&& (stream 0 user).guard q0) = 0 := by decide +kernel

/-- TrapSidesTheStream: a group with nothing unretired, a privileged one, and one with an older instruction. -/
theorem test_met_traps : user.settled = true ∧ busy.settled = false ∧ priv.settled = true ∧
    ((machine 0 user).ctx 0).dbgctl.getLsbD 11 = false ∧ (∀ e ∈ (stream 0 sides).ents, e < 32) ∧ (stream 0 sides).ents.Nodup := by
  decide +kernel

/-- A consist at its join point 0 with one more melded peer, entry 2, elsewhere. -/
def absent : Group := { sides with arch := sides.arch.setPath 2 { sides.arch.path 0 with link := none, mask := 0, em := 0, pn := 3 } }

/-- ConsistsFormAndEnd, SplitAndJoin: a consist that waits for entry 2, and one whose sides are its only peers. -/
theorem test_met_consist_waits :
    (stream 0 absent).meld = true ∧ (stream 0 absent).topIsMe = true ∧ (∀ e ∈ (stream 0 absent).ents, e < 32) ∧
    (stream 0 absent).ents.Nodup ∧
    (∃ k ∈ absent.arch.peers 0, k ∉ (stream 0 absent).ents ∧ ((absent.arch.path k).state ≠ .joinWait ∨ (absent.arch.path k).pn ≠ 0)) ∧
    (sides.arch.path 0).side = false ∧ (sides.arch.path 1).side = true := by decide +kernel

/-- ExitRemovesLanes: a consist from which EXIT takes the lanes of side 1, and one that keeps every lane. -/
theorem test_met_exit_consist :
    (sides.arch.path 0).link = some 1 ∧ (sides.arch.path 1).link = some 0 ∧
    (∀ n, n < 32 → (sides.arch.path n).valid = true → (sides.arch.path n).state ≠ .joinWait) ∧
    (let g := { sides with arch := sides.arch.setP 1 0xFFFFFFFF 0xFFFF0000 }
     let out := g.arch.maskOf [0, 1] &&& (stream 0 g).guard ⟨1, .none⟩
     let a := (stream 0 g).advanceArch g.arch
     (a.path 0).mask &&& ~~~ out ≠ 0 ∧ (a.path 1).mask &&& ~~~ out = 0) := by decide +kernel

/-- ExitRemovesLanes: the path for which entry 1 waits at packet 0 exits. -/
theorem test_met_exit_joins :
    (stream 0 joiners).ents = [0] ∧ (joiners.arch.path 0).jstack.head? = some 0 ∧ (joiners.arch.path 0).state = .ready ∧
    (joiners.arch.path 0).meld = false ∧ (joiners.arch.path 0).link = none ∧ (joiners.arch.path 0).valid = true ∧
    (joiners.arch.path 0).mask &&& ~~~ ((stream 0 joiners).guard q0) = 0 ∧
    (joiners.arch.peers 0).filter (· ≠ 0) = [1] ∧
    (∀ n, n < 32 → (joiners.arch.path n).valid = true → ((joiners.arch.path n).state = .joinWait ↔ n ∈ [1])) ∧
    (joiners.arch.path 1).pn = 0 := by decide +kernel

/-- LaneWordResults: VCLZ of 0 and of 1, VPOPC of all ones, VBREV of 1 (Table 09-4). -/
theorem test_counts : v2Op .clz 0 0 0 = 32 ∧ v2Op .clz 1 0 0 = 31 ∧ v2Op .popc 0xFFFFFFFF 0 0 = 32 ∧
    v2Op .brev 1 0 0 = 0x80000000 := by decide +kernel

/-! ### Memory -/

/-- Scratch byte 0 of the team, in s33, and device time past every %vt. -/
def scratch0 : DWord := 0xFF00000000000000
def loads : Group := withS user 33 scratch0
def timed (s : State) : State := { s with clk := 4 }
def scratchMachine (g : Group) : State := timed (teamMachine g { team with scr := [0] } context)

theorem issues_scratch (g : Group) : Issues (scratchMachine g) (stream 0 g) := issues_machine 0 g

/-- MemoryInstructionsDispatch: an acquire-release ATOM on the team's scratch, every check passing. -/
def atomForm : MemForm := ⟨memOf .atom 4 false 0 ⟨2, 3, 0, 0⟩, false, true, 0, Quals.modx (quals 0), 16, 0, 33⟩

theorem test_met_memory :
    memForm (.atomAddI32 0 16 0 33 ⟨2, 3, 0, 0⟩) = some (atomForm, quals 0) ∧
    MemReady (stream 0 loads) (scratchMachine loads) atomForm ((stream 0 loads).active q0) scratch0 := by
  refine ⟨rfl, ⟨rfl, ?_, ?_, ?_, ?_, ?_, ?_, ?_, ?_⟩⟩
  · exact reads_now rfl _ _ (by decide +kernel)
  · decide +kernel
  · decide +kernel
  · decide +kernel
  · decide +kernel
  · decide +kernel
  · intro home; rfl
  · intro x hx core part n o off h
    have hl : ∀ x ∈ memLanes atomForm (stream 0 loads) (scratchMachine loads) ((stream 0 loads).active q0) scratch0,
        (match x.at' with | .ok (.slot .., _) => false | _ => true) = true := by decide +kernel
    have := hl x hx; rw [h] at this; cases this

/-- ScalarAccessesDispatch, CacheControlsAct: an address that is located, one that is misaligned, and one in the slot window. -/
theorem test_met_locate :
    (scratchMachine loads).locate 0 0 loads false false 8 .l 0 scratch0 = .ok (.scratch 0 0 0, 0) ∧
    (scratchMachine loads).locate 0 0 loads true false 4 .l 0 (scratch0 + 98303) = .error causeMisaligned ∧
    (scratchMachine loads).locate 0 0 loads true false 4 .l 0 (scratch0 + 98304) = .error causeProtection ∧
    (scratchMachine loads).locate 0 0 loads true true 128 .l 0 (scratch0 + 98176) = .ok (.scratch 0 0 98176, 0) ∧
    inClass 0xFF10000000000000 0xFF1 = true ∧ inClass scratch0 0xFF1 = false ∧ loads.conflict [.scratch 0 0 0] true = false := by
  refine ⟨?_, ?_, ?_, ?_, ?_, ?_, ?_⟩ <;> decide +kernel

/-- AccessesPerform: the last word of a line, and F 12 with 8 bytes. -/
theorem test_met_access : 124 + (memOf .atom 4 false 15 ⟨2, 0, 0, 0⟩).size ≤ 128 ∧ 120 + (memOf .red 8 false 12 ⟨2, 0, 0, 0⟩).size ≤ 128 ∧
    (memOf .red 8 false 12 ⟨2, 0, 0, 0⟩).size = (if 12 = 12 ∨ 12 = 13 then 8 else 4) := by decide +kernel

/-- FencesOrder: at the reset clock nothing is released device-wide; later all is; a FENCE.ENG waits for the copies seen. -/
theorem test_met_fences :
    (machine 0 user).released user 1 = false ∧ (scratchMachine user).released user 2 = true ∧ (scratchMachine user).loaded user 2 = true ∧
    (machine 0 user).loaded user 1 = false ∧ (scratchMachine user).seenCopies user = 0 ∧
    (let g := { user with seen := [0] }
     let s := { teamed g with chans := [(0, { Channel.zero with vtDev := 5 })] }
     s.ns ≤ s.seenCopies g ∧ s.seenCopies g ≠ 0) := by decide +kernel

/-- LoadDataArrives: an LDU of s5 that has been answered, and one that has not. -/
def ldu (st : ReqStat) : Entry :=
  ⟨3, 0, 0, 0, .l, .mem (memOf .loadS 4 true 0 ⟨0, 0, 0, 0⟩) [⟨0, 0, 5, 0, 0, 0, none, 0, .l⟩] []
    [⟨.scratch 0 0 0, [⟨0, 5, 0, 0, 0, 0x80000000⟩], st, none, 0, 0⟩], .posted, 0, [], Arch.start 0, Arch.start 0, none⟩
def awaits (st : ReqStat) : Group := { user with rob := [ldu st], seq := 4, arch := { user.arch with sPend := [(5, 3)] } }

theorem test_met_arrival :
    (machine 0 (awaits .done)).mayArrive (ldu .done) = true ∧ (ldu .done).arrivable = true ∧
    (awaits .done).rob.filter (fun e => e.pos == 3 && e.arrivable && (machine 0 (awaits .done)).mayArrive e) = [ldu .done] ∧
    (5, 3) ∈ (awaits .done).arch.sPend ∧ (machine 0 (awaits .sent)).mayArrive (ldu .sent) = false ∧
    (ldu .done).memOp = some (memOf .loadS 4 true 0 ⟨0, 0, 0, 0⟩) := by decide +kernel

/-- PostsLive: a post at K that is next and ready; the same executed, and released, alone in the window. -/
def kPost (st : Stage) : Entry :=
  ⟨0, 0, 0, 0, .k, .lane (.alu .add) [halfAt .k], st, 0, [], (withV user 8 atK).arch, (withV user 8 atK).arch, none⟩
def posted (st : Stage) : Group :=
  { withV user 8 { atK with prods := [(0, 0xFFFFFFFF)] } with rob := [kPost st], seq := 1 }

theorem test_met_posts :
    (machine 0 (posted .posted)).group 0 0 = some (posted .posted) ∧
    (posted .posted).rob.filter (fun x => x.pos == 0) = [kPost .posted] ∧ (posted .posted).nextAt (kPost .posted) = true ∧
    (halfAt .k).ready (.alu .add) (kPost .posted).before = true ∧ (kPost .posted).units [halfAt .k] = [] ∧
    (machine 0 (posted .posted)).firstInLine [] (0, 0, 0) = true ∧ ((kPost .posted).before.vreg 8).place = .k ∧
    (posted .posted).frameClear (kPost .posted) [halfAt .k] = true ∧
    (∀ r ∈ (halfAt .k).results (.alu .add) (kPost .posted).before (Quals.modx (quals 0)), r.2.2 &&& enables (kPost .posted).before.fcr = 0) ∧
    (posted .executed).rob = [kPost .executed] ∧ (posted .released).arch.valid ≠ [] ∧
    (∀ x ∈ (posted .released).rob, 0 ≤ x.pos → x.stage = .released) ∧
    (posted .posted).rob.find? (fun x => 0 ≤ x.pos && x.stage != .released) = some (kPost .posted) := by
  refine ⟨by simp [machine, State.group, State.setGroup], ?_, ?_, ?_, ?_, ?_, ?_, ?_, ?_, ?_, ?_, ?_, ?_⟩ <;> decide +kernel

/-! ### Caches, banks, spans and places -/

/-- CacheControlsAct: a translated line of DRAM, clean and reachable, which nobody caches; and a page that is not mapped. -/
def mapped (g : Group) : State := { timed (teamed g) with tlb := [⟨0, 0, 0x10000, 4096, 0x1000, true, true, true⟩] }

theorem test_met_line :
    (mapped user).locate 0 0 user false false 1 .l 0 0x10FFF = .ok (.line 0 0x1F80, 127) ∧
    ((mapped user).latest 0 0x1F80).2 = false ∧ (((mapped user).settleLine 0 0x1F80).reachable 0 0x1F80) = true ∧
    (mapped user).uncached 0 0x1F80 .l 0 = false ∧ (mapped user).cached 0 0x1F80 = none ∧
    ((mapped user).cluster 0).pending 0x1F80 = false ∧ (mapped user).uncached 0 0x1F80 .l 3 = true ∧
    (mapped user).locate 0 0 user false false 1 .l 0 0x11000 = .error causeTranslation := by
  refine ⟨?_, ?_, ?_, ?_, ?_, ?_, ?_, ?_⟩ <;> decide +kernel

/-- SpansAndBanks: SPILL of v48 to v63; BANKM of a held bank, of one in its mode and of a scratch bank; a draining bank. -/
theorem test_met_spans :
    spanHalves (stream 0 user) q0 48 ≠ [] ∧
    (∀ h ∈ spanHalves (stream 0 user) q0 48, (stream 0 user).check (machine 0 user) (spanNeed (stream 0 user) true 16 h) = none) ∧
    (∀ h ∈ spanHalves (stream 0 user) q0 48, ∀ r ∈ (spanNeed (stream 0 user) true 16 h).waits, (user.arch.vreg r).full = true) ∧
    ((List.range 16).filter ((stream 0 user).firstIndex ≤ ·)).length = 16 ∧
    BankMode.ofCode 0 = .cache ∧ BankMode.ofCode 1 ≠ .cache ∧ (Cluster.zero.banks.getD 31 Bank.zero).holder = none ∧
    31 < Cluster.zero.banks.length ∧ (Bank.mk .scratch (some 0) false).holder ≠ none := by decide +kernel

/-- HomeMovesRegisters: v63 at L from K, a post slot being free; a place whose feature is clear; a register above LQ. -/
theorem test_met_home :
    (stream 0 user).isW 63 = false ∧ (63 : BitVec 6).toNat < user.lq ∧ user.posts + 1 ≤ 32 ∧ (user.arch.vreg 63).full = true ∧
    (stream 0 user).placeOpen (teamed user) .k = true ∧ (stream 0 user).placeOpen (machine 0 user) .h = false ∧
    (stream 0 sides).isW 63 = true ∧ ({ user with lq := 56 } : Group).lq ≤ (63 : BitVec 6).toNat := by decide +kernel

/-- DrainMfpmQuota: everything full, and v9 owed; a QUOTA of 64, of 72 and of 4; pool room. -/
theorem test_met_quota :
    (∀ n, n < 64 → (user.arch.vreg n).full = true) ∧ (posted .posted).arch.vreg 8 ≠ (user.arch.vreg 8) ∧
    ((posted .posted).arch.vreg 8).full = false ∧ (64 : DWord).toNat % 8 = 0 ∧ (64 : DWord).toNat ≤ 64 ∧ 64 < (72 : DWord).toNat ∧
    (4 : DWord).toNat % 8 ≠ 0 ∧ (machine 144 priv).team priv = none ∧ (teamed user).team user = some team ∧
    (teamed user).poolWaited user = false ∧ (64 : DWord).toNat - 56 ≤ team.pool := by
  refine ⟨?_, ?_, ?_, ?_, ?_, ?_, ?_, ?_, ?_, ?_, ?_⟩ <;> decide +kernel

/-! ### Slots, matrix, Mirmet -/

/-- Slot 5 of partition 0, owned by group 0 and present; the same waiting for an LDO. -/
def slotted (here : Bool) (g : Group) : State :=
  { timed (teamed g) with parts := [(0, { Part.zero with slots := [(5, { Slot.zero with owner := some 0, present := here })] })] }

/-- SlotsAct: an owned slot that is idle, one nobody has, an LDO from scratch that is ready, and one that has been answered. -/
def ldoUnits : List LineReq := [⟨.scratch 0 0 0, [], .done, none, 0, 0⟩, ⟨.scratch 0 0 128, [], .done, none, 0, 0⟩]
def ldoEntry : Entry :=
  ⟨0, 0, 0, 0, .l, .mem (memOf .ldo 16 false 0 ⟨0, 0, 0, 0⟩) [⟨0, 1, 5, 3, 0, 0, none, 0, .l⟩] [] ldoUnits, .posted, 0, [],
    Arch.start 0, Arch.start 0, none⟩
def loading : Group := { user with rob := [ldoEntry], seq := 1 }

theorem test_met_slots :
    ((slotted true user).slot 0 (partOf 0 0) 5).owner = some 0 ∧ ((slotted true user).slot 0 0 63).owner = none ∧
    (slotted true user).slotWaited 0 0 63 = false ∧ (slotted true user).slotIdle 0 0 5 true = true ∧
    (slotted false user).slotIdle 0 0 5 true = false ∧
    (stream 0 loads).ldoReqs (scratchMachine loads) scratch0 none =
      .ok [⟨.scratch 0 0 0, unitAccs 0 0 8, .todo, none, 0, 0⟩, ⟨.scratch 0 0 128, unitAccs 8 0 8, .todo, none, 0, 0⟩] ∧
    (stream 0 loads).ldoReqs (scratchMachine loads) (scratch0 + 98176) none = .error (FaultInfo.withAddr causeProtection (scratch0 + 98304)) ∧
    loading.ldoDone 5 = some ldoEntry ∧ ldoEntry.memFaults = [] ∧ user.ldoDone 5 = none := by
  refine ⟨?_, ?_, ?_, ?_, ?_, ?_, ?_, ?_, ?_, ?_⟩ <;> decide +kernel

/-- MatrixRuns: MMA.I8 into v56 to v63 from slot 5, ready; from a slot of another owner, not. -/
def mma : MatrixForm := ⟨false, 7, q0, false, 56, 20, 5, 0, 0, none⟩

theorem test_met_matrix :
    matrixForm (.mmaI8 q0 56 20 5) = some mma ∧ MatrixReady mma (stream 0 user) (slotted true user) ∧
    ((stream 0 user).slot (machine 0 user) 5).owner ≠ some (stream 0 user).iss.grp ∧
    (∀ e ∈ (stream 0 user).ents, ∃ h ∈ matrixHalves mma (stream 0 user), h.ent = e) := by
  refine ⟨rfl, ⟨?_, ?_, ?_, ?_, ?_, ?_, ?_, ?_⟩, ?_, ?_⟩ <;> decide +kernel

/-- A pass that can start, and one whose results are due. -/
def pass (due : Nat) (r : Option (List (Vector Word 32) × List (Nat × BitVec 5))) (ended : Bool) : Pass :=
  ⟨0, 0, none, false, 7, 5, 0xFFFFFFFF, 56, [], Vector.replicate 32 0, 0, 0, due, r, ended⟩
def passing (x : Pass) : State :=
  { timed (teamed user) with parts := [(0, { Part.zero with mtx := [x] })] }

theorem test_met_passes :
    ((passing (pass 0 none false)).part 0 0).endedPass 4 = none ∧
    (passing (pass 0 none false)).nextPass 0 0 = some (0, pass 0 none false) ∧
    ((passing (pass 0 none false)).part 0 0).forwarders 0 = [] ∧ ((passing (pass 0 none false)).part 0 0).duePass 4 = none ∧
    ((passing (pass 4 (some ([], [])) true)).part 0 0).duePass 4 = some (pass 4 (some ([], [])) true) ∧
    (machine 0 user).nextPass 0 0 = none ∧ ((machine 0 user).part 0 0).endedPass 0 = none := by
  refine ⟨?_, ?_, ?_, ?_, ?_, ?_, ?_⟩ <;> decide +kernel

/-- AopsAct: ACNT on the frame v8, dispatched and at its unit; ACMP in its unit, within a sub-wave, before the next one and
at the end. -/
def frame (row : Word) : VReg :=
  { VReg.zero with place := .m, tags := List.replicate 8 0, page := some ⟨0, 65536, 0, true, true, false⟩, lanes := Vector.ofFn fun l => if l.val = 3 then row else 0 }
def framed (row : Word) (rob : List Entry) : Group := { withV user 8 { frame row with prods := [(0, 0xFFFFFFFF)] } with rob := rob, seq := 1 }
def aopEntry (o : AopOp) (row : Word) : Entry :=
  ⟨0, 0, 0, 0, .m, .aop o [halfAt .m] 0, .posted, 0, [], (withV user 8 (frame row)).arch, (withV user 8 (frame row)).arch, none⟩
def atUnit (o : AopOp) (row : Word) : State :=
  { timed (teamed (framed row [aopEntry o row])) with units := [(0, { MUnit.zero with line := [(0, 0, 0)] })] }

theorem test_met_aops :
    aopForm (.acnt q0 8) = some ⟨.acnt, q0, 8, 0, 0⟩ ∧
    AopReady ⟨.acnt, q0, 8, 0, 0⟩ (stream 0 (withV user 8 (frame 0))) (teamed (withV user 8 (frame 0))) ∧
    (framed 0 [aopEntry .acnt 0]).nextAt (aopEntry .acnt 0) = true ∧
    (framed 0 [aopEntry .acnt 0]).aopReady (aopEntry .acnt 0) [halfAt .m] (aopReads .acnt) = true ∧
    (atUnit .acnt 0).jobsOver 0 0 0 = true ∧ (atUnit .acnt 0).unitFree (0, 0) = true ∧
    (atUnit .acnt 0).firstInLine [(0, 0)] (0, 0, 0) = true ∧ (atUnit .aact 0).barred .aact (0, 0) = false ∧ (frame 0).page ≠ none ∧
    ((aopEntry .acnt 0).frame (halfAt .m)).unit = (0, 0) ∧ (aopEntry .acnt 0).aopFault .acnt (halfAt .m) = none ∧
    (aopEntry .awrt 0xFFFFFFFF).aopFault .awrt (halfAt .m) = none ∧ noRow (frame 0xFFFFFFFF) = true ∧
    (aopEntry .aact 0).aopFault .aact (halfAt .m) = none := by
  refine ⟨rfl, ⟨?_, ?_, ?_, ?_⟩, ?_, ?_, ?_, ?_, ?_, ?_, ?_, ?_, ?_, ?_, ?_, ?_⟩ <;> decide +kernel

def job (now todo : List Nat) : RowJob := ⟨0, 0, 0, 8, 0, now, todo, 0, false, false⟩

theorem test_met_rows :
    (framed 0 [aopEntry .acmp 0]).entry 0 .m = some (aopEntry .acmp 0) ∧ [halfAt .m].find? (fun k => k.d == 8) = some (halfAt .m) ∧
    (job [0] []).now ≠ [] ∧ (job [] [7]).todo ≠ [] ∧ max (max 1 (job [] [7]).since) (0 + (atUnit .acmp 0).mfaw 0) ≤ 32 ∧
    (atUnit .acmp 0).actMax 0 = 8 ∧ ((frame 131071).lane 3).toNat < 131072 ∧ (frame 0).unit.2 < 32 ∧
    ((framed 0 []).arch.vreg 8).owed 0 = 0xFFFFFFFF ∧ Memory.wf (atUnit .acmp 0).mem = true ∧
    ({ State.reset with mreg := [(bankpartReg 0, 1)] }).bankSplit 0 = true := by
  refine ⟨?_, ?_, ?_, ?_, ?_, ?_, ?_, ?_, ?_, ?_, ?_⟩ <;> decide +kernel

/-! ### Copies, couplings, barriers -/

/-- CopiesRun: the team's channel 0; a copy within scratch, one of a terabyte; room and no room; waits over and not. -/
def copying (x : Channel) : State := { scratchMachine user with chans := [(0, x)] }
def copyOp : CopyOp := ⟨1, scratch0, scratch0 + 256, 64, 1, 64, 0, 0, 0, true, 0⟩

theorem test_met_copies :
    (((scratchMachine user).team user).bind fun t => t.chans[0]?) = some 0 ∧
    (((scratchMachine user).team user).bind fun t => t.chans[1]?) = none ∧
    (stream 0 user).copyFault (scratchMachine user) scratch0 (scratch0 + 256) 64 1 64 false = none ∧
    2 ^ 40 ≤ 1 * (0x10000000000 : DWord).toNat ∧ (scratchMachine user).released user 0 = true ∧
    ((copying Channel.zero).chan 0 0).ops.length < 16 ∧
    (copying { Channel.zero with issued := 2, completed := 1 }).copyOver 0 (.copied 0 2) = false ∧
    (copying { Channel.zero with issued := 2, completed := 2 }).copyOver 0 (.copied 0 2) = true ∧
    ({ Channel.zero with ops := [copyOp] } : Channel).opAt (scratch0 + 63) = some copyOp ∧
    ({ Channel.zero with ops := [copyOp] } : Channel).opAt (scratch0 + 64) = none := by
  refine ⟨?_, ?_, ?_, ?_, ?_, ?_, ?_, ?_, ?_, ?_⟩ <;> decide +kernel

theorem test_met_copy_piece :
    copyOp.done < copyOp.rows * copyOp.len ∧ copyOp.srcLines = [scratch0 + 256] ∧ isUser (scratch0 + 256) = false ∧
    inClass (scratch0 + 256) 0xFF2 = false ∧ (copyOp.dst + BitVec.ofNat 64 copyOp.done).toNat = copyOp.dst.toNat + copyOp.done ∧
    (copying { Channel.zero with ops := [copyOp] }).locate 0 0 user false false 1 .l 0 (scratch0 + 256) = .ok (.scratch 0 0 256, 0) ∧
    (copying { Channel.zero with ops := [copyOp] }).locate 0 0 user true false 1 .l 0 scratch0 = .ok (.scratch 0 0 0, 0) ∧
    Memory.wf (copying { Channel.zero with ops := [copyOp] }).mem = true := by
  refine ⟨?_, ?_, ?_, ?_, ?_, ?_, ?_, ?_⟩ <;> decide +kernel

/-- CouplingsPassHandles: QINIT of depth 1 and of depth 0; a coupling with room, full, empty and closed; a deferred one. -/
theorem test_met_couplings :
    (teamed user).launch user = some launched ∧ (0 : BitVec 6).toNat < header.nq ∧ header.nq ≤ (1 : BitVec 6).toNat ∧
    (Coupling.zero.opened = false ∧ 1 ≤ (1 : DWord).toNat ∧ (1 : DWord).toNat ≤ 1024 ∧ 0 < team.groups.length) ∧
    ¬ 1 ≤ (0 : DWord).toNat ∧ ¬ (1025 : DWord).toNat ≤ 1024 ∧
    (let x : Coupling := ⟨true, false, true, 2, 0, 0, 1, 1, [], true⟩
     x.opened = true ∧ x.closed = false ∧ x.prod = user.gidx ∧ x.cons = user.gidx ∧ 0 < x.allow ∧ x.defer = true ∧
     (1 : DWord).toNat ≤ x.ret ∧ x.handles = [] ∧ x.allow + x.handles.length + x.ret = x.depth) ∧
    (let x : Coupling := ⟨true, true, false, 1, 0, 0, 0, 0, [7], true⟩
     x.allow = 0 ∧ x.handles = 7 :: [] ∧ x.closed = true ∧ x.allow + x.handles.length + x.ret = x.depth) ∧
    (timed (teamed user)).released user 0 = true ∧ (teamed user).released user 0 = false ∧ busy.rob ≠ [] := by
  refine ⟨?_, ?_, ?_, ?_, ?_, ?_, ?_, ?_, ?_, ?_, ?_⟩ <;> decide +kernel

/-- BarriersCountArrivals: a barrier of one that has not been reached, one reached already, one of weight 32, and no BINIT. -/
theorem test_met_barriers :
    (0 : BitVec 6).toNat < header.nbar ∧ header.nbar ≤ (1 : BitVec 6).toNat ∧ Barrier.zero.count = 0 ∧ Barrier.zero.arr = 0 ∧
    (let x : Barrier := ⟨1, 0, false, 0, 0⟩
     x.count ≠ 0 ∧ x.arrived.getLsbD user.gidx = false ∧ x.arr + 1 ≤ x.count ∧ x.arr + 1 = x.count) ∧
    (let x : Barrier := ⟨3, 1, false, 2, 0⟩
     x.arrived.getLsbD user.gidx = false ∧ x.arr + 1 ≤ x.count ∧ x.arr + 1 ≠ x.count ∧ x.count < x.arr + 32) ∧
    (let x : Barrier := ⟨2, 1, false, 1, 0⟩; x.arrived.getLsbD user.gidx = true) ∧
    (32 : DWord).toNat ≤ 32 ∧ 32 < (33 : DWord).toNat ∧ (user.arch.path 0).wait ≠ some (.barrier 0) ∧ user.gidx < 32 := by
  refine ⟨?_, ?_, ?_, ?_, ?_, ?_, ?_, ?_, ?_, ?_, ?_⟩ <;> decide +kernel


/-- Zero bytes. -/
theorem natOfBytes_zeros (n : Nat) : natOfBytes (List.replicate n 0#8) = 0 := by
  induction n with
  | zero => rfl
  | succ n ih => simp [List.replicate_succ, natOfBytes, ih]

theorem fieldOf_zeros (n o k : Nat) : fieldOf (List.replicate n 0#8) o k = 0 := by
  simp [fieldOf, natOfBytes_zeros]

theorem slotsOf_zeros (n : Nat) : slotsOf (List.replicate n 0#8) = [] := by simp [slotsOf, fieldOf_zeros]

theorem handlesOf_zeros (n : Nat) : handlesOf (List.replicate n 0#8) = (List.replicate 16 [], 0x500) := by
  simp only [handlesOf, record, List.drop_replicate, List.take_replicate, fieldOf_zeros]
  rfl

/-! ### Launches -/

/-- Interface 0 enabled on every die with every feature; its page 0 is host memory, and the host has sent its first two lines,
which hold these bytes, and has observed two writes: a byte of zeros at 0x400, and 16 bytes of ones at 0x40. -/
def hosted (bs : List (Nat × List Byte)) : State :=
  let s := timed (teamed user)
  let m := (bs.foldl (fun (s : State) x => s.writeBytes x.1 x.2) State.reset).mem
  { s with mgmt := { s.mgmt with viMap := [(0, 0x10F)] }, mreg := [(viPolicyReg 0, 0xFFF)],
           tlb := [⟨0, 0, 0, 4096, 2 ^ 51, true, true, false⟩],
           ctxs := [(0, { context with hostGot := [(0, Line.ofBytes (Memory.bytes m 0 128), false), (128, Line.ofBytes (Memory.bytes m 128 128), false)],
                                       hostDone := [(0x400, 0, byteMask 0 1),
                                         (0, Line.ofBytes (List.replicate 64 0 ++ List.replicate 16 1), byteMask 64 16)] })] }

/-- The header of a launch of one team (Table 14-1): magic, version, widths, GPT 1, budget 8, extents 1, LQ 8, bitmap at 0x400. -/
def headerBytes : List (Nat × List Byte) :=
  [(0, [0x59, 0x4C, 0x48, 0x31, 1]), (0x20, [5]), (0x2A, [1]), (0x2C, [8]), (0x38, [1]), (0x3C, [1]), (0x40, [1]), (0x44, [1]),
   (0x58, [8]), (0x99, [4])]

/-- Whether a header at address 0 is read, its code, and whether its bitmap is cleared. -/
def headerRead (s : State) : Bool × Nat × Bool :=
  match s.devRead 0 0 256 with
  | (u, .ok bs) => (true, u.headerCode 0 bs, (u.clearBitmap 0 (Header.ofBytes bs)).2.isNone)
  | _ => (false, 0, false)

/-- LaunchInstructions, LaunchQueuesAndTeams: a header that is read and accepted, one that is refused, one that cannot be
read; launch 1 is known; released at the device. -/
theorem test_met_launches :
    headerRead (hosted headerBytes) = (true, 0, true) ∧ headerRead (hosted []) = (true, 0x40, true) ∧
    (headerRead (teamed user)).1 = false ∧ (hosted []).released user 1 = true ∧ ((hosted []).ctx 0).launch 1 = some launched ∧
    (hosted []).viEnabled 0 = true ∧ (teamed user).viEnabled 0 = false ∧ (hosted []).paused 0 = false ∧ (64 : DWord).toNat % 64 = 0 ∧
    (hosted []).launch user = some launched ∧ (63 : DWord).toNat % 64 ≠ 0 := by
  refine ⟨?_, ?_, ?_, ?_, ?_, ?_, ?_, ?_, ?_, ?_, ?_⟩ <;> decide +kernel

/-- LaunchQueuesAndTeams: a queue with an entry, read and answered; a waiting team that fits on core 0, and a team that is over. -/
def queued : State :=
  { hosted headerBytes with mreg := [(viPolicyReg 0, 0xFFF), (lnqReg 0 0 0, 1), (lnqReg 0 0 3, 1)] }
def waiting : Launch := { launched with sent := [], state := .waiting }
def placing : State := { hosted [] with ctxs := [(0, { context with launches := [waiting] })], teams := [], groups := [] }

theorem test_met_queues :
    queued.viEnabled 0 = true ∧ (queued.mr (lnqReg 0 0 0)).getLsbD 0 = true ∧ queued.mr (lnqReg 0 0 2) ≠ queued.mr (lnqReg 0 0 3) ∧
    (queued.mr (lnqReg 0 0 2)).toNat < 2 ^ 16 ∧ (queued.devRead 0 0 16).2.toBool = true ∧ ((teamed user).devRead 0 0 16).2.toBool = false ∧
    placing.canPlace 0 waiting 0 0 = true ∧ placing.canPlace 0 waiting 1 0 = false ∧
    (hosted []).teamOver { team with groups := [] } = true ∧ (hosted []).teamOver team = false := by
  refine ⟨?_, ?_, ?_, ?_, ?_, ?_, ?_, ?_, ?_, ?_⟩ <;> decide +kernel

/-! ### System registers, the window, management instructions -/

/-- SystemRegisters: which registers need privilege; %fcr with code 4 and with code 5; a TLBI selector and two that are none. -/
theorem test_met_system :
    (0x2F : BitVec 6).toNat / 16 = 2 ∧ (0x13 : BitVec 6).toNat / 16 ≠ 2 ∧ (0x1F : BitVec 6).toNat / 8 = 3 ∧ 48 ≤ (0x3F : BitVec 6).toNat ∧
    (4 : DWord).toNat % 8 < 5 ∧ 5 ≤ (5 : DWord).toNat % 8 ∧
    ((0x23F : DWord).toNat < 2 ^ 10 ∧ (0x23F : DWord).toNat / 2 ^ 6 % 4 = 0) ∧ ¬ (0x40 : DWord).toNat / 2 ^ 6 % 4 = 0 ∧
    ¬ (0x400 : DWord).toNat < 2 ^ 10 ∧ (timed (machine 144 priv)).released priv (scopeClass 4) = true ∧
    (machine 144 priv).released priv (scopeClass 5) = false ∧ (machine 144 priv).accessing 0xF none = false := by
  refine ⟨?_, ?_, ?_, ?_, ?_, ?_, ?_, ?_, ?_, ?_, ?_, ?_⟩ <;> decide +kernel

/-- WindowActs: a privileged group that selects and holds group 0 of core 0, whose path 0 is in the siding. -/
def holder : Group := { priv with wsel := 0x1000000, hold := true, held := true }
def sided : Group := withPath user fun p => { p with state := .siding, cause := causeQuota }
def window (g : Group) : State := (machine 144 holder).setGroup 0 0 g

theorem test_met_window :
    (window sided).selected 144 holder = some (0, 0, sided) ∧ (machine 144 holder).selected 144 holder = none ∧
    (sided.arch.path 0).valid = true ∧ (sided.arch.path 0).state = .siding ∧ ¬ (user.arch.path 0).state = .siding ∧
    (window user).quiet 0 0 user = true ∧ (window user).quiet 0 0 busy = false ∧
    (window user).holders 0 0 = [(groupKey 144 0, holder)] ∧ holder.held = true ∧ sided.team = some 0 := by
  refine ⟨?_, ?_, ?_, ?_, ?_, ?_, ?_, ?_, ?_, ?_⟩ <;> decide +kernel

/-- WinValue, WinWrites: items at the ends of each range. -/
theorem test_window_items :
    0x80 + 32 * 63 + 31 = 0x87F ∧ 0x880 + 63 = 0x8BF ∧ 0x1000 + 0x80 * 31 + 0x7F = 0x1FFF ∧
    ¬ (0x8C6 : Nat) < 0x8C6 ∧ (0x8C7 ≤ 0x8C7 ∧ 0x8C7 < 0x1000) ∧ 5 ≤ (7 : DWord).toNat % 8 := by decide

/-- ManagementForms: a page in a host window, coherent; a team that CTXSV gathers. -/
def biased : State :=
  { machine 144 priv with mreg := [(rangeReg 0 0, 1), (rangeReg 0 1, 0x2000), (rangeReg 0 3, 0x20000), (hwReg 0 0, 0x1F), (hwReg 0 2, 0x1000),
      (hwReg 0 3, 0x4000)] }
def gathered : State := { window { user with ended := true } with teams := [(0, team)], ctxs := [(0, context)] }

/-- The bytes of an image with one used state, whose RECALL leaves it empty: header, and zeros for its entries. -/
def slimHead : List Byte := List.replicate 18 0 ++ [1] ++ List.replicate 14 0 ++ [9] ++ List.replicate 30 0
def slimBytes : List Byte := slimHead ++ List.replicate 1024 0#8
def slimImage : Image :=
  ⟨List.replicate 16 0, 0, 1, 0, 0, List.replicate 5 0, [0x900] ++ List.replicate 15 0, List.replicate 256 0⟩
def slim (x : Byte) : State := { machine 144 priv with mem := [(mgmtCell 0x1000000 + 18, 1), (mgmtCell 0x1000000 + 33, x)] }

theorem slim_entries (n : Nat) : (List.range n).map (fun i => BitVec.ofNat 32 (fieldOf slimBytes (64 + 4 * i) 4)) = List.replicate n 0 := by
  rw [List.eq_replicate_iff]
  refine ⟨by simp, ?_⟩
  intro b hb
  simp only [List.mem_map] at hb
  obtain ⟨i, -, rfl⟩ := hb
  have h : slimBytes.drop (64 + 4 * i) = List.replicate (1024 - 4 * i) 0#8 := by
    rw [slimBytes, ← List.drop_drop, List.drop_left' (by decide), List.drop_replicate]
  simp only [fieldOf, h, List.take_replicate, natOfBytes_zeros]
  rfl

theorem slim_image : Image.ofBytes slimBytes = slimImage := by
  simp only [Image.ofBytes, slim_entries]
  decide +kernel

/-- ManagementForms: an image that passes every check, one of nothing but zeros, and an address that is not aligned. -/
theorem test_met_images :
    (slim 9).imageAt 0xFF30000001000000 = some slimBytes ∧ (slim 9).checkImage 5 slimBytes = 0 ∧
    ((machine 144 priv).imageAt 0xFF30000001000000).isSome = true ∧ (machine 144 priv).imageAt 0xFF30000001000001 = none := by
  have h : slimImage.check ((slimBytes.drop 29).take 3) = 0 := by decide +kernel
  refine ⟨by decide +kernel, ?_, by decide +kernel, by decide +kernel⟩
  simp only [State.checkImage, slim_image, h]
  decide +kernel

/-- A header of nothing but zeros defines nothing: RECALL is missing (code 2). -/
theorem test_met_bad_image : Image.check { slimImage with defs := List.replicate 16 0 } [0, 0, 0] = 2 := by decide +kernel

theorem test_met_bias :
    biased.windowOf 0 0 = some 0 ∧ biased.windowOf 0 1 = none ∧ biased.lineHcoh 0 = true ∧ biased.lineHcoh 0x2000 = false ∧
    biased.flipOf 0 0 = none ∧ biased.bias 0 0 = 0 := by
  refine ⟨?_, ?_, ?_, ?_, ?_, ?_⟩ <;> decide +kernel

theorem test_met_gather :
    (window user).selected 144 holder = some (0, 0, user) ∧ gathered.teamStopped team = false ∧
    (0xFF30000001000000 : DWord).toNat % 128 = 0 ∧ mgmtOff 0xFF30000001000000 1 = some 0x1000000 ∧ mgmtOff 0xFF30000000FFFF80 1 = none ∧
    gathered.heldByOthers team (groupKey 144 0) = false ∧ gathered.gathering 0 = false ∧ gathered.teamSettled team = true ∧
    mgmtOff 0xFF30000008FFFF80 0x80 = some 0x8FFFF80 ∧ mgmtOff 0xFF30000008FFFF80 0x100 = none := by
  refine ⟨?_, ?_, ?_, ?_, ?_, ?_, ?_, ?_, ?_, ?_⟩ <;> decide +kernel

/-- A team image of one group that has ended (Tables 15-12, 15-13): MAGIC, VERSION, NGRP, SIZE 0x640, LAUNCH 1, GOFF 0x100,
SOFF 0x140, and of the group SIZE 0x40, LQ 64, ended. -/
def imageCells : List (Nat × Byte) :=
  [(0, 0x59), (1, 0x54), (2, 0x43), (3, 0x47), (4, 1), (6, 1), (8, 0x40), (9, 6), (16, 1), (41, 1), (48, 0x40), (49, 1),
   (260, 0x40), (264, 0x40), (304, 1)]
def savedAt : State :=
  { gathered with mem := imageCells.map fun c => (mgmtCell 0x1000000 + c.1, c.2), teams := [], groups := [],
                  mgmt := { gathered.mgmt with viMap := [(0, 0x10F)] } }

/-- The image in memory, its header, and what of it follows the header. -/
def imageHead : List Byte :=
  [0x59, 0x54, 0x43, 0x47, 1, 0, 1, 0, 0x40, 6] ++ List.replicate 6 0 ++ [1] ++ List.replicate 24 0 ++ [1] ++ List.replicate 6 0 ++
    [0x40, 1] ++ List.replicate 206 0
def imageGroup : List Byte :=
  List.replicate 4 0 ++ [0x40] ++ List.replicate 3 0 ++ [0x40] ++ List.replicate 39 0 ++ [1] ++ List.replicate 15 0
def image : List Byte := imageHead ++ imageGroup ++ List.replicate 1280 0#8
def savedHead : ImageHead := ⟨1, 0x640, 1, 0, 0, 0x140, 0⟩

/-- Bytes past every cell. -/
theorem bytes_beyond (m : List Host.Cell) (a k : Nat) (h : ∀ c ∈ m, c.1 < a) : Memory.bytes m a k = List.replicate k 0#8 := by
  have hb : ∀ (m : List Host.Cell) (x : Nat), (∀ c ∈ m, c.1 < x) → Memory.byte m x = 0#8 := by
    intro m x
    induction m with
    | nil => intro _; rfl
    | cons c r ih =>
      intro h
      have hc := h c (by simp)
      simp only [Memory.byte]
      rw [if_neg (by omega)]
      exact ih fun d hd => h d (by simp [hd])
  rw [List.eq_replicate_iff]
  refine ⟨by simp [Memory.bytes], ?_⟩
  intro b hm
  simp only [Memory.bytes, List.mem_map] at hm
  obtain ⟨i, -, rfl⟩ := hm
  exact hb m _ fun c hc => by have := h c hc; omega

theorem bytes_add (m : List Host.Cell) (a n k : Nat) : Memory.bytes m a (n + k) = Memory.bytes m a n ++ Memory.bytes m (a + n) k := by
  simp [Memory.bytes, List.range_add, Nat.add_assoc, Function.comp_def]

theorem test_image_bytes :
    savedAt.mgmtBytes 0x1000000 0x100 = some imageHead ∧ savedAt.mgmtBytes 0x1000000 0x640 = some image ∧
    image.drop 0x140 = List.replicate 1280 0#8 ∧ image.drop 0x100 = imageGroup ++ List.replicate 1280 0#8 := by
  refine ⟨by decide +kernel, ?_, by decide +kernel, by decide +kernel⟩
  have hp : ((List.range ((0x1000000 % 128 + 0x640 + 127) / 128)).map fun i =>
    savedAt.cellLine (mgmtCell (0x1000000 / 128 * 128 + 128 * i))).any (·.2) = false := by decide +kernel
  have h1 : Memory.bytes savedAt.mem (mgmtCell 0x1000000) 0x140 = imageHead ++ imageGroup := by decide +kernel
  have h2 : ∀ c ∈ savedAt.mem, c.1 < mgmtCell 0x1000000 + 0x140 := by decide +kernel
  have h3 := bytes_add savedAt.mem (mgmtCell 0x1000000) 0x140 1280
  rw [h1, bytes_beyond _ _ _ h2] at h3
  simp only [State.mgmtBytes, hp, State.readBytes]
  exact congrArg some h3

theorem savedHead_read : ImageHead.ofBytes imageHead = some savedHead := by decide +kernel

theorem sized_of (h : ImageHead) (bs : List Byte) (scrb n : Nat) (gs : List (List Byte))
    (hg : groupImages h.ngrp (bs.drop 0x100) = gs) (hn : stateLength (bs.drop h.soff) scrb = n) :
    h.sized bs scrb = ((gs.all fun g => 0x40 ≤ g.length && g.length == groupLength g) &&
      h.soff == 0x100 + (gs.map List.length).foldl (· + ·) 0 && h.size == h.soff + n) := by
  subst hg hn; rfl

theorem stateLength_zeros (n : Nat) : stateLength (List.replicate n 0#8) 0 = 0x500 := by
  simp only [stateLength, handlesOf_zeros, slotsOf_zeros]; rfl

theorem sized_image : savedHead.sized image 0 = true := by
  have h : groupImages 1 (imageGroup ++ List.replicate 1280 0#8) = [imageGroup] := by decide +kernel
  rw [sized_of savedHead image 0 0x500 [imageGroup] ((congrArg (groupImages 1) test_image_bytes.2.2.2).trans h)
    ((congrArg (fun l => stateLength l 0) test_image_bytes.2.2.1).trans (stateLength_zeros 1280))]
  decide +kernel

/-- ManagementForms: CTXRS of an image, which is read, fits and finds its banks; an address that is not aligned. -/
theorem test_met_restore :
    savedAt.readImage 0xFF30000001000000 = .ok (savedHead, launched, image) ∧ savedAt.hasRoom 0 savedHead launched image = true ∧
    (savedAt.pickAllBanks 0 header).isSome = true ∧ savedAt.readImage 0xFF30000001000040 = .error 3 := by
  refine ⟨?_, ?_, ?_, ?_⟩
  · have h1 : mgmtOff 0xFF30000001000000 0x100 = some 0x1000000 := by decide +kernel
    have h2 : mgmtOff 0xFF30000001000000 savedHead.size = some 0x1000000 := by decide +kernel
    have h3 : (savedAt.ctx savedHead.vi).launch savedHead.launch = some launched := by decide +kernel
    have h4 : (0xFF30000001000000 : DWord).toNat % 128 = 0 := by decide
    have h5 : savedAt.mgmtBytes 0x1000000 savedHead.size = some image := test_image_bytes.2.1
    simp only [State.readImage, h4, h1, test_image_bytes.1, Option.bind_some, savedHead_read, h2, h5, h3]
    have h6 : savedHead.sized image launched.hdr.scrb = true := sized_image
    simp only [h6]
    decide +kernel
  · simp only [State.hasRoom, savedHead, test_image_bytes.2.2.1, slotsOf_zeros]
    decide +kernel
  · decide +kernel
  · decide +kernel


/-! ### Steps, homes, events -/

/-- StepRunsDecoded, DecodeEncode: a packet of one word, and one of a chain pair (03: `fadd.f32 v4, v1, v2 &` with a load). -/
def fetched (w : Nat) : State := State.reset.withFetchWord 96 w
def loaded : Group := { priv with arch := priv.arch.editPath 0 fun p => { p with run := 1 } }

/-- How many instructions the fetched packet's first chain group has, all allowed to a privileged group; none for a fault. -/
noncomputable def fetchedItems (w : Nat) : Option Nat :=
  match (fetched w).codeLine 144 loaded 0 with
  | .error _ => none
  | .ok l => match decodeGroup (packetOfLine l 0) 0 with
    | .error _ => none
    | .ok xs => if xs.all fun x => x.head.feature.all fun b => Config.features.getLsbD b then some xs.length else none

theorem test_met_step :
    (fetched 0).running = [(144, 0, 0)] ∧ (fetched 0).dueEvent.isNone = true ∧ (fetched 0).clk % 4 = 0 ∧
    (fetched 0).group 144 0 = some loaded ∧ (loaded.arch.path 0).run ≤ 8 ∧
    (fetched 0).pcBreak ⟨issue 144, loaded, loaded.arch, loaded.arch.stream 0⟩ = false ∧
    fetchedItems 0x0C000401 = some 1 ∧ fetchedItems 0x74000040C0050844B0040420 = some 2 := by
  refine ⟨?_, ?_, ?_, ?_, ?_, ?_, ?_, ?_⟩ <;> decide +kernel

/-- NothingStops, DecodeEncode: an event, and an instruction where nothing issues. -/
theorem test_met_stops :
    Instr.moduleReset.view = none ∧ State.reset.issueCtx.isNone = true ∧ (Instr.iadd q0 8 20 9).view ≠ none ∧
    (Instr.iadd q0 8 20 9).wf = true ∧ (Instr.iadd ⟨7, .none⟩ 63 63 63).wf = true := by
  refine ⟨rfl, ?_, ?_, ?_, ?_⟩ <;> decide +kernel

/-- StepKeepsMemoryCanonical: a step of a machine that is up, whose memory has a cell. -/
def up : State := { State.reset with mgmt := { State.reset.mgmt with ready := true, ptmDue := 9 }, mem := [(7, 1)] }

theorem test_met_canonical :
    Memory.wf up.mem = true ∧ (match step up with
      | .next t => Memory.wf t.mem && t.clk == 1
      | _ => false) = true := by
  refine ⟨?_, ?_⟩ <;> decide +kernel

/-- HomesAct: a GETS, and a PUTS of an agent that no pointer names, of line 0x2000 of device memory. -/
def msg (k : MsgKind) : Msg := Msg.blank k 0 0x2000 0
def netted (ms : List Msg) : State := { State.reset with net := ms, images := (List.range 8).map fun i => if i < 6 then some (shippedImage i) else none }

theorem test_met_homes : AtHome (netted []) (msg (.home .gets)) .gets ∧ AtHome (netted []) (msg (.home .puts)) .puts ∧
    (Dir.ofBits ((netted []).home 0 0x2000).dir).coarse = false ∧
    (0 ∉ (Dir.ofBits ((netted []).home 0 0x2000).dir).ptrs) ∧ ((netted []).imageOf 0x2000).defined 0 .gets = true := by
  refine ⟨⟨?_, ?_, ?_, ?_, ?_, ?_, ?_, ?_, ?_⟩, ⟨?_, ?_, ?_, ?_, ?_, ?_, ?_, ?_, ?_⟩, ?_, ?_, ?_⟩ <;> decide +kernel

/-- AgentsAnswer: each kind of message may be delivered; a held line, a lease that is over, one that lies ahead, an idle line. -/
def held (st : CState) : CLine := ⟨0, st, 5, false, false, 0, 0, 0, 0, 0⟩
def holds (m : Msg) (st : CState) : State :=
  { netted [m] with clk := 4, clusters := [(0, { Cluster.zero with lines := [(0x2000, held st)] })],
                    homes := [(0x2000, { HomeLine.zero with lease := some 1 }), (0x2080, { HomeLine.zero with lease := some 9 })] }

theorem test_met_agents :
    (∀ k ∈ [MsgKind.inv, .upd, .fwd .gets, .bisnp, .reply .gets, .fill .gets], (holds (msg k) .m).mayDeliver 0 = true) ∧
    ((holds (msg .inv) .m).cluster 0).lines.find 0x2000 = some (held .m) ∧ ((netted []).cluster 0).lines.find 0x2000 = none ∧
    CState.ofCode ((((netted []).imageOf 0x2000).grant.getD 0 0).toNat) = some .s ∧
    ((holds (msg .inv) .m).home 0 0x2000).lease = some 1 ∧ 1 < (holds (msg .inv) .m).ns ∧ (holds (msg .inv) .m).ns ≤ 9 ∧
    (netted []).passedOver 0 0x2000 = false ∧ (holds (msg .inv) .m).passedOver 0 0x2080 = true ∧
    ((netted []).imageOf 0x2000).inTransient 0 = false ∧ ((netted []).imageOf 0x2000).inNocopy 0 = true := by
  refine ⟨?_, ?_, ?_, ?_, ?_, ?_, ?_, ?_, ?_, ?_, ?_⟩ <;> decide +kernel

/-- RunsAndWaits: a ready stream of an idle partition; waits that are over and not; a record and a full ring. -/
def blocked (w : Wait) : Group := withPath user fun p => { p with state := .blocked, wait := some w }
def recorded : State :=
  { State.reset with mreg := [(fqReg 0 0, 1)], mgmt := { State.reset.mgmt with fqWait := [(0, [7])], haltWait := [(1, 0, 7)] } }

theorem test_met_runs :
    (teamed user).readyStreams 0 0 = [(0, 0, 0)] ∧ (teamed user).partIdle 0 0 = true ∧ (fetched 0).partIdle 144 0 = false ∧
    (teamed user).readyStreams 0 1 = [] ∧ (machine 0 user).waitOver 0 0 (blocked (.mtxRoom)) 0 .mtxRoom = true ∧
    (machine 0 user).waitOver 0 0 (blocked (.event 3)) 0 (.event 3) = false ∧
    (machine 0 (blocked (.causal 4))).clk < 4 ∧ ((blocked (.causal 4)).arch.path 0).wait = some (.causal 4) ∧
    (recorded.mr (fqReg 0 0)).getLsbD 0 = true ∧ recorded.mgmt.fqWait.get 0 [] = [7] ∧
    recorded.mgmt.haltWait.find? (fun h => h.1 == 1) = some (1, 0, 7) ∧ recorded.mgmt.halted.getLsbD 1 = false := by
  refine ⟨?_, ?_, ?_, ?_, ?_, ?_, ?_, ?_, ?_, ?_, ?_, ?_⟩ <;> decide +kernel

theorem apart_user : StreamsApart (teamed user) 0 ((teamed user).readyStreams 0 0) := by
  rw [test_met_runs.1]
  exact List.pairwise_singleton ..

/-- A walk of three levels: tables in lines 0x2000, 0x3000 and 0x4000, a 1 GiB leaf at level 3. -/
def tableLine (e : Nat) : HomeLine := { HomeLine.zero with here := true, data := BitVec.ofNat 1024 e }
def tables : State :=
  { State.reset with mreg := [(xltReg 0 0, 0x2001)],
                     homes := [(0x2000, tableLine 0x3001), (0x3000, tableLine 0x4001), (0x4000, tableLine 0x2F)] }

theorem test_met_walk :
    (tables.mr (xltReg 0 0)).getLsbD 0 = true ∧
    WalkChain tables 0 0 5 ((tables.mr (xltReg 0 0)).toNat / 2 ^ 12 % 2 ^ 40 * 4096) [0x3001, 0x4001, 0x2F] ∧
    (tables.walk 0 0 0).isSome = true ∧ (State.reset.walk 0 0 0).isNone = true := by
  refine ⟨?_, ⟨?_, ?_, ?_, ?_, ?_, ⟨?_, ?_, ?_, ?_, ?_, ⟨?_, ?_, ?_, ?_⟩⟩⟩, ?_, ?_⟩ <;> decide +kernel

/-! ### The host, registers, partitions, admin queues -/

/-- HostActs: window 0 of the whole device, coherent and enabled; a line inside, and one past its end; a link that is up; a
snoop, a host read and a flip that wait. -/
def hosting : State :=
  let s := { State.reset with mreg := [(rangeReg 0 0, 1), (rangeReg 0 1, 0x2000), (rangeReg 0 3, 0x20000), (hwReg 0 0, 0x1F), (hwReg 0 2, 0x1000),
                                       (hwReg 0 3, 0x4000), (blReg 0 0, 3)] }
  { s with out := { s.out with snoops := [⟨0, 0, 0, 5, true, false⟩], reqs := [⟨none, some 0, none, false, 0, 0, 0, 0, 0, 0⟩] },
           chans := [(0, { Channel.zero with asked := [0] })],
           mgmt := { s.mgmt with flips := [⟨0, 0, true, pageLines 0⟩] } }

theorem test_met_host :
    hosting.windowDies 0 = some 0 ∧ hosting.windowDies 1 = none ∧ (hosting.mr (hwReg 0 0)).getLsbD 0 = true ∧
    (0xFC0 < (hosting.mr (hwReg 0 2)).toNat ∧ hosting.lineHcoh (0xFC0 / 128 * 128) = true) ∧ ¬ 0x1000 < (hosting.mr (hwReg 0 2)).toNat ∧
    hosting.out.snoops.find? (fun x => x.port == 0 && x.part == 0 && x.line == 0) = some ⟨0, 0, 0, 5, true, false⟩ ∧
    hosting.out.reqs[0]? = some ⟨none, some 0, none, false, 0, 0, 0, 0, 0, 0⟩ ∧ hosting.flipOf 0 0 = some ⟨0, 0, true, pageLines 0⟩ ∧
    32 ≤ (pageLines 0).length ∧ hosting.windowOf 0 0 = some 0 ∧ (hosting.mr timeCfgReg).getLsbD 0 = true ∧
    (hosting.mr (blReg 0 0)).getLsbD 1 = true ∧ (hosting.mr (hwReg 0 1)).toNat + (hosting.mr (hwReg 0 2)).toNat ≤ hosting.normalSize 0 := by
  refine ⟨?_, ?_, ?_, ⟨?_, ?_⟩, ?_, ?_, ?_, ?_, ?_, ?_, ?_, ?_, ?_⟩ <;> decide +kernel

theorem test_met_host_requests :
    (hosted []).viEnabled 0 = true ∧ ((hosted []).caps 0).getLsbD 8 = true ∧ ((hosted []).mr (biasStatReg 0)).getLsbD 8 = false ∧
    State.reset.viEnabled 63 = false ∧ State.reset.mgmt.ready = false ∧ State.reset.mgmt.fail = 0 ∧
    (1000001 : Int) > 1000000 ∧ hosting.out.replays.get 0 0 = 0 := by
  refine ⟨?_, ?_, ?_, ?_, ?_, ?_, ?_, ?_⟩ <;> decide +kernel

/-- RegisterWrites: ranges whose lines are empty, an image that is not loaded; MIRMET_CFG and FQ_CFG at the ends of what is legal;
dies that are quiesced and dies that are not. -/
def quiescing (d : BitVec 4) : State := { State.reset with mgmt := { State.reset.mgmt with qdies := d } }

theorem test_met_registers :
    (State.reset.images.getD 0 none).isNone = true ∧ (netted []).rangesOk = true ∧ (State.reset.emptyExtents [(0, 0), (0, 0x1000)]).2 = true ∧
    (10 ≤ (0x0A0001 : DWord).toNat / 2 ^ 16 % 2 ^ 8 ∧ 1 ≤ (0x0A0001 : DWord).toNat % 2 ^ 4) ∧
    (10 ≤ (0xFF0008 : DWord).toNat / 2 ^ 16 % 2 ^ 8 ∧ (0xFF0008 : DWord).toNat % 2 ^ 4 ≤ 8) ∧ ¬ 10 ≤ (0x090008 : DWord).toNat / 2 ^ 16 % 2 ^ 8 ∧
    ¬ ((4 : DWord).toNat % 16 < 4 ∨ 12 < (4 : DWord).toNat % 16) ∧ ¬ ((12 : DWord).toNat % 16 < 4 ∨ 12 < (12 : DWord).toNat % 16) ∧
    ((3 : DWord).toNat % 16 < 4 ∨ 12 < (3 : DWord).toNat % 16) ∧ (quiescing 1).mgmt.qdies.getLsbD 0 = true ∧
    (quiescing 1).mgmt.qdies.getLsbD 3 = false ∧ State.reset.teams = [] ∧ State.reset.groups = [] ∧
    ((0x180000 : Nat) % 8 = 0 ∧ 0x180000 < 0x200000) ∧ (0x1000000 % 8 = 0 ∧ (0x8FFFFF8 : Nat) < 0x9000000) := by
  refine ⟨?_, ?_, ?_, ⟨?_, ?_⟩, ⟨?_, ?_⟩, ?_, ?_, ?_, ?_, ?_, ?_, ?_, ?_, ?_, ?_⟩ <;> decide +kernel

/-- PartitionChanges: whole partitions and half of one; four quarters staged, consistent; a quiesce past its time, with no queue
busy and with a launch that runs. -/
def quarters : State :=
  { quiescing 0xF with mreg := (List.range 4).flatMap fun d => [(partCfgReg d, BitVec.ofNat 64 (2 ^ d))] }
def staged : State := (List.range 4).foldl (fun s d => ((s.setMr (partCfgReg d) (BitVec.ofNat 64 (2 ^ d))).setMr (memilReg d)
  (BitVec.ofNat 64 (3 * 4 ^ d))).setMr (netbReg d) 0) (quiescing 0xF)
def ending (s : State) : State := { s with clk := 20, mgmt := { s.mgmt with quiesce := some ⟨0xF, 5⟩ } }

theorem test_met_partitions :
    State.reset.mgmt.quiesce = none ∧ State.reset.mgmt.qdies = 0 ∧ (quiescing 0xF).mgmt.qdies = 0xF ∧ staged.consistent = true ∧
    quarters.consistent = false ∧
    (∀ d, d < 4 → ∀ e, e < 4 → (0xF : BitVec 4).getLsbD d = true → (State.reset.mgmt.part.getD d 0).getLsbD e = true → (0xF : BitVec 4).getLsbD e = true) ∧
    ¬ (∀ d, d < 4 → ∀ e, e < 4 → (1 : BitVec 4).getLsbD d = true → (State.reset.mgmt.part.getD d 0).getLsbD e = true → (1 : BitVec 4).getLsbD e = true) ∧
    (ending State.reset).mgmt.quiesce = some ⟨0xF, 5⟩ ∧ 5 ≤ (ending State.reset).ns ∧
    (∀ v, v < 64 → (ending State.reset).viEnabled v = false) ∧ (ending (hosted [])).viEnabled 0 = true ∧
    (ending (hosted [])).viDies 0 &&& 0xF ≠ 0 ∧ (ending (hosted [])).busyQueue 0 = some 0 ∧
    State.reset.flash.readable = true ∧ State.reset.flash.signed = true ∧ State.reset.flash.trains = true ∧ State.reset.flash.config = [] := by
  refine ⟨?_, ?_, ?_, ?_, ?_, ?_, ?_, ?_, ?_, ?_, ?_, ?_, ?_, ?_, ?_, ?_, ?_⟩ <;> decide +kernel

/-- AdminActs: an admin queue with a command, read from host memory: ACCT, and one that is unknown; a completion that finds room; a
halted core; the ends of the doorbell's range. -/
def admin (bs : List Byte) : State :=
  let s := hosted [(0, bs)]
  ({ s with mreg := [(viPolicyReg 0, 0xFFF), (bar0 0 0x1000, 1), (bar0 0 0x1010, 1), (bar0 0 0x1020, 1)],
            mgmt := { s.mgmt with halts := [(1, (7, 0))], halted := 2 } }).setCtx 0 { s.ctx 0 with adm := [⟨7, 0, 0⟩] }
def commandRead (s : State) : Option Nat :=
  match s.devRead 0 0 64 with
  | (_, .ok bs) => some (Command.ofBytes bs).opc
  | _ => none

theorem test_met_admin :
    (admin [3]).admReady 0 = true ∧ (hosted []).admReady 0 = false ∧ commandRead (admin [3]) = some 3 ∧ commandRead (admin [5]) = some 0 ∧
    commandRead (teamed user) = none ∧ (admin [3]).admRoom 0 = true ∧ ((admin [3]).ctx 0).adm = [⟨7, 0, 0⟩] ∧
    (admin [3]).viEnabled 0 = true ∧ (admin [3]).mgmt.halts.find 1 = some (7, 0) ∧ (admin [3]).mgmt.halted.getLsbD 1 = true ∧
    ((admin [3]).devStore 0 0x40 (List.replicate 16 1)).2.isNone = true ∧
    (2 ≤ (0x22 : DWord).toNat % 16 ∧ (0x88 : DWord).toNat % 16 ≤ 8 ∧ (0x88 : DWord).toNat / 16 % 16 ≤ 8) ∧
    ¬ 2 ≤ (0x21 : DWord).toNat % 16 ∧ ¬ (0x98 : DWord).toNat / 16 % 16 ≤ 8 ∧ ((admin [3]).caps 0).getLsbD 11 = true := by
  refine ⟨?_, ?_, ?_, ?_, ?_, ?_, ?_, ?_, ?_, ?_, ?_, ⟨?_, ?_, ?_⟩, ?_, ?_, ?_⟩ <;> decide +kernel

/-! ### Waits in turn, consists, and what takes several steps -/

/-- Path 0 waits, or has its turn after the wait. -/
def waiter (st : PState) (w : Wait) : Group := withPath user fun p => { p with state := st, wait := some w }

/-- SpansAndBanks, DrainMfpmQuota, SlotsAct: another path waits for the bank, the pool or the slot; the path has its turn. -/
theorem test_met_turns :
    (machine 0 (waiter .blocked (.bank 0 31))).bankAwaited 0 31 = true ∧ (machine 0 user).bankAwaited 0 31 = false ∧
    ((waiter .ready (.bank 0 31)).arch.path 0).wait = some (.bank 0 31) ∧
    (teamed (waiter .blocked (.pool 64))).poolWaited user = true ∧ ((waiter .ready (.pool 64)).arch.path 0).wait = some (.pool 64) ∧
    (machine 0 (waiter .blocked (.slotFree 63))).slotWaited 0 0 63 = true ∧
    ((waiter .ready (.slotFree 63)).arch.path 0).wait = some (.slotFree 63) ∧
    ((machine 0 user).cluster 0).banks.getD 31 Bank.zero = Bank.zero ∧
    ({ withV user 8 owed with lq := 56 } : Group).lq < (64 : DWord).toNat := by decide +kernel

/-- AopsAct: a unit whose row instruction has another frame after it, one whose row instruction has waited for a refresh, and an
access that waits at its unit. -/
def waitUnit (u : MUnit) : State := { timed (teamed (framed 0 [aopEntry .acmp 0])) with units := [(0, u)] }

theorem test_met_units :
    ((waitUnit { MUnit.zero with job := some (job [] []), more := [job [0] [7]] }).munit 0 0).more = [job [0] [7]] ∧
    (∀ j, ((waitUnit { MUnit.zero with job := some (job [0] []) }).munit 0 0).job = some j → j.fresh = false) ∧
    (∃ j, ((waitUnit { MUnit.zero with job := some { job [0] [] with fresh := true } }).munit 0 0).job = some j ∧ j.fresh = true) ∧
    ((waitUnit { MUnit.zero with direct := [(0, 0, 0)] }).units.get 0 MUnit.zero).direct = [(0, 0, 0)] ∧
    ((waitUnit { MUnit.zero with direct := [(0, 0, 0)] }).units.get 0 MUnit.zero).wait = [] := by
  refine ⟨rfl, ?_, ⟨_, rfl, rfl⟩, rfl, rfl⟩
  intro j h; cases h; rfl

/-- CopiesRun: the waits of TWAIT and WPWAIT of a path that has not waited; a latched error at or before the operation named, and
one after it; a channel that is stopped with an operation under way. -/
theorem test_met_copy_waits :
    (user.arch.path 0).wait = none ∧ (Wait.copied 0 2).covers = 2 ∧ (∀ p ∈ Channel.zero.past, ¬ (p.1.toNat ≤ scratch0.toNat)) ∧
    (copying { Channel.zero with issued := 2, completed := 2, latch := some (2, causePoison, false) }).copyOver 0 (.copied 0 2) = true ∧
    ¬ (Wait.copied 0 2).covers < 2 ∧ (Wait.copied 0 2).covers < 3 ∧
    ((copying { Channel.zero with ops := [copyOp], stopped := some causePoison }).chan 0 0).stopped = some causePoison ∧
    (copyOp.pieceAddrs.length = 2) := by
  refine ⟨?_, ?_, ?_, ?_, ?_, ?_, ?_, ?_⟩ <;> decide +kernel

/-- BarriersCountArrivals: a path that waits for the barrier, and one that has passed it. -/
theorem test_met_passed :
    ((waiter .blocked (.barrier 0)).arch.path 0).wait = some (.barrier 0) ∧ ((waiter .ready (.passed 0)).arch.path 0).wait = some (.passed 0) ∧
    team.groups.Nodup ∧ 0 < team.bars.length := by decide +kernel

/-- HomesAct: a request whose line lies in the extents of a range write, which no home takes. -/
def freezing : State :=
  let s := netted [msg (.home .gets)]
  { s with mgmt := { s.mgmt with rangeWr := [(0, 0, [(0, 0x10000)])] } }

theorem test_met_refusal : freezing.net[0]? = some (msg (.home .gets)) ∧ freezing.admits (msg (.home .gets)) = false ∧
    freezing.frozen 0x2000 = true ∧ (netted []).admits (msg (.home .gets)) = true := by
  refine ⟨?_, ?_, ?_, ?_⟩ <;> decide +kernel

/-- AgentsAnswer: a read that waits for its reply, and a write that has asked for the line; a line passed over whose set has
another line, which goes in its place, and one whose set has none. -/
def asking (st : ReqStat) : State :=
  { holds (msg (.reply .gets)) .s with groups := [(groupKey 0 0, { user with rob := [ldu st], seq := 4 })] }
def crowded : State :=
  { netted [] with homes := [(0x2000, { HomeLine.zero with here := true, lease := some 9 }), (0x1002000, { HomeLine.zero with here := true })] }

theorem test_met_replies :
    (asking .sent).reqOf ⟨0, 0, 3, .l, 0⟩ = some (memOf .loadS 4 true 0 ⟨0, 0, 0, 0⟩, ⟨.scratch 0 0 0, [⟨0, 5, 0, 0, 0, 0x80000000⟩], .sent, none, 0, 0⟩) ∧
    ((asking .asked).reqOf ⟨0, 0, 3, .l, 0⟩).isSome = true ∧ crowded.passedOver 0 0x2000 = true ∧
    crowded.victim 0 0x2000 = some 0x1002000 ∧ crowded.passedOver 0 0x1002000 = false ∧
    0x1002000 ∈ crowded.setLines 0 0x2000 ∧ (holds (msg .inv) .m).victim 0 0x2080 = none := by
  refine ⟨?_, ?_, ?_, ?_, ?_, ?_, ?_⟩ <;> decide +kernel

/-- RunsAndWaits: a group that a privileged group holds; a wait for a line that can be reached. -/
theorem test_met_holds :
    (window user).isHeld 0 0 = true ∧ (machine 0 user).isHeld 0 0 = false ∧ (machine 0 user).reachable 0 0x2000 = true ∧
    freezing.reachable 0 0x2000 = false ∧ isHostDpa (2 ^ 51) = true ∧ isHostDpa 0x2000 = false := by decide +kernel

/-- HostActs: an answer to an engine context; accesses that a peer has put on a link, inside its export and outside of it. -/
def linked (off : Nat) : State :=
  { hosting with mreg := [(blReg 0 0, 3), (blReg 0 1, 0x1003), (blReg 0 2, 0x3000)],
                 out := { hosting.out with reqs := [⟨none, none, some 0, true, 0, 0, 0, 0, 0, 0⟩], inbox := [(0, [⟨true, off, 0, 0⟩])] } }

theorem test_met_links :
    ((linked 0).out.reqs[0]?).bind (·.eng) = some 0 ∧ ((linked 0).out.inbox.get 0 []).head? = some ⟨true, 0, 0, 0⟩ ∧
    (linked 0x1F80).exported 0 ⟨true, 0x1F80, 0, 0⟩ = some 0x2F80 ∧ (linked 0x2000).exported 0 ⟨true, 0x2000, 0, 0⟩ = none ∧
    (hosting.out.inbox.get 0 []) = [] := by decide +kernel

/-- RegisterWrites: a range whose lines cannot be emptied yet. AdminActs: codes that are refused, and that are not. -/
theorem test_met_progress :
    (((netted []).setHome 0 0x2000 { HomeLine.zero with dir := Dir.pack { Dir.ofBits 0 with state := 6 } }).emptyExtents [(0x2000, 0x2080)]).2 = false ∧
    State.reset.mgmt.ready = false ∧ State.reset.out.session = false ∧ up.mgmt.ready = true ∧
    ((0xFE : BitVec 8) ≠ 0xE4 ∧ (0xFE : BitVec 8) ≠ 0xEC) := by
  refine ⟨?_, ?_, ?_, ?_, ?_, ?_⟩ <;> decide +kernel

/-- StepRunsDecoded: a second instruction that waits at its slot; LaunchQueuesAndTeams: an answer that the host has not observed. -/
theorem test_met_late :
    (let l : Late := ⟨0, 0, 1, 5, Arch.start 0⟩
     ({ loaded with lates := [l] } : Group).lates.find? (fun x => x.ent == 0 && x.pn == 0 && x.slot == 1) = some l) ∧
    loaded.lates = [] ∧ ((hosted []).devStore 0 0x48 [1]).2 = some (.later 0 (2 ^ 51)) := by
  refine ⟨?_, ?_, ?_⟩ <;> decide +kernel

end Sys2Proof.Tests
end

section
/-!
An enabled floating-point exception of a lane-wise instruction (02 R46, 15 R369, R370): what the trap of the raising
lanes holds, and that the whole stream takes it.
-/
namespace Sys2Proof.Machine

open Sys2Proof.Safety

/-! ### Masks, flags and their bits -/

/-- A bit of a union of words is a bit of one of them. -/
theorem getLsbD_foldl_or {α : Type} {w : Nat} (f : α → BitVec w) (xs : List α) (z : BitVec w) (k : Nat) :
    (xs.foldl (fun m x => m ||| f x) z).getLsbD k = true ↔
      z.getLsbD k = true ∨ ∃ x ∈ xs, (f x).getLsbD k = true := by
  induction xs generalizing z with
  | nil => simp
  | cons x r ih => simp [ih, or_assoc]

theorem Mask.getLsbD_one {l : Nat} (j : Nat) (hl : l < 32) : (Mask.one j).getLsbD l = true ↔ j = l := by
  simp only [Mask.one, BitVec.getLsbD_shiftLeft, BitVec.ofNat_eq_ofNat, BitVec.getLsbD_one, Bool.and_eq_true, decide_eq_true_eq,
    Bool.not_eq_true', decide_eq_false_iff_not]
  omega

theorem Mask.getLsbD_ofList {l : Nat} (ls : List Nat) (hl : l < 32) : (Mask.ofList ls).getLsbD l = true ↔ l ∈ ls := by
  simp [Mask.ofList, getLsbD_foldl_or, Mask.getLsbD_one _ hl]

/-- The five flags stand in bits 4 to 8 (02 R39). -/
theorem getLsbD_flagBits (f : Flags) {k : Nat} (hk : k < 5) : (flagBits f).getLsbD (k + 4) = f.getLsbD k := by
  have h : k + 4 < 64 := by omega
  simp [flagBits, h]

theorem getLsbD_flagBits_outside (f : Flags) {k : Nat} (hk : k < 4 ∨ 9 ≤ k) : (flagBits f).getLsbD k = false := by
  rcases hk with hk | hk
  · simp [flagBits, hk]
  · have : f.getLsbD (k - 4) = false := BitVec.getLsbD_of_ge _ _ (by omega)
    simp [flagBits, this]

theorem ne_zero_of_getLsbD {w k : Nat} {f : BitVec w} (h : f.getLsbD k = true) : f ≠ 0 := by
  rintro rfl; simp at h

/-! ### The trap of the lanes that raise an enabled exception -/

/-- What the trap of raising lanes holds: the cause, the place, in its mask exactly the lanes that raised an enabled
exception, and in its operand exactly the enabled exceptions raised (15 R371, R372). -/
structure FpTrapOf (fcr : DWord) (p : Place) (raised : List (Nat × Flags)) (t : FaultInfo) : Prop where
  cause : t.cause = causeFpException
  place : t.place = p
  mask : ∃ m, t.mask = some m ∧
    ∀ l, l < 32 → (m.getLsbD l = true ↔ ∃ x ∈ raised, x.1 = l ∧ x.2 &&& enables fcr ≠ 0)
  operand : ∀ k, k < 5 → (t.operand.getLsbD (k + 4) = true ↔ ∃ x ∈ raised, (x.2 &&& enables fcr).getLsbD k = true)
  outside : ∀ k, k < 4 ∨ 9 ≤ k → t.operand.getLsbD k = false

theorem fpTrap_of_raised {fcr : DWord} (p : Place) {raised : List (Nat × Flags)}
    (h : ∃ x ∈ raised, x.2 &&& enables fcr ≠ 0) : ∃ t, fpTrap fcr p raised = some t ∧ FpTrapOf fcr p raised t := by
  obtain ⟨x, hx, hr⟩ := h
  have hbad : (raised.filter fun x => x.2 &&& enables fcr != 0).isEmpty = false :=
    List.isEmpty_eq_false_iff_exists_mem.mpr ⟨x, List.mem_filter.mpr ⟨hx, bne_iff_ne.mpr hr⟩⟩
  unfold fpTrap
  simp only [hbad, Bool.false_eq_true, if_false]
  refine ⟨_, rfl, rfl, rfl, ⟨_, rfl, ?_⟩, ?_, ?_⟩
  · intro l hl
    rw [Mask.getLsbD_ofList _ hl]
    simp only [List.mem_map, List.mem_filter, bne_iff_ne]
    constructor
    · rintro ⟨y, ⟨hy, hn⟩, e⟩; exact ⟨y, hy, e, hn⟩
    · rintro ⟨y, hy, e, hn⟩; exact ⟨y, ⟨hy, hn⟩, e⟩
  · intro k hk
    show (flagBits _).getLsbD (k + 4) = true ↔ _
    rw [getLsbD_flagBits _ hk, getLsbD_foldl_or]
    simp only [List.mem_filter, bne_iff_ne, BitVec.ofNat_eq_ofNat, BitVec.getLsbD_zero, Bool.false_eq_true, false_or]
    constructor
    · rintro ⟨y, ⟨hy, -⟩, hb⟩; exact ⟨y, hy, hb⟩
    · rintro ⟨y, hy, hb⟩; exact ⟨y, ⟨hy, ne_zero_of_getLsbD hb⟩, hb⟩
  · exact fun k hk => getLsbD_flagBits_outside _ hk

/-! ### The halves of a lane-wise instruction -/

theorem emptyWait_of_full {c : Ctx} {rs : List Nat} (h : ∀ r ∈ rs, (c.src.vreg r).full = true) :
    c.emptyWait rs = none := by
  have : rs.filter (fun r => !(c.src.vreg r).full) = [] := by simpa [List.filter_eq_nil_iff] using h
  simp [Ctx.emptyWait, this]

/-- Halves that pass their checks and whose sources are full go on, all of them. -/
theorem checkHalves_sound {c : Ctx} {s : State} {ns : List (Nat × Need)} (hc : ∀ n ∈ ns, c.check s n.2 = none)
    (hf : ∀ n ∈ ns, ∀ r ∈ n.2.waits, (c.src.vreg r).full = true) : c.checkHalves s ns = .ok [] := by
  have hbad : ns.filterMap (fun n => (c.check s n.2).map fun f => (n.1, f)) = [] := by
    simpa [List.filterMap_eq_nil_iff] using hc
  have hw : c.emptyWait (ns.flatMap fun n => n.2.waits) = none :=
    emptyWait_of_full fun r hr => by
      obtain ⟨n, hn, hr⟩ := List.mem_flatMap.mp hr
      exact hf n hn r hr
  simp [Ctx.checkHalves, hbad, hw]

/-- A half that acts is of an entry of the stream. -/
theorem halves_ent {f : LaneForm} {c : Ctx} {h : Half} (hh : h ∈ f.halves c) : h.ent ∈ c.ents := by
  simp only [LaneForm.halves, Ctx.halves, List.mem_map, List.mem_filterMap] at hh
  obtain ⟨x, ⟨e, he, hx⟩, rfl⟩ := hh
  split at hx
  · cases hx
  · cases hx; exact he

theorem remotePlaces_atL {h : Half} (hp : h.place = .l) : remotePlaces [h] = [] := by
  simp [remotePlaces, hp]

/-- Where every entry of the stream has failed, the whole stream traps with the first one's trap (13 R335, R336). -/
theorem leave_all_failed {c : Ctx} {s : State} {b : Nat × FaultInfo} {r : List (Nat × FaultInfo)}
    (h : ∀ i ∈ c.ents, ∃ x ∈ b :: r, x.1 = i) : c.leave s (b :: r) = .error (.trap b.2) := by
  have hall : (c.ents.all fun i => (b :: r).any fun x => x.1 == i) = true := by
    simpa only [List.all_eq_true, List.any_eq_true, beq_iff_eq] using h
  simp only [Ctx.leave, hall, if_true]

/-- The only half of a stream of one entry, at L and past its checks, raises an enabled exception: the whole stream
traps (13 R335, 15 R370). -/
theorem laneHalves_fpTrap {c : Ctx} {s : State} {o : LaneOp} {m : ModX} {meld : Bool} {h : Half} {t : FaultInfo}
    (he : c.ents = [h.ent]) (hp : h.place = .l) (hc : c.check s (o.need c m meld h) = none)
    (hf : ∀ r ∈ (o.need c m meld h).waits, (c.src.vreg r).full = true)
    (ht : fpTrap c.src.fcr .l ((h.results o c.src m).map fun r => (r.1, r.2.2)) = some t) :
    c.laneHalves s o m meld [h] = .error (.trap t) := by
  have hcheck : c.checkHalves s [(h.ent, o.need c m meld h)] = .ok [] :=
    checkHalves_sound (by simpa using hc) (by simpa using hf)
  have hroom : c.room 0 = .ok () := rfl
  have hleave : c.leaveWith s [(h.ent, t)] [] = .error (.trap t) := by
    simp [Ctx.leaveWith, leave_all_failed (c := c) (b := (h.ent, t)) (r := []) (by simp [he]), Except.map]
  simp [Ctx.laneHalves, hcheck, remotePlaces_atL hp, hroom, hp, ht, he, hleave, bind, Except.bind]

/-! ### Lane-wise forms -/

/-- Every lane-wise form runs as its row of `laneForm` says. -/
theorem exec_laneForm {i : Instr} {f : LaneForm} (h : laneForm i = some f) (s : State) :
    exec i s = runWith f.feat false s fun c s =>
      c.laneHalves s f.o (Quals.modx f.q) (permMeld c (Quals.modx f.q) f.a f.b f.imm) (f.halves c) := by
  unfold laneForm at h
  split at h <;> cases h <;> rfl

/-- Settles O14: the one half's lanes raise, so the trap of `fpTrap` is the half's, and with no other entry the whole
stream's. -/
theorem floatExceptionTraps : Obligations.FloatExceptionTraps := by
  unfold Obligations.FloatExceptionTraps
  intro i f s c h hform hi hd hents hh hp hc hf hraise
  have hent : h.ent = c.iss.ent := by
    have : h.ent ∈ c.ents := halves_ent (hh ▸ List.mem_singleton_self h)
    simpa [hents] using this
  obtain ⟨t, ht, spec⟩ := fpTrap_of_raised (fcr := c.src.fcr) .l
    (raised := (h.results f.o c.src (Quals.modx f.q)).map fun r => (r.1, r.2.2))
    (by simpa only [List.mem_map, exists_exists_and_eq_and] using hraise)
  have hbody := laneHalves_fpTrap (hent ▸ hents) hp hc hf ht
  obtain ⟨cause, place, ⟨m, hm, lanes⟩, operand, outside⟩ := spec
  refine ⟨t, ?_, cause, place, ⟨m, hm, ?_⟩, ?_, outside⟩
  · rw [exec_laneForm hform]
    exact runWith_trap hi hd (hh ▸ hbody)
  · simpa only [List.mem_map, exists_exists_and_eq_and] using lanes
  · simpa only [List.mem_map, exists_exists_and_eq_and] using operand

end Sys2Proof.Machine
end

section
/-!
Writes of management registers (18 R432, R433): which register a 64-bit write of an offset reaches, and what it does there.
-/
namespace Sys2Proof.Machine

open Sys2Proof.Safety

/-! ### Which register a write reaches -/

/-- A write that covers the register keeps nothing of its old value. -/
theorem wholeWrite (x y : DWord) : (x &&& BitVec.allOnes 64) ||| (y &&& ~~~ BitVec.allOnes 64) = x := by
  rw [BitVec.not_allOnes, BitVec.and_zero, BitVec.or_zero, BitVec.and_allOnes]

theorem write64_rangeReg (s : State) (x : DWord) {k r : Nat} (hk : k < 64) (hr : r < 4) :
    s.write64 (rangeReg k r) x = (s.writeRange k r x).1 := by
  have hlow : rangeReg k r < 0x800 := by unfold rangeReg; omega
  have hentry : rangeReg k r / 0x20 = k := by unfold rangeReg; omega
  have hword : rangeReg k r % 0x20 / 8 = r := by unfold rangeReg; omega
  simp only [State.write64, State.regWrite, wholeWrite, if_pos hlow, hentry, hword]

theorem write64_fmtReg (s : State) (x : DWord) {k r : Nat} (hk : k < 16) (hr : r < 5) :
    s.write64 (fmtReg k r) x = (s.writeFmt k r x).1 := by
  have hentry : (fmtReg k r - 0x1000) / 0x40 = k := by unfold fmtReg; omega
  have hword : fmtReg k r % 0x40 / 8 = r := by unfold fmtReg; omega
  simp only [State.write64, State.regWrite, wholeWrite, Bool.and_eq_true, decide_eq_true_eq, hentry, hword]
  rw [if_neg (by unfold fmtReg; omega), if_pos (by unfold fmtReg; omega), if_pos (by unfold fmtReg; omega)]

theorem write64_bankpartReg (s : State) (x : DWord) {st : Nat} (h : st < 8) :
    s.write64 (bankpartReg st) x = s.writeBankpart st x := by
  have hstack : (bankpartReg st - 0x2000) / 0x10 = st := by unfold bankpartReg; omega
  simp only [State.write64, State.regWrite, wholeWrite, Bool.and_eq_true, decide_eq_true_eq, beq_iff_eq, hstack]
  rw [if_neg (by unfold bankpartReg; omega), if_neg (by unfold bankpartReg; omega), if_pos (by unfold bankpartReg; omega),
    if_pos (by unfold bankpartReg; omega)]

theorem write64_mirmetReg (s : State) (x : DWord) {st : Nat} (h : st < 8) :
    s.write64 (mirmetReg st) x = s.writeMirmet st x := by
  have hstack : (mirmetReg st - 0x2000) / 0x10 = st := by unfold mirmetReg; omega
  simp only [State.write64, State.regWrite, wholeWrite, Bool.and_eq_true, decide_eq_true_eq, beq_iff_eq, hstack]
  rw [if_neg (by unfold mirmetReg; omega), if_neg (by unfold mirmetReg; omega), if_pos (by unfold mirmetReg; omega),
    if_neg (by unfold mirmetReg; omega)]

theorem write64_fqCfg (s : State) (x : DWord) {d : Nat} (h : d < 4) :
    s.write64 (fqReg d 1) x = s.writeRingCfg (fqReg d 1) d x (BitVec.allOnes 64) := by
  have hdie : (fqReg d 1 - 0x100000) / 0x100 = d := by unfold fqReg; omega
  have hword : fqReg d 1 % 0x100 / 8 = 1 := by unfold fqReg; omega
  simp only [State.write64, State.regWrite, wholeWrite, Bool.and_eq_true, decide_eq_true_eq, beq_iff_eq, hdie, hword]
  rw [if_neg (by unfold fqReg; omega), if_neg (by unfold fqReg; omega), if_neg (by unfold fqReg; omega),
    if_pos (by unfold fqReg; omega)]
  rfl

/-- The block of the partition registers and of the VI table (18 Tables 18-4, 18-6). -/
theorem write64_partBlock (s : State) (x : DWord) {off : Nat} (lo : 0x140000 ≤ off) (hi : off < 0x141400) :
    s.write64 off x = s.writePart off x (BitVec.allOnes 64) := by
  simp only [State.write64, State.regWrite, wholeWrite, Bool.and_eq_true, decide_eq_true_eq, beq_iff_eq]
  iterate 7 rw [if_neg (by omega)]
  rw [if_pos (by omega)]

/-- A register that only holds what is written. -/
theorem write64_xltReg (s : State) (x : DWord) {v : Nat} (h : v < 64) :
    s.write64 (xltReg v 1) x = s.setMr (xltReg v 1) (x &&& 0xFFFFF) := by
  have hmask : plainMask (xltReg v 1) = some 0xFFFFF := by
    simp only [plainMask, Bool.and_eq_true, decide_eq_true_eq, beq_iff_eq]
    rw [if_pos (by unfold xltReg; omega), if_neg (by unfold xltReg; omega)]
  simp only [State.write64, State.regWrite, wholeWrite, Bool.and_eq_true, decide_eq_true_eq, beq_iff_eq]
  iterate 11 rw [if_neg (by unfold xltReg; omega)]
  rw [hmask]

/-- The blocks of read-only registers (18 R433). -/
theorem write64_readOnly (s : State) (x : DWord) {off : Nat} (lo : 0x180000 ≤ off) (hi : off < 0x200000) :
    s.write64 off x = s := by
  have hmask : plainMask off = none := by
    simp only [plainMask, timeCfgReg, Bool.and_eq_true, decide_eq_true_eq, beq_iff_eq]
    iterate 4 rw [if_neg (by omega)]
  simp only [State.write64, State.regWrite, wholeWrite, Bool.and_eq_true, decide_eq_true_eq, beq_iff_eq]
  iterate 11 rw [if_neg (by omega)]
  rw [hmask]

/-- REGISTER_WRITE does what the write of the register at its offset does. -/
theorem exec_registerWrite (s : State) (x : DWord) {off : Nat} (aligned : off % 8 = 0) (hi : off < 0x1000000) :
    exec (.registerWrite off x) s = .next (s.write64 off x) := by
  have hmem : isMgmtMem off = false := by
    simp only [isMgmtMem, Bool.and_eq_false_iff, decide_eq_false_iff_not]; omega
  show execRegisterWrite off x s = _
  simp only [execRegisterWrite, aligned, hmem, bne_self_eq_false, Bool.false_eq_true, if_false]

theorem exec_registerWrite_memory (s : State) (x : DWord) {off : Nat} (aligned : off % 8 = 0) (lo : 0x1000000 ≤ off)
    (hi : off < 0x9000000) : exec (.registerWrite off x) s = .next (s.writeBytes (mgmtCell off) (bytesOfNat 8 x.toNat)) := by
  have hmem : isMgmtMem off = true := by
    simp only [isMgmtMem, Bool.and_eq_true, decide_eq_true_eq]; omega
  show execRegisterWrite off x s = _
  simp only [execRegisterWrite, aligned, hmem, bne_self_eq_false, Bool.false_eq_true, if_false, if_true]

theorem exec_registerWrite_unaligned (s : State) (x : DWord) {off : Nat} (h : off % 8 ≠ 0) :
    exec (.registerWrite off x) s = .next s := by
  show execRegisterWrite off x s = _
  simp only [execRegisterWrite, bne_iff_ne.mpr h, if_true]

/-! ### Range registers (05 R115, R116) -/

theorem Table.find_map_snd {α : Type} (f : Nat → α → α) (t : Table α) (n : Nat) :
    Table.find (t.map fun p => (p.1, f p.1 p.2)) n = (Table.find t n).map (f n) := by
  induction t with
  | nil => rfl
  | cons p r ih =>
    obtain ⟨j, a⟩ := p
    simp only [List.map_cons, Table.find]
    by_cases h : j = n
    · simp [h]
    · simpa [h] using ih

/-- The bits that register r of an entry of the range table holds (05 Table 05-1). -/
def rangeBits (r : Nat) : DWord :=
  match r with
  | 0 => 0x1FFFFFFF001
  | 1 => 0x1FFFFFFF000
  | 2 => 7
  | _ => 0x3FFFF

/-- The addresses that entry k of the range table names. -/
def State.rangeExtent (s : State) (k : Nat) : Nat × Nat :=
  (bitsOf (s.mr (rangeReg k 0)) 40 12 * 4096, bitsOf (s.mr (rangeReg k 1)) 40 12 * 4096)

/-- Entry k would be enabled with an empty slot, or the fixed images would be broken (05 R115). -/
def State.RangeBad (u : State) (k : Nat) : Prop :=
  ((u.mr (rangeReg k 0)).getLsbD 0 = true ∧ u.images.getD ((u.mr (rangeReg k 2)).toNat % 8) none = none) ∨ u.rangesOk = false

/-- The directory word of a line of u that had another image in w is cleared. -/
def State.freshDir (w u : State) (n : Nat) (h : HomeLine) : HomeLine :=
  if w.imageSlot (n % 2 ^ 52) = u.imageSlot (n % 2 ^ 52) then h else { h with dir := 0 }

/-- The lines of u whose image was another in w start in state 0. -/
def State.restarted (w u : State) : State := { u with homes := u.homes.map fun h => (h.1, w.freshDir u h.1 h.2) }

theorem writeRange_restarts (w u : State) :
    { u with homes := u.homes.map fun h =>
        if w.imageSlot (h.1 % 2 ^ 52) != u.imageSlot (h.1 % 2 ^ 52) then (h.1, { h.2 with dir := 0 }) else h } = w.restarted u := by
  have hf : (fun h : Nat × HomeLine =>
      if w.imageSlot (h.1 % 2 ^ 52) != u.imageSlot (h.1 % 2 ^ 52) then (h.1, { h.2 with dir := 0 }) else h) =
      fun h => (h.1, w.freshDir u h.1 h.2) := by
    funext h
    by_cases hs : w.imageSlot (h.1 % 2 ^ 52) = u.imageSlot (h.1 % 2 ^ 52)
    · simp only [State.freshDir, hs, bne_self_eq_false, Bool.false_eq_true, if_false, if_true]
    · simp only [State.freshDir, if_neg hs, bne_iff_ne.mpr hs, if_true]
  rw [State.restarted, hf]

theorem restarted_home (w u : State) {n : Nat} {h : HomeLine} (hn : u.homes.find n = some h) :
    (w.restarted u).homes.find n = some (w.freshDir u n h) := by
  rw [State.restarted, Table.find_map_snd (w.freshDir u), hn, Option.map_some]

theorem writeRange_refused {s : State} {k r : Nat} {x y : DWord} (hy : x &&& rangeBits r = y)
    (bad : (s.setMr (rangeReg k r) y).RangeBad k) :
    (s.writeRange k r x).1 = (s.dropWrite (rangeReg k r)).refuseWrite (rangeReg k r) y := by
  have hbad := bad
  simp only [State.RangeBad, ← Option.isNone_iff_eq_none] at hbad
  simp only [← Bool.and_eq_true, ← Bool.not_eq_true', ← Bool.or_eq_true] at hbad
  unfold State.writeRange
  generalize hm : x &&& _ = y'
  obtain rfl : y' = y := hm.symm.trans hy
  exact congrArg Prod.fst (if_pos hbad)

theorem writeRange_emptied {s w : State} {k r : Nat} {x y : DWord} {ok : Bool} (hy : x &&& rangeBits r = y)
    (sound : ¬ (s.setMr (rangeReg k r) y).RangeBad k)
    (he : s.emptyExtents [s.rangeExtent k, (s.setMr (rangeReg k r) y).rangeExtent k] = (w, ok)) :
    (s.writeRange k r x).1 =
      if ok = true then w.restarted ((w.dropWrite (rangeReg k r)).setMr (rangeReg k r) y)
      else w.pendWrite (rangeReg k r) y [s.rangeExtent k, (s.setMr (rangeReg k r) y).rangeExtent k] := by
  have hbad := sound
  simp only [State.RangeBad, ← Option.isNone_iff_eq_none] at hbad
  simp only [← Bool.and_eq_true, ← Bool.not_eq_true', ← Bool.or_eq_true] at hbad
  unfold State.writeRange
  generalize hm : x &&& _ = y'
  obtain rfl : y' = y := hm.symm.trans hy
  refine (congrArg Prod.fst (if_neg hbad)).trans ?_
  simp only [← State.rangeExtent.eq_1, he]
  cases ok with
  | false => rfl
  | true => exact writeRange_restarts w _

/-- A pending write is kept; the rest of the machine is as it was. -/
theorem pendWrite_spec (s : State) (off : Nat) (x : DWord) (es : List (Nat × Nat)) :
    (off, x, es) ∈ (s.pendWrite off x es).mgmt.rangeWr ∧
    s.pendWrite off x es = { s with mgmt := { s.mgmt with rangeWr := (s.pendWrite off x es).mgmt.rangeWr } } := by
  unfold State.pendWrite
  split
  next h => exact ⟨List.contains_iff_mem.mp h, rfl⟩
  next => exact ⟨by simp, rfl⟩

/-! ### Format-range registers (04 R93) -/

/-- The bits that register r of an entry of the format table holds (04 Table 04-3). -/
def fmtBits (r : Nat) : DWord :=
  match r with
  | 0 | 1 => 0x1FFFFFFFF80
  | 2 => 3
  | 3 => 0x7FFFFFFF80
  | _ => 0x7FFFFFFFF0

/-- The addresses of the view of entry k of the format table. -/
def State.fmtExtent (s : State) (k : Nat) : Nat × Nat := ((s.mr (fmtReg k 0)).toNat, (s.mr (fmtReg k 1)).toNat)

theorem writeFmt_mode3 {s : State} {k r : Nat} {x : DWord} (hr : r = 2) (mode : x &&& fmtBits r = 3) :
    (s.writeFmt k r x).1 = s.dropWrite (fmtReg k r) := by
  unfold State.writeFmt
  exact congrArg Prod.fst (if_pos (by simpa [hr, fmtBits] using mode))

theorem writeFmt_emptied {s w : State} {k r : Nat} {x y : DWord} {ok : Bool} (hy : x &&& fmtBits r = y) (mode : r = 2 → y ≠ 3)
    (he : s.emptyExtents [s.fmtExtent k, (s.setMr (fmtReg k r) y).fmtExtent k] = (w, ok)) :
    (s.writeFmt k r x).1 =
      if ok = true then (w.dropWrite (fmtReg k r)).setMr (fmtReg k r) y else w.pendWrite (fmtReg k r) y [] := by
  have hmode : ¬ ((r == 2 && y == 3) = true) := by
    simpa only [Bool.and_eq_true, beq_iff_eq, not_and] using mode
  unfold State.writeFmt
  generalize hm : x &&& _ = y'
  obtain rfl : y' = y := hm.symm.trans hy
  refine (congrArg Prod.fst (if_neg hmode)).trans ?_
  simp only [← State.fmtExtent.eq_1, he]
  cases ok <;> rfl

/-! ### BANKPART and MIRMET_CFG (04 R92) -/

theorem bitsOf_and {x m : DWord} {hi lo : Nat} (full : m.extractLsb' lo (hi - lo + 1) = BitVec.allOnes (hi - lo + 1)) :
    bitsOf (x &&& m) hi lo = bitsOf x hi lo := by
  have field : ∀ y : DWord, bitsOf y hi lo = (y.extractLsb' lo (hi - lo + 1)).toNat := fun y => by
    rw [BitVec.extractLsb'_toNat, Nat.shiftRight_eq_div_pow]; rfl
  rw [field, field, BitVec.extractLsb'_and, full, BitVec.and_allOnes]

theorem writeBankpart_same {s : State} {st : Nat} {x : DWord} (h : x &&& 1 = s.mr (bankpartReg st)) :
    s.writeBankpart st x = s.setMr (bankpartReg st) (x &&& 1) := by
  simp only [State.writeBankpart, h, bne_self_eq_false, Bool.false_and, Bool.false_eq_true, if_false]

/-- A frame of a group lies at M over a stack. -/
def State.framesOn (s : State) (st : Nat) : Prop :=
  ∃ g ∈ s.groups, ∃ n, n < 64 ∧ (g.2.arch.vreg n).place = .m ∧ computeStack (g.2.arch.vreg n).dpa = st

/-- A team is resident in the partition of a stack. -/
def State.residentAt (s : State) (st : Nat) : Prop := ∃ t ∈ s.teams, s.partOfCore t.2.core = s.partOfDie (st / 2)

theorem vreg_eq_getElem (a : Arch) {n : Nat} (h : n < 64) : a.vreg n = a.v[n] := by
  simp [Arch.vreg, h]

theorem any_frame_iff (a : Arch) (st : Nat) :
    (a.v.toList.any fun r => r.place == .m && computeStack r.dpa == st) = true ↔
      ∃ n, n < 64 ∧ (a.vreg n).place = .m ∧ computeStack (a.vreg n).dpa = st := by
  simp only [List.any_eq_true, Vector.mem_toList_iff, Vector.mem_iff_getElem, Bool.and_eq_true, beq_iff_eq]
  constructor
  · rintro ⟨r, ⟨n, hn, rfl⟩, hp, hs⟩
    exact ⟨n, hn, by rw [vreg_eq_getElem a hn]; exact hp, by rw [vreg_eq_getElem a hn]; exact hs⟩
  · rintro ⟨n, hn, hp, hs⟩
    rw [vreg_eq_getElem a hn] at hp hs
    exact ⟨_, ⟨n, hn, rfl⟩, hp, hs⟩

theorem writeBankpart_refused {s : State} {st : Nat} {x : DWord} (h : x &&& 1 ≠ s.mr (bankpartReg st))
    (busy : s.residentAt st ∨ s.framesOn st) :
    s.writeBankpart st x = s.refuseWrite (bankpartReg st) (x &&& 1) := by
  unfold State.writeBankpart
  refine if_pos ?_
  simp only [Bool.and_eq_true, Bool.or_eq_true, bne_iff_ne, List.any_eq_true (l := s.teams),
    List.any_eq_true (l := s.groups), any_frame_iff, beq_iff_eq]
  refine ⟨h, ?_⟩
  rcases busy with hr | ⟨g, hg, hf⟩
  · exact .inr hr
  · exact .inl ⟨g, hg, .inl hf⟩

theorem writeBankpart_stored {s : State} {st : Nat} {x : DWord} (noTeam : ¬ s.residentAt st) (noFrame : ¬ s.framesOn st)
    (idle : ∀ g ∈ s.groups, g.2.rob = []) : s.writeBankpart st x = s.setMr (bankpartReg st) (x &&& 1) := by
  unfold State.writeBankpart
  refine if_neg ?_
  simp only [Bool.and_eq_true, Bool.or_eq_true, bne_iff_ne, List.any_eq_true (l := s.teams),
    List.any_eq_true (l := s.groups), any_frame_iff, beq_iff_eq]
  rintro ⟨-, ⟨g, hg, hf | hf⟩ | hr⟩
  · exact noFrame ⟨g, hg, hf⟩
  · rw [idle g hg] at hf; simp at hf
  · exact noTeam hr

/-- What MIRMET_CFG may hold: tMFAW of at least 10 and 1 to 8 banks (04 Table 04-4). -/
def mirmetLegal (x : DWord) : Prop := 10 ≤ x.toNat / 2 ^ 16 % 2 ^ 8 ∧ 1 ≤ x.toNat % 2 ^ 4 ∧ x.toNat % 2 ^ 4 ≤ 8

theorem writeMirmet_legal (s : State) (st : Nat) {x : DWord} (h : mirmetLegal x) :
    s.writeMirmet st x = s.setMr (mirmetReg st) (x &&& 0xFF0F0F) := by
  obtain ⟨hfaw, hlo, hhi⟩ := h
  unfold State.writeMirmet
  refine if_neg ?_
  simp only [Bool.or_eq_true, decide_eq_true_eq, beq_iff_eq]
  rw [bitsOf_and (by decide), bitsOf_and (by decide)]
  simp only [bitsOf]
  omega

theorem writeMirmet_illegal (s : State) (st : Nat) {x : DWord} (h : ¬ mirmetLegal x) :
    s.writeMirmet st x = s.refuseWrite (mirmetReg st) (x &&& 0xFF0F0F) := by
  unfold mirmetLegal at h
  unfold State.writeMirmet
  refine if_pos ?_
  simp only [Bool.or_eq_true, decide_eq_true_eq, beq_iff_eq]
  rw [bitsOf_and (by decide), bitsOf_and (by decide)]
  simp only [bitsOf]
  omega

/-! ### Rings (15 R373) -/

theorem writeRingCfg_eq (s : State) (off die : Nat) (x : DWord) :
    s.writeRingCfg off die x (BitVec.allOnes 64) =
      let old := s.mr off
      let bad := x.toNat % 16 < 4 ∨ 12 < x.toNat % 16
      let ovf := if old.getLsbD 8 = true ∧ x.getLsbD 8 = false then 256 else 0
      let t := s.setMr off (BitVec.ofNat 64 ((if bad then old.toNat % 16 else x.toNat % 16) + ovf))
      if bad then t.event die 0x05 off (BitVec.ofNat 64 off) x else t := by
  simp only [State.writeRingCfg, bitsOf, BitVec.and_allOnes, bitNat, Bool.and_eq_true, Bool.or_eq_true, decide_eq_true_eq,
    Bool.not_eq_true', Nat.pow_zero, Nat.div_one, Nat.reduceSub, Nat.reduceAdd, Nat.reducePow]

/-! ### Staged registers (18 R438, R439, R444, R445) -/

/-- Every die of a set is quiesced. -/
def State.Quiesced (s : State) (dies : BitVec 4) : Prop :=
  ∀ d, d < 4 → dies.getLsbD d = true → s.mgmt.qdies.getLsbD d = true

theorem uncovered_eq_zero_iff (m q : BitVec 4) :
    m &&& ~~~ q = 0 ↔ ∀ d, d < 4 → m.getLsbD d = true → q.getLsbD d = true := by
  rw [BitVec.eq_of_getLsbD_eq_iff]
  simp only [BitVec.getLsbD_and, BitVec.getLsbD_not, BitVec.ofNat_eq_ofNat, BitVec.getLsbD_zero, Bool.and_eq_false_iff,
    Bool.not_eq_false']
  refine forall_congr' fun d => forall_congr' fun hd => ?_
  cases m.getLsbD d <;> simp [hd]

theorem stageWrite_quiesced {s : State} {dies : BitVec 4} (off : Nat) (x : DWord) (h : s.Quiesced dies) :
    s.stageWrite off x dies = s.setMr off x := by
  unfold State.stageWrite
  exact if_pos (beq_iff_eq.mpr ((uncovered_eq_zero_iff _ _).mpr h))

theorem stageWrite_refused {s : State} {dies : BitVec 4} (off : Nat) (x : DWord) (h : ¬ s.Quiesced dies) :
    s.stageWrite off x dies = s.refuseWrite off x := by
  unfold State.stageWrite
  exact if_neg fun e => h ((uncovered_eq_zero_iff _ _).mp (beq_iff_eq.mp e))

theorem getLsbD_oneDie {d e : Nat} (he : e < 4) : (oneDie d).getLsbD e = true ↔ e = d % 4 := by
  have h : (1 : BitVec 4).getLsbD (e - d % 4) = true ↔ e - d % 4 = 0 := by
    simp [BitVec.ofNat_eq_ofNat, BitVec.getLsbD_one]
  simp only [oneDie, BitVec.getLsbD_shiftLeft, Bool.and_eq_true, decide_eq_true_eq, Bool.not_eq_true', decide_eq_false_iff_not, h]
  omega

theorem quiesced_oneDie {s : State} {d : Nat} (hd : d < 4) :
    s.Quiesced (oneDie d) ↔ ∀ e ∈ [d], s.mgmt.qdies.getLsbD e = true := by
  simp only [State.Quiesced, List.forall_mem_singleton]
  constructor
  · exact fun h => h d hd ((getLsbD_oneDie hd).mpr (Nat.mod_eq_of_lt hd).symm)
  · intro h e he hb
    rw [(getLsbD_oneDie he).mp hb, Nat.mod_eq_of_lt hd]; exact h

theorem quiesced_twoDies {s : State} {d : Nat} (hd : d < 4) :
    s.Quiesced (oneDie d ||| oneDie (d + 1)) ↔ ∀ e ∈ [d, (d + 1) % 4], s.mgmt.qdies.getLsbD e = true := by
  have hor : ∀ e, e < 4 → ((oneDie d ||| oneDie (d + 1)).getLsbD e = true ↔ e = d ∨ e = (d + 1) % 4) := fun e he => by
    rw [BitVec.getLsbD_or, Bool.or_eq_true, getLsbD_oneDie he, getLsbD_oneDie he, Nat.mod_eq_of_lt hd]
  simp only [State.Quiesced, List.mem_cons, List.not_mem_nil, or_false]
  constructor
  · rintro h e (rfl | rfl)
    · exact h _ hd ((hor _ hd).mpr (.inl rfl))
    · have hlt : (d + 1) % 4 < 4 := Nat.mod_lt _ (by decide)
      exact h _ hlt ((hor _ hlt).mpr (.inr rfl))
  · exact fun h e he hb => h e ((hor e he).mp hb)

theorem writePart_partCfg (s : State) (x bm : DWord) {d : Nat} (hd : d < 4) :
    s.writePart (partCfgReg d) x bm = s.stageWrite (partCfgReg d) (x &&& 0xF) (oneDie d) := by
  have hdie : (partCfgReg d - 0x140000) / 8 = d := by unfold partCfgReg; omega
  simp only [State.writePart, hdie]
  rw [if_pos (by unfold partCfgReg; omega)]

theorem writePart_memil (s : State) (x bm : DWord) {d : Nat} (hd : d < 4) :
    s.writePart (memilReg d) x bm = s.stageWrite (memilReg d) (x &&& 0xFF) (oneDie d) := by
  have hdie : (memilReg d - 0x140020) / 8 = d := by unfold memilReg; omega
  simp only [State.writePart, hdie]
  rw [if_neg (by unfold memilReg; omega), if_pos (by unfold memilReg; omega)]

theorem writePart_netb (s : State) (x bm : DWord) {d : Nat} (hd : d < 4) :
    s.writePart (netbReg d) x bm = s.stageWrite (netbReg d) (x &&& 1) (oneDie d ||| oneDie (d + 1)) := by
  have hdie : (netbReg d - 0x140040) / 8 = d := by unfold netbReg; omega
  simp only [State.writePart, hdie]
  rw [if_neg (by unfold netbReg; omega), if_neg (by unfold netbReg; omega), if_pos (by unfold netbReg; omega)]

theorem writePart_qtimeout (s : State) (x bm : DWord) :
    s.writePart qtimeoutReg x bm =
      if x &&& 0xFFFFFFFF = 0 then s.refuseWrite qtimeoutReg (x &&& 0xFFFFFFFF) else s.setMr qtimeoutReg (x &&& 0xFFFFFFFF) := by
  simp only [State.writePart, beq_iff_eq]
  rw [if_neg (by decide), if_neg (by decide), if_neg (by decide), if_pos trivial]

theorem writePart_viMap (s : State) (x bm : DWord) {v : Nat} (hv : v < 64) :
    s.writePart (viMapReg v) x bm =
      if (x &&& 0x10F).getLsbD 8 = true ∧ (s.mr (viPolicyReg v)).getLsbD 0 = false then s.refuseWrite (viMapReg v) (x &&& 0x10F)
      else s.stageWrite (viMapReg v) (x &&& 0x10F) ((s.mr (viMapReg v)).extractLsb' 0 4 ||| (x &&& 0x10F).extractLsb' 0 4) := by
  have hvi : (viMapReg v - 0x141000) / 0x10 = v := by unfold viMapReg; omega
  simp only [State.writePart, beq_iff_eq, hvi, Bool.and_eq_true, decide_eq_true_eq, Bool.not_eq_true']
  iterate 3 rw [if_neg (by unfold viMapReg; omega)]
  rw [if_neg (by unfold viMapReg qtimeoutReg; omega), if_neg (by unfold viMapReg partCmdReg; omega),
    if_pos (by unfold viMapReg; omega), if_pos (by unfold viMapReg; omega)]

theorem writePart_viPolicy (s : State) (x bm : DWord) {v : Nat} (hv : v < 64) :
    s.writePart (viPolicyReg v) x bm =
      if s.mapEn v = true ∧ (x &&& 0xFFF).getLsbD 0 = false then s.refuseWrite (viPolicyReg v) (x &&& 0xFFF)
      else s.setMr (viPolicyReg v) (x &&& 0xFFF) := by
  have hvi : (viPolicyReg v - 0x141000) / 0x10 = v := by unfold viPolicyReg; omega
  simp only [State.writePart, beq_iff_eq, hvi, Bool.and_eq_true, decide_eq_true_eq, Bool.not_eq_true']
  iterate 3 rw [if_neg (by unfold viPolicyReg; omega)]
  rw [if_neg (by unfold viPolicyReg qtimeoutReg; omega), if_neg (by unfold viPolicyReg partCmdReg; omega),
    if_pos (by unfold viPolicyReg; omega), if_neg (by unfold viPolicyReg; omega)]

theorem quiesced_viMap {s : State} {m y : DWord} :
    s.Quiesced (m.extractLsb' 0 4 ||| y.extractLsb' 0 4) ↔
      ∀ d, d < 4 → m.getLsbD d = true ∨ y.getLsbD d = true → s.mgmt.qdies.getLsbD d = true := by
  refine forall_congr' fun d => forall_congr' fun hd => ?_
  rw [BitVec.getLsbD_or, BitVec.getLsbD_extractLsb', BitVec.getLsbD_extractLsb', Nat.zero_add, Bool.or_eq_true]
  simp only [hd, decide_true, Bool.true_and]

/-! ### The events that write one register -/

theorem exec_prangeWrite (s : State) (x : DWord) {k r : Nat} (hk : k < 64) (hr : r < 4) :
    exec (.prangeWrite k r x) s = .next (s.writeRange k r x).1 := by
  show execPrangeWrite k r x s = _
  simp only [execPrangeWrite, hk, hr, decide_true, Bool.and_self, if_true, write64_rangeReg s x hk hr]

theorem exec_fmtWrite (s : State) (x : DWord) {k r : Nat} (hk : k < 16) (hr : r < 5) :
    exec (.fmtWrite k r x) s = .next (s.writeFmt k r x).1 := by
  show execFmtWrite k r x s = _
  simp only [execFmtWrite, hk, hr, decide_true, Bool.and_self, if_true, write64_fmtReg s x hk hr]

theorem exec_bankpartWrite (s : State) (x : DWord) {st : Nat} (h : st < 8) :
    exec (.bankpartWrite st x) s = .next (s.write64 (bankpartReg st) x) := congrArg Host.Outcome.next (if_pos h)

theorem exec_mirmetCfgWrite (s : State) (x : DWord) {st : Nat} (h : st < 8) :
    exec (.mirmetCfgWrite st x) s = .next (s.write64 (mirmetReg st) x) := congrArg Host.Outcome.next (if_pos h)

theorem exec_fqCfgWrite (s : State) (x : DWord) {d : Nat} (h : d < 4) :
    exec (.fqCfgWrite d x) s = .next (s.write64 (fqReg d 1) x) := by
  show execFqCfgWrite d x s = _
  rw [execFqCfgWrite, Nat.mod_eq_of_lt h]

theorem exec_viPolicyWrite (s : State) (x : DWord) {v : Nat} (h : v < 64) :
    exec (.viPolicyWrite v x) s = .next (s.write64 (viPolicyReg v) x) := congrArg Host.Outcome.next (if_pos h)

theorem exec_partQtimeoutWrite (s : State) (x : DWord) :
    exec (.partQtimeoutWrite x) s = .next (s.write64 qtimeoutReg x) := rfl

theorem exec_partitionRegisterWrite (s : State) (x : DWord) {off : Nat} (h : isPartReg off = true) :
    exec (.partitionRegisterWrite off x) s = .next (s.write64 off x) := congrArg Host.Outcome.next (if_pos h)

theorem isPartReg_staged {off : Nat} (lo : 0x140000 ≤ off) (hi : off < 0x140060) (aligned : off % 8 = 0) :
    isPartReg off = true := by
  simp only [isPartReg, Bool.or_eq_true, Bool.and_eq_true, decide_eq_true_eq, beq_iff_eq]; omega

theorem isPartReg_viMap {v : Nat} (h : v < 64) : isPartReg (viMapReg v) = true := by
  have hoff : 0x141000 ≤ viMapReg v ∧ viMapReg v < 0x141400 ∧ viMapReg v % 16 = 0 := by unfold viMapReg; omega
  simp only [isPartReg, hoff, decide_true, beq_self_eq_true, Bool.and_self, Bool.or_true]

/-! ### The obligation -/

/-- Both events that write a register of the partition block reach `writePart`. -/
theorem exec_partBlock {s t : State} {x : DWord} {i : Instr} {off : Nat} (lo : 0x140000 ≤ off) (hi : off < 0x141400)
    (aligned : off % 8 = 0) (hexec : exec i s = .next (s.write64 off x))
    (hw : s.writePart off x (BitVec.allOnes 64) = t) :
    exec i s = .next t ∧ exec (.registerWrite off x) s = .next t := by
  rw [exec_registerWrite s x aligned (by omega), hexec, write64_partBlock s x lo hi, hw]
  exact ⟨rfl, rfl⟩

/-- A staged register: stored where its dies are quiesced, refused otherwise. -/
theorem exec_staged {s : State} {x y : DWord} {off : Nat} {dies : BitVec 4} {ds : List Nat} (lo : 0x140000 ≤ off)
    (hi : off < 0x140060) (aligned : off % 8 = 0)
    (hw : s.writePart off x (BitVec.allOnes 64) = s.stageWrite off y dies)
    (hq : s.Quiesced dies ↔ ∀ e ∈ ds, s.mgmt.qdies.getLsbD e = true) :
    ((∀ e ∈ ds, s.mgmt.qdies.getLsbD e = true) →
      exec (.partitionRegisterWrite off x) s = .next (s.setMr off y) ∧ exec (.registerWrite off x) s = .next (s.setMr off y)) ∧
    (¬ (∀ e ∈ ds, s.mgmt.qdies.getLsbD e = true) →
      exec (.partitionRegisterWrite off x) s = .next (s.refuseWrite off y) ∧
        exec (.registerWrite off x) s = .next (s.refuseWrite off y)) := by
  have hexec := exec_partitionRegisterWrite s x (isPartReg_staged lo hi aligned)
  constructor
  · intro h
    exact exec_partBlock lo (by omega) aligned hexec (hw.trans (stageWrite_quiesced off y (hq.mpr h)))
  · intro h
    exact exec_partBlock lo (by omega) aligned hexec (hw.trans (stageWrite_refused off y (mt hq.mp h)))

/-- Settles O58, register by register: which block of the window the offset is in, then what a write there does. -/
theorem registerWrites : Obligations.RegisterWrites := by
  unfold Obligations.RegisterWrites
  intro s x
  refine ⟨?range, ?fmt, ?stack, ?die, ?vi, ?qtimeout, ?ignored, ?memory⟩
  case range =>
    intro k r hk hr
    have hreg := exec_registerWrite s x (off := rangeReg k r) (by unfold rangeReg; omega) (by unfold rangeReg; omega)
    rw [write64_rangeReg s x hk hr] at hreg
    have hexec := exec_prangeWrite s x hk hr
    refine ⟨?_, ?_, ?_⟩
    · intro bad
      have hw := writeRange_refused (x := x) (r := r) rfl bad
      exact ⟨hexec.trans (congrArg _ hw), hreg.trans (congrArg _ hw)⟩
    · intro w sound he
      have hw := writeRange_emptied (x := x) (r := r) rfl sound he
      obtain ⟨hmem, honly⟩ := pendWrite_spec w (rangeReg k r) (x &&& rangeBits r)
        [s.rangeExtent k, (s.setMr (rangeReg k r) (x &&& rangeBits r)).rangeExtent k]
      exact ⟨_, hexec.trans (congrArg _ hw), hmem, honly⟩
    · intro w sound he
      have hw := writeRange_emptied (x := x) (r := r) rfl sound he
      refine ⟨_, hexec.trans (congrArg _ hw), rfl, ?_, ?_⟩
      · intro p hp
        exact bne_iff_ne.mp (List.mem_filter.mp hp).2
      · intro n h hn
        exact restarted_home w ((w.dropWrite (rangeReg k r)).setMr (rangeReg k r) (x &&& rangeBits r)) hn
  case fmt =>
    intro k r hk hr
    have hexec := exec_fmtWrite s x hk hr
    refine ⟨?_, ?_, ?_⟩
    · intro hr2 mode
      exact hexec.trans (congrArg _ (writeFmt_mode3 hr2 mode))
    · intro w mode he
      exact hexec.trans (congrArg _ (writeFmt_emptied (x := x) rfl mode he))
    · intro w mode he
      obtain ⟨hmem, honly⟩ := pendWrite_spec w (fmtReg k r) (x &&& fmtBits r) []
      exact ⟨_, hexec.trans (congrArg _ (writeFmt_emptied (x := x) rfl mode he)), hmem, honly⟩
  case stack =>
    intro st hst
    have hbank : ∀ t, s.writeBankpart st x = t →
        exec (.bankpartWrite st x) s = .next t ∧ exec (.registerWrite (bankpartReg st) x) s = .next t := by
      rintro t rfl
      rw [exec_bankpartWrite s x hst, exec_registerWrite s x (by unfold bankpartReg; omega) (by unfold bankpartReg; omega),
        write64_bankpartReg s x hst]
      exact ⟨rfl, rfl⟩
    have hmir : ∀ t, s.writeMirmet st x = t →
        exec (.mirmetCfgWrite st x) s = .next t ∧ exec (.registerWrite (mirmetReg st) x) s = .next t := by
      rintro t rfl
      rw [exec_mirmetCfgWrite s x hst, exec_registerWrite s x (by unfold mirmetReg; omega) (by unfold mirmetReg; omega),
        write64_mirmetReg s x hst]
      exact ⟨rfl, rfl⟩
    refine ⟨?_, ?_, ?_, ?_, ?_⟩
    · exact fun h => hbank _ (writeBankpart_same h)
    · exact fun h busy => hbank _ (writeBankpart_refused h busy)
    · exact fun _ noTeam noFrame idle => hbank _ (writeBankpart_stored noTeam noFrame idle)
    · exact fun h => hmir _ (writeMirmet_legal s st h)
    · exact fun h => hmir _ (writeMirmet_illegal s st h)
  case die =>
    intro d hd
    have hfq : exec (.fqCfgWrite d x) s = .next (s.writeRingCfg (fqReg d 1) d x (BitVec.allOnes 64)) := by
      rw [exec_fqCfgWrite s x hd, write64_fqCfg s x hd]
    rw [writeRingCfg_eq] at hfq
    refine ⟨?_, ?_, ?_, ?_, ?_⟩
    · exact exec_staged (by unfold partCfgReg; omega) (by unfold partCfgReg; omega) (by unfold partCfgReg; omega)
        (writePart_partCfg s x _ hd) (quiesced_oneDie hd)
    · exact exec_staged (by unfold memilReg; omega) (by unfold memilReg; omega) (by unfold memilReg; omega)
        (writePart_memil s x _ hd) (quiesced_oneDie hd)
    · exact exec_staged (by unfold netbReg; omega) (by unfold netbReg; omega) (by unfold netbReg; omega)
        (writePart_netb s x _ hd) (quiesced_twoDies hd)
    · exact fun good => hfq.trans (congrArg _ (if_neg good))
    · exact fun bad => hfq.trans (congrArg _ (if_pos bad))
  case vi =>
    intro v hv
    have hmap : ∀ t, s.writePart (viMapReg v) x (BitVec.allOnes 64) = t → _ := fun t => exec_partBlock
      (by unfold viMapReg; omega) (by unfold viMapReg; omega) (by unfold viMapReg; omega)
      (exec_partitionRegisterWrite s x (isPartReg_viMap hv))
    have hpolicy : ∀ t, s.writePart (viPolicyReg v) x (BitVec.allOnes 64) = t → _ := fun t => exec_partBlock
      (by unfold viPolicyReg; omega) (by unfold viPolicyReg; omega) (by unfold viPolicyReg; omega) (exec_viPolicyWrite s x hv)
    have hen : s.mapEn v = true ↔ s.viEnabled v = true ∨ (s.mr (viMapReg v)).getLsbD 8 = true := by
      simp only [State.mapEn, Bool.or_eq_true]
    refine ⟨?_, ?_, ?_, ?_, ?_⟩
    · intro loads still
      exact hmap _ ((writePart_viMap s x _ hv).trans ((if_neg loads).trans (stageWrite_quiesced _ _ (quiesced_viMap.mpr still))))
    · intro bad
      refine hmap _ ((writePart_viMap s x _ hv).trans ?_)
      split
      next => rfl
      next loads => exact stageWrite_refused _ _ (mt quiesced_viMap.mp (bad.resolve_left loads))
    · intro good
      refine hpolicy _ ((writePart_viPolicy s x _ hv).trans (if_neg ?_))
      rintro ⟨on, load⟩
      rcases good with off | load'
      · exact off (hen.mp on)
      · rw [load] at load'; cases load'
    · exact fun on load => hpolicy _ ((writePart_viPolicy s x _ hv).trans (if_pos ⟨hen.mpr on, load⟩))
    · have hreg := exec_registerWrite s x (off := xltReg v 1) (by unfold xltReg; omega) (by unfold xltReg; omega)
      rw [write64_xltReg s x hv] at hreg
      exact ⟨hreg, hreg⟩
  case qtimeout =>
    have hq : ∀ t, s.writePart qtimeoutReg x (BitVec.allOnes 64) = t → _ := fun t => exec_partBlock
      (by decide) (by decide) (by decide) (exec_partQtimeoutWrite s x)
    refine ⟨?_, ?_⟩
    · exact fun h => hq _ ((writePart_qtimeout s x _).trans (if_neg h))
    · intro h
      have hw := (writePart_qtimeout s x (BitVec.allOnes 64)).trans (if_pos h)
      rw [h] at hw
      exact hq _ hw
  case ignored =>
    rintro off (h | ⟨lo, hi⟩)
    · exact exec_registerWrite_unaligned s x h
    · by_cases aligned : off % 8 = 0
      · rw [exec_registerWrite s x aligned (by omega), write64_readOnly s x lo hi]
      · exact exec_registerWrite_unaligned s x aligned
  case memory =>
    exact fun off aligned lo hi => exec_registerWrite_memory s x aligned lo hi

end Sys2Proof.Machine
end

section
/-!
The dispatch of an AOP (04 R106, R107): it owes its frames whole and joins the retire window at M.
-/
namespace Sys2Proof.Machine

open Sys2Proof.Safety

/-! ### Registers that are owed -/

theorem owed_append (r : VReg) (ps : List (Nat × Mask)) (pos : Nat) (m : Mask) :
    VReg.owed { r with prods := ps ++ [(pos, m)] } pos = VReg.owed { r with prods := ps } pos ||| m := by
  simp [VReg.owed, List.foldl_append]

/-- A register whose lanes an instruction owes whole. -/
def OwedWhole (a : Arch) (pos n : Nat) : Prop := (a.vreg n).owed pos = 0xFFFFFFFF

theorem oweV_vreg_same (a : Arch) {n : Nat} (pos : Nat) (m : Mask) (hn : n < 64) :
    (a.oweV n pos m).vreg n = { a.vreg n with prods := disown (a.vreg n).prods m ++ [(pos, m)] } :=
  vreg_setV_same a _ hn

theorem oweV_vreg_other (a : Arch) {n k : Nat} (pos : Nat) (m : Mask) (h : k ≠ n) : (a.oweV n pos m).vreg k = a.vreg k :=
  vreg_setV_other a _ h

theorem owedWhole_oweV (a : Arch) {n : Nat} (pos : Nat) (hn : n < 64) : OwedWhole (a.oweV n pos 0xFFFFFFFF) pos n := by
  have hall : ∀ x : Mask, x ||| 0xFFFFFFFF = 0xFFFFFFFF := fun x => BitVec.or_allOnes
  rw [OwedWhole, oweV_vreg_same a pos _ hn, owed_append, hall]

/-- An AOP's frames owed one after the other. -/
def Arch.oweFrames (a : Arch) (pos : Nat) (hs : List Half) : Arch := hs.foldl (fun a h => a.oweV h.d pos 0xFFFFFFFF) a

theorem oweFrames_owed {pos : Nat} {hs : List Half} (a : Arch) (hd : ∀ h ∈ hs, h.d < 64) {n : Nat}
    (h : OwedWhole a pos n ∨ ∃ x ∈ hs, x.d = n) : OwedWhole (a.oweFrames pos hs) pos n := by
  induction hs generalizing a with
  | nil => exact h.resolve_right fun ⟨_, hx, _⟩ => nomatch hx
  | cons x r ih =>
    refine ih (a.oweV x.d pos 0xFFFFFFFF) (fun h hh => hd h (List.mem_cons_of_mem _ hh)) ?_
    by_cases hx : x.d = n
    · exact .inl (hx ▸ owedWhole_oweV a pos (hd x List.mem_cons_self))
    · rcases h with h | ⟨y, hy, e⟩
      · left
        rw [OwedWhole, oweV_vreg_other a pos _ (Ne.symm hx)]
        exact h
      · rcases List.mem_cons.mp hy with rfl | hy
        · exact absurd e hx
        · exact .inr ⟨y, hy, e⟩

theorem oweFrames_other {pos : Nat} {hs : List Half} (a : Arch) {n : Nat} (h : ∀ x ∈ hs, x.d ≠ n) :
    (a.oweFrames pos hs).vreg n = a.vreg n := by
  induction hs generalizing a with
  | nil => rfl
  | cons x r ih =>
    exact (ih (a.oweV x.d pos 0xFFFFFFFF) fun y hy => h y (List.mem_cons_of_mem _ hy)).trans
      (oweV_vreg_other a pos _ (h x List.mem_cons_self).symm)

/-- Owing lanes changes the producers of a register and nothing else of it. -/
theorem oweV_prods (a : Arch) (n pos k : Nat) (m : Mask) :
    (a.oweV n pos m).vreg k = { a.vreg k with prods := ((a.oweV n pos m).vreg k).prods } := by
  by_cases hk : k = n
  · subst hk
    by_cases h64 : k < 64
    · rw [oweV_vreg_same a pos m h64]
    · have hsame : (a.oweV k pos m).vreg k = a.vreg k := by
        simp [Arch.vreg, Arch.oweV, Arch.setV, h64]
      rw [hsame]
  · rw [oweV_vreg_other a pos m hk]

theorem oweFrames_prods (pos : Nat) (hs : List Half) (a : Arch) (n : Nat) :
    (a.oweFrames pos hs).vreg n = { a.vreg n with prods := ((a.oweFrames pos hs).vreg n).prods } := by
  induction hs generalizing a with
  | nil => rfl
  | cons x r ih =>
    have h := ih (a.oweV x.d pos 0xFFFFFFFF)
    rw [oweV_prods a x.d pos n] at h
    exact h

theorem oweFrames_rest (pos : Nat) (hs : List Half) (a : Arch) :
    a.oweFrames pos hs = { a with v := (a.oweFrames pos hs).v, dirty := (a.oweFrames pos hs).dirty } := by
  induction hs generalizing a with
  | nil => rfl
  | cons x r ih => exact ih (a.oweV x.d pos 0xFFFFFFFF)

/-! ### Dispatch -/

/-- A half that passes its checks names registers that exist. -/
theorem check_none_named {c : Ctx} {s : State} {n : Need} (h : c.check s n = none) : ∀ r ∈ n.named, r < 64 := by
  intro r hr
  by_contra hlt
  have hbad : (n.meld || n.named.any fun r => decide (64 ≤ r)) = true := by
    simp only [Bool.or_eq_true, List.any_eq_true, decide_eq_true_eq]
    exact .inr ⟨r, hr, Nat.not_lt.mp hlt⟩
  simp [Ctx.check, hbad] at h

theorem aopNeed_named (f : AopForm) (c : Ctx) (h : Half) : h.d ∈ (f.need c h).named := by
  unfold AopForm.need
  split <;> simp [Need.source]

theorem exec_aopForm {i : Instr} {f : AopForm} (h : aopForm i = some f) (s : State) :
    exec i s = aopInstr f.o f.q f.d f.a f.b (aopReads f.o) s := by
  unfold aopForm at h
  split at h <;> cases h <;> rfl

theorem exec_aop_inactive {i : Instr} {f : AopForm} {s : State} {c : Ctx} (hf : aopForm i = some f) (hi : Issues s c)
    (h : c.active f.q = 0) : Idles i s c := by
  refine ⟨_, ?_, finish_same hi⟩
  rw [exec_aopForm hf, aopInstr, run]
  refine runWith_ok hi (allowed_all s c) ?_
  simp [h]

theorem room_of {c : Ctx} {ps : List Place} (h : ps = [] ∨ c.g.posts + ps.length ≤ 32) : c.room ps.length = .ok () := by
  refine if_pos ?_
  rcases h with rfl | h
  · rfl
  · simp [h]

theorem except_bind_ok {ε α β : Type} {x : Except ε α} {a : α} (h : x = .ok a) (f : α → Except ε β) : (x >>= f) = f a := by
  rw [h]; rfl

/-- The window entry of a dispatched AOP. -/
def Ctx.aopEntry (c : Ctx) (f : AopForm) : Entry := c.entry .m (.aop f.o (f.halves c) f.b.toNat)

theorem exec_aop_dispatch {i : Instr} {f : AopForm} {s : State} {c : Ctx} (hf : aopForm i = some f) (hi : Issues s c)
    (ha : c.active f.q ≠ 0) (ready : AopReady f c s) :
    Ends i s c (c.g.arch.oweFrames c.pos (f.halves c)) [c.aopEntry f] := by
  refine ⟨_, ?_, finish_arch _ _⟩
  rw [exec_aopForm hf, aopInstr, run]
  refine runWith_ok hi (allowed_all s c) ?_
  have hchecks : c.checkHalves s ((f.halves c).map fun h => (h.ent, f.need c h)) = .ok [] :=
    checkHalves_sound (by simpa using ready.checks) (by simpa using ready.full)
  have hroom := room_of ready.room
  have hleave : c.leaveWith s [] [c.aopEntry f] = .ok (s, c, [c.aopEntry f]) := leaveWith_sound (by simp [Ctx.aopEntry, Ctx.entry])
  rw [if_neg (by simpa using ha)]
  have hgood : ((f.halves c).filter fun h => !(([] : List (Nat × FaultInfo)).any fun b => b.1 == h.ent)) = f.halves c := by simp
  have hentries : (if (f.halves c).isEmpty = true then [] else [c.aopEntry f]) = [c.aopEntry f] :=
    if_neg (by simpa using ready.halves)
  refine (except_bind_ok hchecks _).trans ?_
  simp only [← AopForm.halves.eq_1, hgood, ← Ctx.aopEntry.eq_1, hentries]
  refine (except_bind_ok hroom _).trans ((except_bind_ok hleave _).trans ?_)
  rfl

end Sys2Proof.Machine
end

section
/-!
The words of an AOP's frame (04 R98, R106) and how they reach the group (R104).
-/
namespace Sys2Proof.Machine

open Sys2Proof.Safety

/-! ### Words of a frame (04 R98, R106) -/

theorem lane_setIfInBounds (v : Vector Word 32) (i : Nat) (x : Word) {l : Nat} (hl : l < 32) :
    (v.setIfInBounds i x)[l]?.getD 0 = if i = l then x else v[l]?.getD 0 := by
  rw [Vector.getElem?_setIfInBounds]
  split
  next h => simp [h ▸ hl]
  next => rfl

theorem lane_withWords_snoc (r : VReg) (ws : List (Nat × Word)) (i : Nat) (x : Word) {l : Nat} (hl : l < 32) :
    (r.withWords (ws ++ [(i, x)])).lane l = if i = l then x else (r.withWords ws).lane l := by
  simp only [VReg.withWords, VReg.lane, List.foldl_append, List.foldl_cons, List.foldl_nil]
  exact lane_setIfInBounds _ i x hl

theorem lane_withWords_one (r : VReg) (i : Nat) (x : Word) {l : Nat} (hl : l < 32) :
    (r.withWords [(i, x)]).lane l = if i = l then x else r.lane l :=
  lane_withWords_snoc r [] i x hl

/-- n words from word b on. -/
theorem lane_withWords_range (r : VReg) (b n : Nat) (w : Nat → Word) {l : Nat} (hl : l < 32) :
    (r.withWords ((List.range n).map fun m => (b + m, w m))).lane l =
      if b ≤ l ∧ l < b + n then w (l - b) else r.lane l := by
  induction n with
  | zero => rw [if_neg (by omega)]; rfl
  | succ n ih =>
    rw [List.range_succ, List.map_append, List.map_singleton, lane_withWords_snoc _ _ _ _ hl, ih]
    by_cases h : b + n = l
    · subst h
      rw [if_pos rfl, if_pos (by omega), Nat.add_sub_cancel_left]
    · rw [if_neg h]
      exact if_congr (by omega) rfl rfl

/-- STATUS with bits hi:lo replaced. -/
def statusWord (w : Word) (lo n x : Nat) : Word :=
  (w &&& ~~~ BitVec.ofNat 32 ((2 ^ n - 1) * 2 ^ lo)) ||| (BitVec.ofNat 32 (x * 2 ^ lo) &&& BitVec.ofNat 32 ((2 ^ n - 1) * 2 ^ lo))

/-- Bits are taken off and put on one by one. -/
theorem ofNat_replaceBits (w : Word) (y m : Nat) :
    BitVec.ofNat 32 (w.toNat - (w.toNat &&& m) + (y &&& m)) =
      (w &&& ~~~ BitVec.ofNat 32 m) ||| (BitVec.ofNat 32 y &&& BitVec.ofNat 32 m) := by
  have hoff : BitVec.ofNat 32 (w.toNat - (w.toNat &&& m)) = w &&& ~~~ BitVec.ofNat 32 m := by
    have hsplit : (w &&& ~~~ BitVec.ofNat 32 m) + (w &&& BitVec.ofNat 32 m) = w := by
      rw [BitVec.add_eq_or_of_and_eq_zero]
      · ext i hi; simp; cases w[i] <;> simp
      · ext i hi; simp; cases w[i] <;> simp
    have hle : w.toNat &&& m ≤ w.toNat := Nat.and_le_left
    have hsum : BitVec.ofNat 32 (w.toNat - (w.toNat &&& m)) + (w &&& BitVec.ofNat 32 m) = w := by
      have : w &&& BitVec.ofNat 32 m = BitVec.ofNat 32 (w.toNat &&& m) := by
        rw [BitVec.ofNat_and, BitVec.ofNat_toNat, BitVec.setWidth_eq]
      rw [this, ← BitVec.ofNat_add, Nat.sub_add_cancel hle, BitVec.ofNat_toNat, BitVec.setWidth_eq]
    exact add_right_cancel (hsum.trans hsplit.symm)
  rw [BitVec.ofNat_add, hoff, BitVec.ofNat_and, BitVec.add_eq_or_of_and_eq_zero]
  ext i hi; simp
  intro _ hm _; exact hm

theorem lane_withStatus (r : VReg) (lo n x : Nat) {l : Nat} (hl : l < 32) :
    (r.withStatus lo n x).lane l = if 4 = l then statusWord (r.lane 4) lo n x else r.lane l := by
  rw [VReg.withStatus, lane_withWords_one _ _ _ hl, ofNat_replaceBits]
  rfl

/-- NOROW set. -/
theorem statusWord_noRow (w : Word) : statusWord w 8 1 1 = w ||| 0x100 := by
  show (w &&& ~~~(0x100 : Word)) ||| ((0x100 : Word) &&& 0x100) = w ||| 0x100
  ext i hi
  simp only [BitVec.getElem_or, BitVec.getElem_and, BitVec.getElem_not]
  cases w[i] <;> cases (0x100 : Word)[i] <;> rfl

/-- The three flags of an AACT cleared. -/
theorem statusWord_cleared (w : Word) : statusWord w 8 3 0 = w &&& ~~~ 0x700 := by
  show (w &&& ~~~(0x700 : Word)) ||| ((0 : Word) &&& 0x700) = w &&& ~~~ 0x700
  simp

/-- SUBW set. -/
theorem statusWord_subw (w : Word) (x : Nat) : (statusWord w 0 8 x).extractLsb' 0 8 = BitVec.ofNat 8 x := by
  show ((w &&& ~~~(0xFF : Word)) ||| (BitVec.ofNat 32 (x * 1) &&& 0xFF)).extractLsb' 0 8 = BitVec.ofNat 8 x
  have hmask : (0xFF : Word).extractLsb' 0 8 = BitVec.allOnes 8 := by decide
  have hrest : (~~~(0xFF : Word)).extractLsb' 0 8 = 0#8 := by decide
  rw [BitVec.extractLsb'_or, BitVec.extractLsb'_and, BitVec.extractLsb'_and, hmask, hrest, BitVec.and_zero, BitVec.zero_or,
    BitVec.and_allOnes, Nat.mul_one]
  apply BitVec.eq_of_toNat_eq
  simp only [BitVec.extractLsb'_toNat, BitVec.toNat_ofNat, Nat.shiftRight_zero]
  omega

/-- STALL leaves SUBW. -/
theorem statusWord_stall (w : Word) (x : Nat) : (statusWord w 11 1 x).extractLsb' 0 8 = w.extractLsb' 0 8 := by
  have hbit : (BitVec.ofNat 32 ((2 ^ 1 - 1) * 2 ^ 11)).extractLsb' 0 8 = 0#8 := by decide
  have hrest : (~~~BitVec.ofNat 32 ((2 ^ 1 - 1) * 2 ^ 11)).extractLsb' 0 8 = BitVec.allOnes 8 := by decide
  rw [statusWord, BitVec.extractLsb'_or, BitVec.extractLsb'_and, BitVec.extractLsb'_and, hbit, hrest, BitVec.and_zero, BitVec.or_zero,
    BitVec.and_allOnes]

/-- An AOP that opens no row gives its frame the words of R106. -/
theorem simpleAop_lane (s : State) {o : AopOp} (ho : o = .akey ∨ o = .apre ∨ o = .ardt ∨ o = .acnt) (e : Entry) (h : Half)
    (b : Nat) {l : Nat} (hl : l < 32) : (s.simpleAop o e h b).2.lane l = aopLane o (e.frame h) (e.control h) b l := by
  rcases ho with rfl | rfl | rfl | rfl
  · have hwords := lane_withWords_range (e.frame h) 0 3 (e.control h) hl
    simp only [Nat.zero_le, Nat.zero_add, true_and, Nat.sub_zero] at hwords
    exact hwords
  · refine (lane_withWords_one (e.frame h) 3 _ hl).trans ?_
    simp only [aopLane, eq_comm]
  · exact lane_withWords_range (e.frame h) 16 8 (fun m => ((e.frame h).tag b).extractLsb' (32 * m) 32) hl
  · refine (lane_withWords_range (e.frame h) 8 8 _ hl).trans ?_
    simp only [aopLane, List.countP_eq_length_filter]
    rfl

/-- An AOP that opens no row leaves memory and the groups. -/
theorem simpleAop_only (s : State) (o : AopOp) (e : Entry) (h : Half) (b : Nat) :
    (s.simpleAop o e h b).1 = { s with units := (s.simpleAop o e h b).1.units } := by
  cases o <;> rfl

/-! ### Frame writes (04 R104) -/

theorem vreg_beyond (a : Arch) {n : Nat} (h : 64 ≤ n) : a.vreg n = VReg.zero := by
  simp [Arch.vreg, Nat.not_lt.mpr h]

/-- Who owes lanes of a register names one that exists. -/
theorem lt_of_owed {a : Arch} {n pos l : Nat} (h : ((a.vreg n).owed pos).getLsbD l = true) : n < 64 := by
  by_contra hn
  rw [vreg_beyond a (Nat.not_lt.mp hn)] at h
  simp [VReg.owed, VReg.zero] at h

theorem supplyV_other (a : Arch) {n k : Nat} (pos : Nat) (m : Mask) (w : Vector Word 32) (h : k ≠ n) :
    (a.supplyV n pos m w).vreg k = a.vreg k := by
  unfold Arch.supplyV
  dsimp only
  split
  · rfl
  · exact vreg_setV_other a _ h

theorem supplyV_lane (a : Arch) {n pos l : Nat} (m : Mask) (w : Vector Word 32)
    (h : ((a.vreg n).owed pos &&& m).getLsbD l = true) (hl : l < 32) :
    ((a.supplyV n pos m w).vreg n).lane l = w[l]?.getD 0 := by
  have hn : n < 64 := lt_of_owed (Bool.and_eq_true _ _ ▸ (BitVec.getLsbD_and ▸ h)).1
  unfold Arch.supplyV
  dsimp only
  split
  next hz => rw [beq_iff_eq.mp hz] at h; simp at h
  next =>
    rw [vreg_setV_same a _ hn]
    simp only [VReg.lane, VReg.mixed, Vector.getElem?_eq_getElem hl, Vector.getElem_ofFn, h, if_true]
    rfl

theorem supplyV_place (a : Arch) (n pos k : Nat) (m : Mask) (w : Vector Word 32) :
    ((a.supplyV n pos m w).vreg k).place = (a.vreg k).place := by
  by_cases hk : k = n
  · subst hk
    unfold Arch.supplyV
    dsimp only
    split
    · rfl
    · by_cases h64 : k < 64
      · rw [vreg_setV_same a _ h64]
      · rw [vreg_beyond _ (Nat.not_lt.mp h64), vreg_beyond _ (Nat.not_lt.mp h64)]
  · rw [supplyV_other a pos m w hk]

/-- The lanes that the AOP at `pos` owes take the words of the frame it leaves. -/
theorem supplyFrame_lane (a : Arch) {n pos l : Nat} (r : VReg) (hl : l < 32) (ho : ((a.vreg n).owed pos).getLsbD l = true) :
    ((a.supplyFrame n pos r).vreg n).lane l = r.lane l := by
  have hall : ((a.vreg n).owed pos &&& 0xFFFFFFFF).getLsbD l = true := by
    have : (a.vreg n).owed pos &&& 0xFFFFFFFF = (a.vreg n).owed pos := BitVec.and_allOnes
    rw [this]; exact ho
  have hv := supplyV_lane a 0xFFFFFFFF r.lanes hall hl
  unfold Arch.supplyFrame
  dsimp only
  split
  · rw [vreg_setV_same _ _ (lt_of_owed ho)]; exact hv
  · exact hv

theorem supplyFrame_other (a : Arch) {n k : Nat} (pos : Nat) (r : VReg) (h : k ≠ n) :
    (a.supplyFrame n pos r).vreg k = a.vreg k := by
  unfold Arch.supplyFrame
  dsimp only
  split
  · rw [vreg_setV_other _ _ h, supplyV_other a pos _ _ h]
  · exact supplyV_other a pos _ _ h

/-- A frame at M takes the tag vectors too. -/
theorem supplyFrame_tags (a : Arch) {n : Nat} (pos : Nat) (r : VReg) (hn : n < 64) (hp : (a.vreg n).place = .m) :
    ((a.supplyFrame n pos r).vreg n).tags = r.tags := by
  unfold Arch.supplyFrame
  dsimp only
  rw [if_pos (by rw [supplyV_place, hp]; rfl), vreg_setV_same _ _ hn]

theorem frameWrites_group {s : State} {core grp : Nat} {g : Group} (hg : s.group core grp = some g) (pos reg : Nat) (f : VReg) :
    s.frameWrites core grp pos reg f = s.setGroup core grp (g.mapYounger pos fun a => a.supplyFrame reg pos f) := by
  simp only [State.frameWrites, hg]

theorem aopDone_group {s : State} {core grp : Nat} {g : Group} (hg : s.group core grp = some g) (e : Entry)
    (fs : List (Nat × FaultInfo)) :
    s.aopDone core grp e fs =
      s.setGroup core grp (g.editEntry e.pos .m fun x => { x with stage := .executed, fault := fs }) := by
  simp only [State.aopDone, hg]

theorem mem_editEntry {g : Group} {pos : Nat} {p : Place} {F : Entry → Entry} {x : Entry} (hx : x ∈ g.rob) (hpos : x.pos = pos)
    (hp : x.place = p) : F x ∈ (g.editEntry pos p F).rob :=
  List.mem_map.mpr ⟨x, hx, by simp [hpos, hp]⟩

theorem mem_mapYounger {g : Group} {pos : Nat} {F : Arch → Arch} {x : Entry} (hx : x ∈ g.rob) (hpos : x.pos = pos) :
    { x with after := F x.after } ∈ (g.mapYounger pos F).rob :=
  List.mem_map.mpr ⟨x, hx, by simp [hpos]⟩

end Sys2Proof.Machine
end

section
/-!
The turn of a post at its unit (04 R99, R104).
-/
namespace Sys2Proof.Machine

open Sys2Proof.Safety

/-! ### A post acts at its unit (R99, R104) -/

/-- The post e, of an AOP with one half, is next to act at the free unit of its frame, with the frame's translation and no
failing check. -/
structure AopTurn (s : State) (core grp pos : Nat) (g : Group) (e : Entry) (o : AopOp) (h : Half) (b : Nat) : Prop where
  group : s.group core grp = some g
  only : g.rob.filter (fun x => x.pos == pos) = [e]
  position : e.pos = pos
  place : e.place = .m
  stage : e.stage = .posted
  op : e.op = .aop o [h] b
  sound : e.fault = []
  next : g.nextAt e = true
  ready : g.aopReady e [h] (aopReads o) = true
  idle : s.jobsOver core grp pos = true
  free : s.unitFree (e.frame h).unit = true
  first : s.firstInLine [(e.frame h).unit] (core, grp, pos) = true
  unbarred : s.barred o (e.frame h).unit = false
  page : (e.frame h).page ≠ none
  checks : e.aopFault o h = none

/-- The machine in which the post acts: it has left the line of its unit. -/
def State.turnTaken (s : State) (core grp pos : Nat) (g : Group) (k : Nat × Nat) : State :=
  (s.leaveLine [k] (core, grp, pos)).setGroup core grp g

theorem aopReads_eq (o : AopOp) : (o == .akey || o == .aact || o == .apass) = aopReads o := by cases o <;> rfl

/-- One that is first in line already does not line up again. -/
theorem lineUp_first {s : State} {k : Nat × Nat} {me : Nat × Nat × Nat} (h : s.firstInLine [k] me = true) :
    s.lineUp [k] me = s := by
  simp only [State.firstInLine, List.all_cons, List.all_nil, Bool.and_true, beq_iff_eq] at h
  have hmem : me ∈ (s.munit k.1 k.2).line := (List.mem_filter.mp (List.mem_of_mem_head? (Option.mem_def.mpr h))).1
  simp only [State.lineUp, List.foldl_cons, List.foldl_nil, List.contains_iff_mem.mpr hmem, if_true]

theorem sound_whole {e : Entry} (h : e.fault = []) (hs : List Half) : e.sound hs = hs := by
  simp [Entry.sound, h]

section turn
variable {s : State} {core grp pos : Nat} {g : Group} {e : Entry} {o : AopOp} {h : Half} {b : Nat}

theorem AopTurn.mem_iff (H : AopTurn s core grp pos g e o h b) {x : Entry} : (x ∈ g.rob ∧ x.pos = pos) ↔ x = e := by
  rw [← beq_iff_eq (a := x.pos), ← List.mem_filter (p := fun x : Entry => x.pos == pos), H.only, List.mem_singleton]

theorem AopTurn.entry (H : AopTurn s core grp pos g e o h b) : g.entry pos .m = some e := by
  have he := H.mem_iff.mpr rfl
  unfold Group.entry
  match hf : g.rob.find? _ with
  | none => exact absurd (List.find?_eq_none.mp hf e he.1) (by simp [H.position, H.place, H.op])
  | some x =>
    have hp := List.find?_some hf
    simp only [Bool.and_eq_true, beq_iff_eq] at hp
    rw [H.mem_iff.mp ⟨List.mem_of_find?_eq_some hf, hp.1.1⟩]

theorem AopTurn.renew (H : AopTurn s core grp pos g e o h b) {t : State} (ht : t.group core grp = some g) :
    t.renew core grp e = (t, []) := by
  have hpage : (e.before.vreg h.d).page.isNone = false := Option.isNone_eq_false_iff.mpr (Option.isSome_iff_ne_none.mpr H.page)
  simp only [State.renew, Entry.frames, H.op, sound_whole H.sound, List.map_cons, List.map_nil, List.foldl_cons, List.foldl_nil, ht,
    hpage, Bool.and_false, Bool.not_false, Bool.or_true, Bool.true_or, if_true]

theorem AopTurn.actAt (H : AopTurn s core grp pos g e o h b) (F : State → Group → Entry → State) :
    s.actAt core grp e [(e.frame h).unit] F = F (s.turnTaken core grp pos g (e.frame h).unit) g e := by
  have hgo : (s.firstInLine [(e.frame h).unit] (core, grp, pos) && [(e.frame h).unit].all s.unitFree) = true := by
    simp only [H.first, List.all_cons, List.all_nil, H.free, Bool.and_self]
  have hgroup : (s.leaveLine [(e.frame h).unit] (core, grp, pos)).group core grp = some g := H.group
  simp only [State.actAt, State.takeTurn, H.position, lineUp_first H.first, hgo, if_true, H.renew hgroup, hgroup, List.isEmpty_nil,
    H.place, H.entry]
  rfl

theorem AopTurn.runs (H : AopTurn s core grp pos g e o h b) :
    exec (.postExecute core grp pos) s =
      .next ((s.turnTaken core grp pos g (e.frame h).unit).aopExecute core grp e o [h] b) := by
  have hunits : e.units [h] = [(e.frame h).unit] := by
    simp only [Entry.units, H.place, beq_self_eq_true, if_true, List.map_cons, List.map_nil]
    rfl
  have hgo : (g.aopReady e [h] (aopReads o) && s.jobsOver core grp e.pos && !([(e.frame h).unit].any (s.barred o))) = true := by
    simp only [H.ready, H.position, H.idle, List.any_cons, List.any_nil, H.unbarred, Bool.or_false, Bool.not_false, Bool.and_self]
  have hpost : s.execPost core grp e = (s.turnTaken core grp pos g (e.frame h).unit).aopExecute core grp e o [h] b := by
    simp only [State.execPost, H.group, H.stage, H.next, H.op, aopReads_eq, hunits, hgo, H.actAt, bne_self_eq_false, Bool.not_true,
      Bool.and_false, Bool.or_false, Bool.false_eq_true, if_false, if_true]
  show execPostExecute core grp pos s = _
  simp only [execPostExecute, H.group, H.only, List.foldl_cons, List.foldl_nil, hpost]

/-! ### What it does there -/

theorem AopTurn.faults (H : AopTurn s core grp pos g e o h b) :
    e.fault ++ (e.sound [h]).filterMap (fun h => (e.aopFault o h).map fun x => (h.ent, { FaultInfo.ofCause x with place := .m })) = [] := by
  simp [H.sound, Entry.sound, H.checks]

theorem byFrame_one (h : Half) :
    byFrame ([h].filter fun h => !(([] : List (Nat × FaultInfo)).any fun f => f.1 == h.ent)) = [h] := rfl

theorem AopTurn.execute_late (H : AopTurn s core grp pos g e o h b) (late : AopOp.late o = true) (t : State) :
    t.aopExecute core grp e o [h] b = t.aopDone core grp e [] := by
  simp only [State.aopExecute, H.faults, late, if_true]

theorem AopTurn.execute_simple (H : AopTurn s core grp pos g e o h b)
    (ho : o = .akey ∨ o = .apre ∨ o = .ardt ∨ o = .acnt) (t : State) :
    t.aopExecute core grp e o [h] b =
      ((t.simpleAop o e h b).1.frameWrites core grp e.pos h.d (t.simpleAop o e h b).2).aopDone core grp e [] := by
  have hlate : AopOp.late o = false := by rcases ho with rfl | rfl | rfl | rfl <;> rfl
  have hrow : (AopOp.isRow o || o == .aact) = false := by rcases ho with rfl | rfl | rfl | rfl <;> rfl
  simp only [State.aopExecute, H.faults, hlate, hrow, byFrame_one, List.foldl_cons, List.foldl_nil, Bool.false_eq_true, if_false]

theorem AopTurn.execute_row (H : AopTurn s core grp pos g e o h b) (hlate : AopOp.late o = false)
    (hrow : (AopOp.isRow o || o == .aact) = true) {t : State} {g' : Group} (hg : (t.beginRow core grp e o h).group core grp = some g') :
    t.aopExecute core grp e o [h] b =
      if (o != .aact && noRow (e.frame h)) = true then (t.beginRow core grp e o h).aopDone core grp e []
      else (t.beginRow core grp e o h).setGroup core grp (g'.editEntry e.pos .m fun x => { x with fault := [] }) := by
  simp only [State.aopExecute, H.faults, hlate, hrow, byFrame_one, List.foldl_cons, List.foldl_nil, Bool.false_eq_true, if_false,
    if_true, List.all_cons, List.all_nil, Bool.and_true, hg]

theorem turnTaken_group (s : State) (core grp pos : Nat) (g : Group) (k : Nat × Nat) :
    (s.turnTaken core grp pos g k).group core grp = some g := setGroup_find_same ..

/-- Leaving the line changes the line of the unit alone. -/
theorem turnTaken_unit (s : State) (core grp pos : Nat) (g : Group) (k : Nat × Nat) :
    (s.turnTaken core grp pos g k).munit k.1 k.2 =
      { s.munit k.1 k.2 with line := (s.munit k.1 k.2).line.filter (· != (core, grp, pos)) } := by
  show (Table.put s.units _ _).get _ _ = _
  rw [Table.get_put_same]

/-- AWRT and APASS only report. -/
theorem AopTurn.reports (H : AopTurn s core grp pos g e o h b) (late : AopOp.late o = true) :
    (s.turnTaken core grp pos g (e.frame h).unit).aopExecute core grp e o [h] b =
      (s.leaveLine [(e.frame h).unit] (core, grp, pos)).setGroup core grp
        (g.editEntry pos .m fun x => { x with stage := .executed }) := by
  have hedit : g.editEntry pos .m (fun x => { x with stage := .executed, fault := [] }) =
      g.editEntry pos .m fun x => { x with stage := .executed } := by
    have hrob : ∀ x ∈ g.rob, (if (x.pos == pos && x.place == .m) = true then { x with stage := .executed, fault := [] } else x) =
        if (x.pos == pos && x.place == .m) = true then { x with stage := .executed } else x := by
      intro x hx
      by_cases hp : (x.pos == pos && x.place == .m) = true
      · have hxe : x = e := H.mem_iff.mp ⟨hx, beq_iff_eq.mp (Bool.and_eq_true _ _ ▸ hp).1⟩
        rw [if_pos hp, if_pos hp, hxe, H.sound]
      · rw [if_neg hp, if_neg hp]
    simp only [Group.editEntry, List.map_congr_left hrob]
  rw [H.execute_late late, aopDone_group (turnTaken_group ..), H.position, hedit, State.turnTaken, setGroup_setGroup]

/-- The frame of the half takes the words of `f`, and the post has executed. -/
theorem AopTurn.frame_written (H : AopTurn s core grp pos g e o h b) {t : State} (ht : t.group core grp = some g) (f : VReg) :
    ∃ v g', (t.frameWrites core grp e.pos h.d f).aopDone core grp e [] = v ∧ v.group core grp = some g' ∧ v.mem = t.mem ∧
      (∀ l, l < 32 → ((g.arch.vreg h.d).owed pos).getLsbD l = true → (g'.arch.vreg h.d).lane l = f.lane l) ∧
      (∀ n, n ≠ h.d → g'.arch.vreg n = g.arch.vreg n) ∧ ∃ x ∈ g'.rob, x.pos = pos ∧ x.stage = .executed ∧ x.fault = [] := by
  rw [frameWrites_group ht, aopDone_group (setGroup_find_same ..), setGroup_setGroup, H.position]
  refine ⟨_, _, rfl, setGroup_find_same .., rfl, ?_, ?_, ?_⟩
  · exact fun l hl ho => supplyFrame_lane g.arch f hl ho
  · exact fun n hn => supplyFrame_other g.arch pos f hn
  · exact ⟨_, mem_editEntry (mem_mapYounger (H.mem_iff.mpr rfl).1 H.position) H.position H.place, H.position, rfl, rfl⟩

/-- AKEY, APRE, ARDT and ACNT give the owed lanes of the frame the words of R106. -/
theorem AopTurn.simple (H : AopTurn s core grp pos g e o h b) (ho : o = .akey ∨ o = .apre ∨ o = .ardt ∨ o = .acnt) :
    ∃ v g', exec (.postExecute core grp pos) s = .next v ∧ v.group core grp = some g' ∧ v.mem = s.mem ∧
      (∀ l, l < 32 → ((g.arch.vreg h.d).owed pos).getLsbD l = true →
        (g'.arch.vreg h.d).lane l = aopLane o (e.frame h) (e.control h) b l) ∧
      (∀ n, n ≠ h.d → g'.arch.vreg n = g.arch.vreg n) ∧ ∃ x ∈ g'.rob, x.pos = pos ∧ x.stage = .executed ∧ x.fault = [] := by
  have honly := simpleAop_only (s.turnTaken core grp pos g (e.frame h).unit) o e h b
  have ht : ((s.turnTaken core grp pos g (e.frame h).unit).simpleAop o e h b).1.group core grp = some g := by
    rw [honly]; exact turnTaken_group s core grp pos g _
  obtain ⟨v, g', hv, hg', hmem, hlanes, hothers, hx⟩ := H.frame_written ht _
  refine ⟨v, g', ?_, hg', ?_, ?_, hothers, hx⟩
  · rw [H.runs, H.execute_simple ho, hv]
  · rw [hmem, honly]; rfl
  · exact fun l hl hl' => (hlanes l hl hl').trans (simpleAop_lane _ ho e h b hl)

/-- A row instruction of which no row is open sets NOROW. -/
theorem AopTurn.sets_noRow (H : AopTurn s core grp pos g e o h b) (ho : o = .acmp ∨ o = .acmpa ∨ o = .acmpo)
    (hno : Machine.noRow (e.frame h) = true) :
    ∃ v g', exec (.postExecute core grp pos) s = .next v ∧ v.group core grp = some g' ∧ v.mem = s.mem ∧
      (((g.arch.vreg h.d).owed pos).getLsbD 4 = true → (g'.arch.vreg h.d).lane 4 = (e.frame h).lane 4 ||| 0x100) ∧
      (∀ n, n ≠ h.d → g'.arch.vreg n = g.arch.vreg n) ∧ ∃ x ∈ g'.rob, x.pos = pos ∧ x.stage = .executed ∧ x.fault = [] := by
  have hlate : AopOp.late o = false := by rcases ho with rfl | rfl | rfl <;> rfl
  have hrow : (AopOp.isRow o || o == .aact) = true := by rcases ho with rfl | rfl | rfl <;> rfl
  have hnone : (o != .aact && Machine.noRow (e.frame h)) = true := by rw [hno]; rcases ho with rfl | rfl | rfl <;> rfl
  obtain ⟨v, g', hv, hg', hmem, hlanes, hothers, hx⟩ :=
    H.frame_written (turnTaken_group s core grp pos g (e.frame h).unit) ((e.frame h).withStatus 8 1 1)
  refine ⟨v, g', ?_, hg', hmem, ?_, hothers, hx⟩
  · have hstays : ∀ t : State, t.beginRow core grp e o h = t.frameWrites core grp e.pos h.d ((e.frame h).withStatus 8 1 1) :=
      fun t => if_pos hnone
    have hg : ((s.turnTaken core grp pos g (e.frame h).unit).beginRow core grp e o h).group core grp =
        some (g.mapYounger e.pos fun a => a.supplyFrame h.d e.pos ((e.frame h).withStatus 8 1 1)) := by
      rw [hstays, frameWrites_group (turnTaken_group s core grp pos g (e.frame h).unit)]
      exact setGroup_find_same ..
    rw [H.runs, H.execute_row hlate hrow hg, if_pos hnone, hstays, hv]
  · intro h4
    rw [hlanes 4 (by decide) h4, lane_withStatus _ _ _ _ (by decide), if_pos rfl, statusWord_noRow]
end turn

end Sys2Proof.Machine
end

section
/-!
A Mirmet unit at work (04 R100 to R103): its sub-waves and their boundaries, refreshes, and the end of an instruction.
-/
namespace Sys2Proof.Machine

open Sys2Proof.Safety

/-! ### Sub-waves (R100 to R102) -/

/-- The time from which the next sub-wave of a unit may start. -/
def MUnit.due (u : MUnit) (s : State) (stack : Nat) (j : RowJob) : Nat :=
  max (max u.ends j.since) (if u.ends == 0 then 0 else u.start + s.mfaw stack)

/-- The next sub-wave can start: none is under way, banks are left, and its time has come, with no refresh. -/
structure MUnit.MayStart (u : MUnit) (s : State) (stack : Nat) (j : RowJob) : Prop where
  idle : j.now = []
  left : j.todo ≠ []
  due : u.due s stack j ≤ s.ns
  refresh : u.refresh ≤ s.ns

theorem mayStart_iff (u : MUnit) (s : State) (stack : Nat) (j : RowJob) :
    (!j.now.isEmpty || j.todo.isEmpty || decide (s.ns < u.due s stack j) || decide (s.ns < u.refresh)) = true ↔
      ¬ u.MayStart s stack j := by
  rw [← not_iff_not, not_not]
  simp only [Bool.or_eq_true, Bool.not_eq_true', List.isEmpty_eq_false_iff, List.isEmpty_iff, decide_eq_true_eq, not_or, not_not,
    Nat.not_lt]
  exact ⟨fun ⟨⟨⟨a, b⟩, c⟩, d⟩ => ⟨a, b, c, d⟩, fun ⟨a, b, c, d⟩ => ⟨⟨⟨a, b⟩, c⟩, d⟩⟩

theorem openRows_only (u : MUnit) (bs : List Nat) (row : Nat) (keep : Bool) (most : Nat) :
    u.openRows bs row keep most = { u with rows := (u.openRows bs row keep most).rows } := by
  unfold MUnit.openRows
  dsimp only
  split <;> rfl

theorem drop_length_take {α : Type} (n : Nat) (xs : List α) : xs.drop (xs.take n).length = xs.drop n := by
  rw [List.length_take]
  rcases Nat.le_total n xs.length with h | h
  · rw [Nat.min_eq_left h]
  · rw [Nat.min_eq_right h, List.drop_length, List.drop_eq_nil_of_le h]

/-- The next ACTMAX banks are taken. -/
theorem startWave_starts {u : MUnit} {s : State} {stack : Nat} {j : RowJob} (hj : u.job = some j) (hgo : u.MayStart s stack j)
    (o : AopOp) (row total : Nat) :
    ∃ rows fin, u.startWave s stack o row total =
      { u with rows := rows, start := s.ns, ends := fin,
               job := some { j with now := j.todo.take (s.actMax stack), todo := j.todo.drop (s.actMax stack),
                                    waves := j.waves + 1, stall := j.stall || u.due s stack j < u.refresh } } := by
  have hcond := mt (mayStart_iff u s stack j).mp (not_not.mpr hgo)
  have hfin : ∃ fin, u.startWave s stack o row total =
      { u.openRows (j.todo.take (s.actMax stack)) row (total ≤ s.actMax stack) (s.actMax stack) with
        start := s.ns, ends := fin,
        job := some { j with now := j.todo.take (s.actMax stack), todo := j.todo.drop (j.todo.take (s.actMax stack)).length,
                             waves := j.waves + 1, stall := j.stall || u.due s stack j < u.refresh } } := by
    unfold MUnit.startWave
    rw [hj]
    apply Exists.intro
    exact if_neg hcond
  obtain ⟨fin, h⟩ := hfin
  rw [openRows_only, drop_length_take] at h
  exact ⟨_, fin, h⟩

theorem startWave_stays {u : MUnit} {s : State} {stack : Nat} {j : RowJob} (hj : u.job = some j) (hno : ¬ u.MayStart s stack j)
    (o : AopOp) (row total : Nat) : u.startWave s stack o row total = u := by
  unfold MUnit.startWave
  rw [hj]
  exact if_pos ((mayStart_iff u s stack j).mpr hno)

/-- Two jobs are of the same post's frame, and work on the same banks. -/
structure SameWork (i j : RowJob) : Prop where
  core : j.core = i.core
  grp : j.grp = i.grp
  pos : j.pos = i.pos
  reg : j.reg = i.reg
  since : j.since = i.since
  banks : i.now = [] → j.now ++ j.todo = i.todo

/-- Whether or not a sub-wave starts, the unit goes on with its job. -/
theorem startWave_job {u : MUnit} {i : RowJob} (hi : u.job = some i) (s : State) (stack : Nat) (o : AopOp) (row total : Nat) :
    (u.startWave s stack o row total).more = u.more ∧ ∃ j, (u.startWave s stack o row total).job = some j ∧ SameWork i j := by
  by_cases hgo : u.MayStart s stack i
  · obtain ⟨rows, fin, h⟩ := startWave_starts hi hgo o row total
    rw [h]
    exact ⟨rfl, _, rfl, rfl, rfl, rfl, rfl, rfl, fun _ => List.take_append_drop ..⟩
  · rw [startWave_stays hi hgo]
    exact ⟨rfl, _, hi, rfl, rfl, rfl, rfl, rfl, fun h => by rw [h]; rfl⟩

theorem munit_setMunit (s : State) (stack pch : Nat) (u : MUnit) : (s.setMunit stack pch u).munit stack pch = u :=
  Table.get_put_same ..

theorem setMunit_setMunit (s : State) (stack pch : Nat) (u v : MUnit) :
    (s.setMunit stack pch u).setMunit stack pch v = s.setMunit stack pch v := by
  simp [State.setMunit, Table.put_put_same]

/-- The rows that an AACT closes before it begins. -/
def State.precharged (t : State) (o : AopOp) (f : VReg) : State := if o == .aact then t.closeRows f else t

theorem precharged_job (t : State) (o : AopOp) (f : VReg) :
    ((t.precharged o f).munit f.unit.1 f.unit.2).job = (t.munit f.unit.1 f.unit.2).job := by
  unfold State.precharged
  split
  · show ((t.setMunit f.unit.1 f.unit.2 { t.munit f.unit.1 f.unit.2 with
      rows := (t.munit f.unit.1 f.unit.2).rows.filter fun x => x.2 != (f.lane 3).toNat }).munit f.unit.1 f.unit.2).job = _
    rw [munit_setMunit]
  · rfl

theorem precharged_setMunit (t : State) (o : AopOp) (f : VReg) (u : MUnit) :
    (t.precharged o f).setMunit f.unit.1 f.unit.2 u = t.setMunit f.unit.1 f.unit.2 u := by
  unfold State.precharged
  split
  · exact setMunit_setMunit ..
  · rfl

/-- A row instruction begins on a free unit. -/
theorem beginRow_free {t : State} {e : Entry} {o : AopOp} {h : Half} (hrow : (o != .aact && noRow (e.frame h)) = false)
    (hfree : (t.munit (e.frame h).unit.1 (e.frame h).unit.2).job = none) (core grp : Nat) :
    ∃ u j, t.beginRow core grp e o h = t.setMunit (e.frame h).unit.1 (e.frame h).unit.2 u ∧ u.job = some j ∧
      j.core = core ∧ j.grp = grp ∧ j.pos = e.pos ∧ j.reg = h.d ∧ j.now ++ j.todo = (e.rowOf o h).2 := by
  let f := e.frame h
  let u := (t.precharged o f).munit f.unit.1 f.unit.2
  let i : RowJob := ⟨core, grp, e.pos, h.d, (t.precharged o f).ns, [], (e.rowOf o h).2, 0, false, false⟩
  obtain ⟨-, j, hj, hcore, hgrp, hpos, hreg, -, hbanks⟩ :=
    startWave_job (u := { u with job := some i }) rfl (t.precharged o f) f.unit.1 o (e.rowOf o h).1 (e.rowOf o h).2.length
  refine ⟨_, j, ?_, hj, hcore, hgrp, hpos, hreg, hbanks rfl⟩
  have hnone : ¬ (u.job.isSome = true) := by rw [precharged_job, hfree]; exact Bool.false_ne_true
  unfold State.beginRow
  refine (if_neg (by rw [hrow]; exact Bool.false_ne_true)).trans ?_
  refine (if_neg hnone).trans ?_
  exact precharged_setMunit ..

section turn
variable {s : State} {core grp pos : Nat} {g : Group} {e : Entry} {o : AopOp} {h : Half} {b : Nat}

theorem AopTurn.unit_free (H : AopTurn s core grp pos g e o h b) :
    ((s.turnTaken core grp pos g (e.frame h).unit).munit (e.frame h).unit.1 (e.frame h).unit.2).job = none := by
  have hfree := H.free
  simp only [State.unitFree, Bool.and_eq_true, Option.isNone_iff_eq_none] at hfree
  rw [turnTaken_unit]
  exact hfree.1.1

/-- AACT and the row instructions begin their sub-waves over their banks. -/
theorem AopTurn.begins (H : AopTurn s core grp pos g e o h b)
    (ho : o = .aact ∨ ((o = .acmp ∨ o = .acmpa ∨ o = .acmpo) ∧ noRow (e.frame h) = false)) :
    ∃ v g' j, exec (.postExecute core grp pos) s = .next v ∧ v.group core grp = some g' ∧ v.mem = s.mem ∧ g'.arch = g.arch ∧
      (v.munit (e.frame h).unit.1 (e.frame h).unit.2).job = some j ∧ j.core = core ∧ j.grp = grp ∧ j.pos = pos ∧ j.reg = h.d ∧
      j.now ++ j.todo = (e.rowOf o h).2 := by
  have hlate : AopOp.late o = false := by rcases ho with rfl | ⟨rfl | rfl | rfl, -⟩ <;> rfl
  have hrow : (AopOp.isRow o || o == .aact) = true := by rcases ho with rfl | ⟨rfl | rfl | rfl, -⟩ <;> rfl
  have hsome : (o != .aact && noRow (e.frame h)) = false := by
    rcases ho with rfl | ⟨-, hno⟩
    · rfl
    · rw [hno, Bool.and_false]
  obtain ⟨u, j, hbegin, hj, hcore, hgrp, hpos, hreg, hbanks⟩ := beginRow_free hsome H.unit_free core grp
  have hgroup : ((s.turnTaken core grp pos g (e.frame h).unit).setMunit (e.frame h).unit.1 (e.frame h).unit.2 u).group core grp =
      some g := turnTaken_group s core grp pos g _
  have hrun : exec (.postExecute core grp pos) s =
      .next (((s.turnTaken core grp pos g (e.frame h).unit).setMunit (e.frame h).unit.1 (e.frame h).unit.2 u).setGroup core grp
        (g.editEntry e.pos .m fun x => { x with fault := [] })) := by
    rw [H.runs, H.execute_row hlate hrow (hbegin ▸ hgroup), if_neg (by rw [hsome]; exact Bool.false_ne_true), hbegin]
  refine ⟨_, _, j, hrun, setGroup_find_same .., rfl, rfl, ?_, hcore, hgrp, hpos.trans H.position, hreg, hbanks⟩
  exact (congrArg MUnit.job (munit_setMunit ..)).trans hj
end turn

/-! ### Sub-wave boundaries -/

theorem nextJob_only (s : State) (stack pch : Nat) : s.nextJob stack pch = { s with units := (s.nextJob stack pch).units } := by
  unfold State.nextJob
  dsimp only
  split
  · rfl
  · split <;> rfl

theorem nextJob_last {s : State} {stack pch : Nat} (h : (s.munit stack pch).more = []) :
    ((s.nextJob stack pch).munit stack pch).job = none := by
  simp only [State.nextJob, h, munit_setMunit]

/-- The job of a consist's other frame follows, from now on. -/
theorem nextJob_more {s : State} {stack pch : Nat} {i : RowJob} {r : List RowJob} (h : (s.munit stack pch).more = i :: r) :
    ((s.nextJob stack pch).munit stack pch).more = r ∧ ∃ k, ((s.nextJob stack pch).munit stack pch).job = some k ∧
      SameWork { i with since := s.ns } k := by
  unfold State.nextJob
  simp only [h]
  split
  · rw [munit_setMunit]
    exact startWave_job rfl ..
  · rw [munit_setMunit]
    exact ⟨rfl, _, rfl, rfl, rfl, rfl, rfl, rfl, fun hn => by rw [show i.now = [] from hn]; rfl⟩

theorem subWave_cases {s : State} {stack pch : Nat} {j : RowJob} {g : Group} {e : Entry} {o : AopOp} {hs : List Half} {b : Nat}
    {h : Half} (hj : (s.munit stack pch).job = some j) (hg : s.group j.core j.grp = some g) (he : g.entry j.pos .m = some e)
    (hop : e.op = .aop o hs b) (hh : hs.find? (fun k => k.d == j.reg) = some h) :
    exec (.subWave stack pch) s = .next (
      if j.now ≠ [] ∧ s.ns < (s.munit stack pch).ends then s
      else if j.todo = [] then s.endRow stack pch { j with now := [] }
      else s.setMunit stack pch ({ s.munit stack pch with job := some { j with now := [] } }.startWave s stack o
        (e.rowOf o h).1 (e.rowOf o h).2.length)) := by
  have hframe : s.jobFrame j = some (e, h, o) := by simp only [State.jobFrame, hg, he, hop, hh, Option.bind_some, Option.map_some]
  show execSubWave stack pch s = _
  simp only [execSubWave, hj, hframe, Bool.and_eq_true, Bool.not_eq_true', List.isEmpty_eq_false_iff, decide_eq_true_eq,
    List.isEmpty_iff]

theorem exec_refresh {s : State} {stack pch bank : Nat} (lo : 8 ≤ bank) (hi : bank < 16) (split : s.bankSplit stack = true)
    (ended : (s.munit stack pch).refresh ≤ s.ns) (first : ∀ j, (s.munit stack pch).job = some j → j.fresh = false) :
    exec (.computeBankRefresh stack pch bank) s = .next (s.setMunit stack pch { s.munit stack pch with
      refresh := s.ns + 160, job := (s.munit stack pch).job.map fun j => { j with fresh := true } }) := by
  have hagain : (((s.munit stack pch).job.map (·.fresh)).getD false) = false := by
    cases hj : (s.munit stack pch).job with
    | none => rfl
    | some j => exact first j hj
  refine congrArg Host.Outcome.next (if_neg ?_)
  simp only [split, hagain, Bool.or_eq_true, Bool.not_true, decide_eq_true_eq, Bool.false_eq_true, not_or, not_false_eq_true,
    true_and, and_true]
  omega

/-- At most one refresh comes within an instruction. -/
theorem exec_refresh_again {s : State} {stack pch : Nat} (bank : Nat) {j : RowJob} (hj : (s.munit stack pch).job = some j)
    (hf : j.fresh = true) : exec (.computeBankRefresh stack pch bank) s = .next s := by
  refine congrArg Host.Outcome.next (if_pos ?_)
  simp only [hj, hf, Option.map_some, Option.getD_some, Bool.or_true, Bool.true_or]

/-- Accesses wait while an instruction is in progress. -/
theorem exec_windowAccess_busy {s : State} {k : Nat} (h : (s.units.get k MUnit.zero).job ≠ none) :
    exec (.computeWindowAccess k) s = .next s := by
  show execComputeWindowAccess k s = _
  simp only [execComputeWindowAccess]
  split <;> simp_all

/-! ### The end of a row instruction -/

/-- From s to t only memory, the accounts and the count of corrected errors change. -/
def MemoryOnly (s t : State) : Prop := t = { s with mem := t.mem, acct := t.acct, corrected := t.corrected }

theorem MemoryOnly.trans {s t u : State} (h : MemoryOnly s t) (k : MemoryOnly t u) : MemoryOnly s u := by
  unfold MemoryOnly at *
  rw [k, h]

theorem count_memoryOnly (s : State) (vi i n : Nat) : MemoryOnly s (s.count vi i n) := by
  unfold MemoryOnly
  rw [State.count_only]

theorem count_mem (s : State) (vi i n : Nat) : (s.count vi i n).mem = s.mem := by rw [State.count_only]

/-- Bytes written at several addresses. -/
def setAll (m : List Host.Cell) (ws : List (Nat × List Byte)) : List Host.Cell := ws.foldl (fun m w => Memory.setBytes m w.1 w.2) m

theorem foldl_writeBytes (ws : List (Nat × List Byte)) (s : State) :
    MemoryOnly s (ws.foldl (fun s w => s.writeBytes w.1 w.2) s) ∧
      (ws.foldl (fun s w => s.writeBytes w.1 w.2) s).mem = setAll s.mem ws := by
  induction ws generalizing s with
  | nil => exact ⟨rfl, rfl⟩
  | cons w r ih =>
    obtain ⟨honly, hmem⟩ := ih (s.writeBytes w.1 w.2)
    exact ⟨MemoryOnly.trans (t := s.writeBytes w.1 w.2) rfl honly, hmem⟩

/-- The rows of the enabled banks as a row instruction leaves them: for each, its bytes' address and its words. -/
def State.rowsWritten (s : State) (o : AopOp) (f : VReg) (a0 a1 : Word) : List (Nat × List Byte) :=
  (VReg.banks f).map fun j => (dramCell f.unit.1 f.unit.2 (8 + j) (f.lane 3).toNat 0,
    (s.rowBank o f a0 a1 j).1.flatMap fun w => bytesOfNat 4 w.toNat)

/-- The machine after a row instruction: a late one has written its rows. -/
theorem rowEffect_state (s : State) (vi : Nat) (o : AopOp) (f : VReg) (a0 a1 : Word) (waves : Nat) (stall : Bool) :
    MemoryOnly s (s.rowEffect vi o f a0 a1 waves stall).1 ∧
    (s.rowEffect vi o f a0 a1 waves stall).1.mem = if AopOp.late o = true then setAll s.mem (s.rowsWritten o f a0 a1) else s.mem := by
  rcases hu : f.unit with ⟨st, pc⟩
  simp only [State.rowEffect, State.rowsWritten, hu]
  cases hl : AopOp.late o
  · simp only [Bool.false_eq_true, if_false]
    exact ⟨(count_memoryOnly ..).trans rfl, count_mem ..⟩
  · simp only [if_true]
    generalize 1024 * _ = n
    have hfold : ∀ t : State, ((VReg.banks f).map fun j => (j, s.rowBank o f a0 a1 j)).foldl (fun s x =>
        s.writeBytes (dramCell st pc (8 + x.1) (f.lane 3).toNat 0) (x.2.1.flatMap fun w => bytesOfNat 4 w.toNat)) t =
        ((VReg.banks f).map fun j => (dramCell st pc (8 + j) (f.lane 3).toNat 0,
          (s.rowBank o f a0 a1 j).1.flatMap fun w => bytesOfNat 4 w.toNat)).foldl (fun s w => s.writeBytes w.1 w.2) t := fun t => by
      rw [List.foldl_map, List.foldl_map]
    rw [hfold]
    obtain ⟨honly, hmem⟩ := foldl_writeBytes ((VReg.banks f).map fun j => (dramCell st pc (8 + j) (f.lane 3).toNat 0,
      (s.rowBank o f a0 a1 j).1.flatMap fun w => bytesOfNat 4 w.toNat)) ((s.count vi 4 n).count vi 5 n)
    rw [count_mem, count_mem] at hmem
    exact ⟨(((count_memoryOnly ..).trans (count_memoryOnly ..)).trans honly).trans rfl, hmem⟩

theorem rowWrites_only (s : State) (vi : Nat) (o : AopOp) (e : Entry) (h : Half) (j : RowJob) :
    MemoryOnly s (s.rowWrites vi o e h j).1 := by
  unfold State.rowWrites
  split
  · exact rfl
  · exact (rowEffect_state ..).1

/-- The instruction's effect, as one step, after the unit has gone on to the next job. -/
theorem endRow_spec {s : State} {stack pch : Nat} {j : RowJob} {g : Group} {e : Entry} {o : AopOp} {hs : List Half} {b : Nat} {h : Half}
    (hg : s.group j.core j.grp = some g) (he : g.entry j.pos .m = some e) (hop : e.op = .aop o hs b)
    (hh : hs.find? (fun k => k.d == j.reg) = some h) :
    ∃ v g', (s.endRow stack pch j = v ∨ s.endRow stack pch j = v.advance j.core j.grp) ∧ v.group j.core j.grp = some g' ∧
      v.mem = ((s.nextJob stack pch).rowWrites g.vi o e h j).1.mem ∧ v.units = (s.nextJob stack pch).units ∧
      g'.arch = g.arch.supplyFrame j.reg j.pos ((s.nextJob stack pch).rowWrites g.vi o e h j).2 := by
  have hgt : (s.nextJob stack pch).group j.core j.grp = some g := by rw [nextJob_only]; exact hg
  have honly := rowWrites_only (s.nextJob stack pch) g.vi o e h j
  have hgw : ((s.nextJob stack pch).rowWrites g.vi o e h j).1.group j.core j.grp = some g := by rw [honly]; exact hgt
  have hunits : ((s.nextJob stack pch).rowWrites g.vi o e h j).1.units = (s.nextJob stack pch).units := by rw [honly]
  have hvi : ((s.group j.core j.grp).map (·.vi)).getD 0 = g.vi := by rw [hg]; rfl
  unfold State.endRow
  simp only [hvi, hgt, Option.bind_some, he, Option.map_some, hop, hh, frameWrites_group hgw, setGroup_find_same, setGroup_setGroup]
  generalize (s.nextJob stack pch).rowWrites g.vi o e h j = w at *
  split
  · exact ⟨_, _, .inl rfl, setGroup_find_same .., rfl, hunits, rfl⟩
  · split
    · exact ⟨_, _, .inr rfl, setGroup_find_same .., rfl, hunits, rfl⟩
    · exact ⟨_, _, .inl rfl, setGroup_find_same .., rfl, hunits, rfl⟩

end Sys2Proof.Machine
end

section
/-!
The effect of a row instruction on memory and tags (04 R106).
-/
namespace Sys2Proof.Machine

open Sys2Proof.Safety

/-! ### Words of memory -/

theorem toNat_append_byte {n : Nat} (x : BitVec n) (b : Byte) : (x ++ b).toNat = x.toNat * 256 + b.toNat := by
  rw [BitVec.toNat_append, ← Nat.shiftLeft_add_eq_or_of_lt b.isLt, Nat.shiftLeft_eq]

theorem memWord_toNat (s : State) (a : Nat) : (memWord s a).toNat = (Memory.byte s.mem a).toNat +
    256 * (Memory.byte s.mem (a + 1)).toNat + 256 ^ 2 * (Memory.byte s.mem (a + 2)).toNat +
    256 ^ 3 * (Memory.byte s.mem (a + 3)).toNat := by
  rw [memWord, toNat_append_byte, toNat_append_byte, toNat_append_byte]
  omega

theorem memWord_congr {s v : State} {a : Nat} (h : ∀ k, k < 4 → Memory.byte v.mem (a + k) = Memory.byte s.mem (a + k)) :
    memWord v a = memWord s a := by
  have h0 : Memory.byte v.mem a = Memory.byte s.mem a := h 0 (by decide)
  simp only [memWord, h0, h 1 (by decide), h 2 (by decide), h 3 (by decide)]

/-- A word whose four bytes stand at an address is the word there. -/
theorem memWord_of_bytes {v : State} {a : Nat} {w : Word}
    (h : ∀ k, k < 4 → Memory.byte v.mem (a + k) = BitVec.ofNat 8 (w.toNat / 256 ^ k)) : memWord v a = w := by
  apply BitVec.eq_of_toNat_eq
  have h0 : Memory.byte v.mem a = BitVec.ofNat 8 (w.toNat / 256 ^ 0) := h 0 (by decide)
  rw [memWord_toNat, h0, h 1 (by decide), h 2 (by decide), h 3 (by decide)]
  have hw := w.isLt
  simp only [BitVec.toNat_ofNat]
  omega

/-- The word at an offset of a stretch of memory. -/
theorem fieldOf_readBytes (s : State) (a : Nat) {n off : Nat} (h : off + 4 ≤ n) :
    BitVec.ofNat 32 (fieldOf (s.readBytes a n) off 4) = memWord s (a + off) := by
  have hcut : ((s.readBytes a n).drop off).take 4 = (List.range 4).map fun k => Memory.byte s.mem (a + off + k) := by
    apply List.ext_getElem
    · simp [State.readBytes, Memory.bytes]; omega
    · intro k h1 h2
      simp [State.readBytes, Memory.bytes, Nat.add_assoc]
  apply BitVec.eq_of_toNat_eq
  rw [memWord_toNat, fieldOf, hcut]
  have h0 := (Memory.byte s.mem (a + off)).isLt
  have h1 := (Memory.byte s.mem (a + off + 1)).isLt
  have h2 := (Memory.byte s.mem (a + off + 2)).isLt
  have h3 := (Memory.byte s.mem (a + off + 3)).isLt
  simp only [List.range, List.range.loop, List.map_cons, List.map_nil, natOfBytes, Nat.add_zero, BitVec.toNat_ofNat]
  omega

theorem length_wordBytes (ws : List Word) : (ws.flatMap fun w => bytesOfNat 4 w.toNat).length = 4 * ws.length := by
  induction ws with
  | nil => rfl
  | cons w r ih =>
    have hlen : (bytesOfNat 4 w.toNat).length = 4 := rfl
    rw [List.flatMap_cons, List.length_append, hlen, ih, List.length_cons, Nat.mul_succ, Nat.add_comm]

theorem getElem?_bytesOfNat (n x k : Nat) (h : k < n) : (bytesOfNat n x)[k]? = some (BitVec.ofNat 8 (x / 256 ^ k)) := by
  induction n generalizing x k with
  | zero => omega
  | succ n ih =>
    cases k with
    | zero => simp [bytesOfNat]
    | succ k =>
      rw [bytesOfNat, List.getElem?_cons_succ, ih _ _ (by omega), Nat.div_div_eq_div_mul, Nat.pow_succ, Nat.mul_comm]

/-- Byte k of word c of a list of words. -/
theorem getElem?_wordBytes (ws : List Word) {c k : Nat} (hk : k < 4) :
    (ws.flatMap fun w => bytesOfNat 4 w.toNat)[4 * c + k]? = ws[c]?.map fun w => BitVec.ofNat 8 (w.toNat / 256 ^ k) := by
  induction ws generalizing c with
  | nil => rfl
  | cons w r ih =>
    have hlen : (bytesOfNat 4 w.toNat).length = 4 := rfl
    rw [List.flatMap_cons]
    cases c with
    | zero => rw [List.getElem?_append_left (by omega), Nat.mul_zero, Nat.zero_add, getElem?_bytesOfNat _ _ _ hk]; rfl
    | succ c =>
      rw [List.getElem?_append_right (by omega), hlen, show 4 * (c + 1) + k - 4 = 4 * c + k by omega, ih]
      rfl

/-! ### Stretches that do not meet -/

/-- Two stretches of bytes do not meet. -/
def Apart (v w : Nat × List Byte) : Prop := v.1 + v.2.length ≤ w.1 ∨ w.1 + w.2.length ≤ v.1

theorem setAll_other {m : List Host.Cell} {ws : List (Nat × List Byte)} {a : Nat}
    (h : ∀ w ∈ ws, a < w.1 ∨ w.1 + w.2.length ≤ a) : Memory.byte (setAll m ws) a = Memory.byte m a := by
  induction ws generalizing m with
  | nil => rfl
  | cons w r ih =>
    exact (ih (m := Memory.setBytes m w.1 w.2) fun x hx => h x (List.mem_cons_of_mem _ hx)).trans
      (Memory.byte_setBytes_other (h w List.mem_cons_self))

theorem setAll_same {m : List Host.Cell} {ws : List (Nat × List Byte)} (hm : Memory.wf m = true) (apart : ws.Pairwise Apart)
    {w : Nat × List Byte} (hw : w ∈ ws) {i : Nat} (hi : i < w.2.length) :
    Memory.byte (setAll m ws) (w.1 + i) = w.2[i] := by
  induction ws generalizing m with
  | nil => cases hw
  | cons x r ih =>
    obtain ⟨hx, hr⟩ := List.pairwise_cons.mp apart
    rcases List.mem_cons.mp hw with rfl | hw
    · refine (setAll_other (m := Memory.setBytes m w.1 w.2) fun y hy => ?_).trans (Memory.byte_setBytes_same hm hi)
      rcases hx y hy with h | h <;> omega
    · exact ih (Memory.wf_setBytes x.1 x.2 hm) hr hw

/-! ### A row's columns (R106) -/

theorem columnEffect_eq (o : AopOp) (f : VReg) (a0 a1 w : Word) (t : Bool) :
    columnEffect o f a0 a1 w t = rowColumn o f a0 a1 w t := by
  have htest : rowTest (f.lane 0) (f.lane 1) w = decide ((w ^^^ f.lane 0) &&& f.lane 1 = 0) := rfl
  have hbit : ∀ (b : Bool) (i : Nat), bitNat b i = 2 ^ i * b.toNat := fun b i => by cases b <;> simp [bitNat]
  have hfield : ∀ lo, (a0.extractLsb' lo 5).toNat = a0.toNat / 2 ^ lo % 32 := fun lo => by
    rw [BitVec.extractLsb'_toNat, Nat.shiftRight_eq_div_pow]
  cases o with
  | apass => simp only [columnEffect, rowColumn, hbit, hfield, Nat.reducePow, Nat.one_mul]
  | _ => simp only [columnEffect, rowColumn, htest]

/-- The address of column c of the row of a frame in compute bank j. -/
def VReg.column (f : VReg) (j c : Nat) : Nat := dramCell f.unit.1 f.unit.2 (8 + j) (f.lane 3).toNat (4 * c)

/-- An uncorrectable error lies in the column. -/
def State.badColumn (s : State) (f : VReg) (j c : Nat) : Bool :=
  s.ue.any fun x => f.column j c ≤ x && x < f.column j c + 4

/-- What a row instruction makes of a column: one with an uncorrectable error keeps its word and loses its tag. -/
def State.columnAfter (s : State) (o : AopOp) (f : VReg) (a0 a1 : Word) (j c : Nat) : Word × Bool :=
  if s.badColumn f j c then (memWord s (f.column j c), false)
  else rowColumn o f a0 a1 (memWord s (f.column j c)) ((f.tags.getD j 0).getLsbD c)

theorem column_eq (f : VReg) (j c : Nat) : f.column j c = f.column j 0 + 4 * c := by
  simp only [VReg.column, dramCell]; omega

/-- The tag vector of a row's columns. -/
def tagVector (cols : List (Word × Bool)) : BitVec 256 :=
  cols.zipIdx.foldl (fun (t : BitVec 256) x => if x.1.2 then t ||| ((1 : BitVec 256) <<< x.2) else t) 0

theorem rowBank_columns (s : State) (o : AopOp) (f : VReg) (a0 a1 : Word) (j : Nat) :
    (s.rowBank o f a0 a1 j).1 = (List.range 256).map (fun c => (s.columnAfter o f a0 a1 j c).1) ∧
    (s.rowBank o f a0 a1 j).2.1 = tagVector ((List.range 256).map (s.columnAfter o f a0 a1 j)) := by
  have hcell : ∀ c ∈ List.range 256, (if (s.ue.any fun x => f.column j 0 + 4 * c ≤ x && x < f.column j 0 + 4 * c + 4) = true
      then (BitVec.ofNat 32 (fieldOf (s.readBytes (f.column j 0) 1024) (4 * c) 4), false)
      else columnEffect o f a0 a1 (BitVec.ofNat 32 (fieldOf (s.readBytes (f.column j 0) 1024) (4 * c) 4)) ((f.tag j).getLsbD c)) =
      s.columnAfter o f a0 a1 j c := by
    intro c hc
    have hc : c < 256 := List.mem_range.mp hc
    rw [fieldOf_readBytes s _ (by omega), columnEffect_eq, ← column_eq]
    rfl
  have hcols := List.map_congr_left hcell
  constructor
  · rw [← Function.comp_def (fun x : Word × Bool => x.1), ← List.map_map]
    exact congrArg (List.map fun x : Word × Bool => x.1) hcols
  · rw [← hcols]
    unfold State.rowBank tagVector
    dsimp only
    rfl

/-- Bit c of a tag vector is the tag of column c. -/
theorem getLsbD_tagVector {cols : List (Word × Bool)} {c : Nat} {x : Word × Bool} (hx : cols[c]? = some x) (hc : c < 256) :
    (tagVector cols).getLsbD c = x.2 := by
  have hor : ∀ (t : BitVec 256) (x : (Word × Bool) × Nat), (if x.1.2 then t ||| ((1 : BitVec 256) <<< x.2) else t) =
      t ||| if x.1.2 then (1 : BitVec 256) <<< x.2 else 0 := by
    intro t x
    cases x.1.2
    · exact BitVec.or_zero.symm
    · rfl
  have hbit : ∀ (x : (Word × Bool) × Nat), (if x.1.2 then (1 : BitVec 256) <<< x.2 else 0).getLsbD c = true ↔
      x.1.2 = true ∧ x.2 = c := by
    intro x
    cases x.1.2
    · simp
    · simp only [if_true, BitVec.getLsbD_shiftLeft, BitVec.ofNat_eq_ofNat, BitVec.getLsbD_one, Bool.and_eq_true, decide_eq_true_eq,
        Bool.not_eq_true', decide_eq_false_iff_not, true_and]
      omega
  rw [Bool.eq_iff_iff, tagVector]
  simp only [hor]
  rw [getLsbD_foldl_or]
  simp only [hbit, List.mem_zipIdx_iff_getElem?]
  constructor
  · rintro (h0 | ⟨y, hy, ht, rfl⟩)
    · simp at h0
    · rw [Option.some.inj (hx.symm.trans hy)]
      exact ht
  · exact fun ht => .inr ⟨(x, c), hx, ht, rfl⟩

/-- A column's tag after the instruction. -/
theorem rowBank_tag (s : State) (o : AopOp) (f : VReg) (a0 a1 : Word) (j : Nat) {c : Nat} (hc : c < 256) :
    (s.rowBank o f a0 a1 j).2.1.getLsbD c = (s.columnAfter o f a0 a1 j c).2 := by
  rw [(rowBank_columns s o f a0 a1 j).2]
  exact getLsbD_tagVector (by rw [List.getElem?_map, List.getElem?_range hc]; rfl) hc

/-! ### The frame after a row instruction -/

theorem lane_withStatus_other (r : VReg) (lo n x : Nat) {l : Nat} (hl : l < 32) (h4 : l ≠ 4) :
    (r.withStatus lo n x).lane l = r.lane l := by
  rw [lane_withStatus _ _ _ _ hl, if_neg h4.symm]

theorem lane_withStatus_status (r : VReg) (lo n x : Nat) : (r.withStatus lo n x).lane 4 = statusWord (r.lane 4) lo n x := by
  rw [lane_withStatus _ _ _ _ (by decide), if_pos rfl]

theorem mem_banks (f : VReg) {j : Nat} (hj : j < 8) : j ∈ VReg.banks f ↔ (f.lane 5).getLsbD j = true := by
  simp [VReg.banks, hj]

/-- The result for an item of a list, found by the item. -/
theorem find?_map_pair {α : Type} (F : Nat → α) (xs : List Nat) (j : Nat) :
    (xs.map fun i => (i, F i)).find? (fun x => x.1 == j) = if j ∈ xs then some (j, F j) else none := by
  induction xs with
  | nil => rfl
  | cons x r ih =>
    rw [List.map_cons, List.find?_cons]
    by_cases hx : x = j
    · subst hx; simp
    · simp only [beq_eq_false_iff_ne.mpr hx, ih, List.mem_cons, Ne.symm hx, false_or]

/-- Only STATUS and the tags differ. -/
structure StatusAndTags (f r : VReg) (tags : List (BitVec 256)) : Prop where
  lanes : ∀ l, l < 32 → l ≠ 4 → r.lane l = f.lane l
  tags : r.tags = tags

theorem StatusAndTags.withStatus {f r : VReg} {tags : List (BitVec 256)} (h : StatusAndTags f r tags) (lo n x : Nat) :
    StatusAndTags f (r.withStatus lo n x) tags :=
  ⟨fun l hl h4 => (lane_withStatus_other r lo n x hl h4).trans (h.lanes l hl h4), h.tags⟩

/-- The tag vectors after a row instruction: those of the enabled banks are its own. -/
def State.tagsAfter (s : State) (o : AopOp) (f : VReg) (a0 a1 : Word) : List (BitVec 256) :=
  (List.range 8).map fun j => if j ∈ VReg.banks f then (s.rowBank o f a0 a1 j).2.1 else f.tag j

theorem rowEffect_frame (s : State) (vi : Nat) (o : AopOp) (f : VReg) (a0 a1 : Word) (waves : Nat) (stall : Bool) :
    ∃ f', (s.rowEffect vi o f a0 a1 waves stall).2 = (f'.withStatus 0 8 waves).withStatus 11 1 (bitNat stall 0) ∧
      StatusAndTags f f' (s.tagsAfter o f a0 a1) := by
  have htags : ((List.range 8).map fun j =>
      match ((VReg.banks f).map fun j => (j, s.rowBank o f a0 a1 j)).find? fun x => x.1 == j with
      | some x => x.2.2.1
      | none => f.tag j) = s.tagsAfter o f a0 a1 := by
    refine List.map_congr_left fun j _ => ?_
    rw [find?_map_pair]
    by_cases hj : j ∈ VReg.banks f
    · simp only [hj, if_true]
    · simp only [hj, if_false]
  have hstart : ∀ ts, ts = s.tagsAfter o f a0 a1 → StatusAndTags f { f with tags := ts } (s.tagsAfter o f a0 a1) :=
    fun ts hts => ⟨fun _ _ _ => rfl, hts⟩
  rcases hu : f.unit with ⟨st, pc⟩
  refine ⟨_, by simp only [State.rowEffect, hu]; rfl, ?_⟩
  split <;> split
  · exact ((hstart _ htags).withStatus ..).withStatus ..
  · exact (hstart _ htags).withStatus ..
  · exact (hstart _ htags).withStatus ..
  · exact hstart _ htags

/-- SUBW counts the sub-waves. -/
theorem rowEffect_subw (s : State) (vi : Nat) (o : AopOp) (f : VReg) (a0 a1 : Word) (waves : Nat) (stall : Bool) :
    ((s.rowEffect vi o f a0 a1 waves stall).2.lane 4).extractLsb' 0 8 = BitVec.ofNat 8 waves := by
  obtain ⟨f', hf, -⟩ := rowEffect_frame s vi o f a0 a1 waves stall
  rw [hf, lane_withStatus_status, statusWord_stall, lane_withStatus_status, statusWord_subw]

theorem rowEffect_lane (s : State) (vi : Nat) (o : AopOp) (f : VReg) (a0 a1 : Word) (waves : Nat) (stall : Bool) {l : Nat}
    (hl : l < 32) (h4 : l ≠ 4) : (s.rowEffect vi o f a0 a1 waves stall).2.lane l = f.lane l := by
  obtain ⟨f', hf, hframe⟩ := rowEffect_frame s vi o f a0 a1 waves stall
  rw [hf]
  exact ((hframe.withStatus ..).withStatus ..).lanes l hl h4

theorem rowEffect_tags (s : State) (vi : Nat) (o : AopOp) (f : VReg) (a0 a1 : Word) (waves : Nat) (stall : Bool) :
    (s.rowEffect vi o f a0 a1 waves stall).2.tags = s.tagsAfter o f a0 a1 := by
  obtain ⟨f', hf, hframe⟩ := rowEffect_frame s vi o f a0 a1 waves stall
  rw [hf]
  exact ((hframe.withStatus ..).withStatus ..).tags

theorem tagsAfter_getLsbD (s : State) (o : AopOp) (f : VReg) (a0 a1 : Word) {j c : Nat} (hj : j < 8) (hc : c < 256) :
    ((s.tagsAfter o f a0 a1).getD j 0).getLsbD c =
      if (f.lane 5).getLsbD j = true then (s.columnAfter o f a0 a1 j c).2 else (f.tags.getD j 0).getLsbD c := by
  have hget : (s.tagsAfter o f a0 a1).getD j 0 = if j ∈ VReg.banks f then (s.rowBank o f a0 a1 j).2.1 else f.tag j := by
    rw [List.getD_eq_getElem?_getD, State.tagsAfter, List.getElem?_map, List.getElem?_range hj]; rfl
  simp only [hget, mem_banks f hj]
  split
  · exact rowBank_tag s o f a0 a1 j hc
  · rfl

/-! ### Memory after a row instruction -/

theorem badColumn_iff (s : State) (f : VReg) (j c : Nat) :
    s.badColumn f j c = true ↔ ∃ x ∈ s.ue, f.column j c ≤ x ∧ x < f.column j c + 4 := by
  simp only [State.badColumn, List.any_eq_true, Bool.and_eq_true, decide_eq_true_eq]

theorem columnAfter_word (s : State) (o : AopOp) (f : VReg) (a0 a1 : Word) (j c : Nat) :
    (s.columnAfter o f a0 a1 j c).1 = if ¬ s.badColumn f j c = true
      then (rowColumn o f a0 a1 (memWord s (f.column j c)) ((f.tags.getD j 0).getLsbD c)).1 else memWord s (f.column j c) := by
  unfold State.columnAfter
  rw [ite_not]
  split <;> rfl

theorem columnAfter_tag (s : State) (o : AopOp) (f : VReg) (a0 a1 : Word) (j c : Nat) :
    (s.columnAfter o f a0 a1 j c).2 = true ↔
      ¬ s.badColumn f j c = true ∧ (rowColumn o f a0 a1 (memWord s (f.column j c)) ((f.tags.getD j 0).getLsbD c)).2 = true := by
  unfold State.columnAfter
  split
  next hb => exact ⟨fun h => absurd h Bool.false_ne_true, fun h => absurd hb h.1⟩
  next hb => exact ⟨fun h => ⟨hb, h⟩, fun h => h.2⟩

theorem length_rowBank (s : State) (o : AopOp) (f : VReg) (a0 a1 : Word) (j : Nat) :
    ((s.rowBank o f a0 a1 j).1.flatMap fun w => bytesOfNat 4 w.toNat).length = 1024 := by
  rw [length_wordBytes, (rowBank_columns s o f a0 a1 j).1, List.length_map, List.length_range]

theorem column_apart (f : VReg) {i j : Nat} (h : i < j) :
    f.column i 0 + 1024 ≤ f.column j 0 := by
  simp only [VReg.column, dramCell]; omega

theorem pairwise_banks (f : VReg) : (VReg.banks f).Pairwise (· < ·) := List.pairwise_lt_range.filter _

theorem rowsWritten_apart (s : State) (o : AopOp) (f : VReg) (a0 a1 : Word) :
    (s.rowsWritten o f a0 a1).Pairwise Apart := by
  refine List.pairwise_map.mpr ((pairwise_banks f).imp fun h => .inl ?_)
  rw [length_rowBank]
  exact column_apart f h

theorem mem_rowsWritten {s : State} {o : AopOp} {f : VReg} {a0 a1 : Word} {w : Nat × List Byte}
    (h : w ∈ s.rowsWritten o f a0 a1) : ∃ j, j < 8 ∧ (f.lane 5).getLsbD j = true ∧ w.1 = f.column j 0 ∧ w.2.length = 1024 := by
  obtain ⟨j, hj, rfl⟩ := List.mem_map.mp h
  have hj8 : j < 8 := List.mem_range.mp (List.mem_filter.mp hj).1
  exact ⟨j, hj8, (mem_banks f hj8).mp hj, rfl, length_rowBank s o f a0 a1 j⟩

/-- Bytes outside the rows of the enabled banks stay. -/
theorem byte_rows_other {s : State} {m : List Host.Cell} {o : AopOp} {f : VReg} {a0 a1 : Word} {a : Nat}
    (h : ∀ j, j < 8 → (f.lane 5).getLsbD j = true → a < f.column j 0 ∨ f.column j 0 + 1024 ≤ a) :
    Memory.byte (setAll m (s.rowsWritten o f a0 a1)) a = Memory.byte m a := by
  refine setAll_other fun w hw => ?_
  obtain ⟨j, hj, hen, hstart, hlen⟩ := mem_rowsWritten hw
  rw [hstart, hlen]
  exact h j hj hen

/-- A byte of a column of an enabled bank. -/
theorem byte_rows_same {s : State} {m : List Host.Cell} (hm : Memory.wf m = true) {o : AopOp} {f : VReg} {a0 a1 : Word}
    {j c k : Nat} (hj : j < 8) (hen : (f.lane 5).getLsbD j = true) (hc : c < 256) (hk : k < 4) :
    Memory.byte (setAll m (s.rowsWritten o f a0 a1)) (f.column j c + k) =
      BitVec.ofNat 8 ((s.columnAfter o f a0 a1 j c).1.toNat / 256 ^ k) := by
  have hmem : (f.column j 0, (s.rowBank o f a0 a1 j).1.flatMap fun w => bytesOfNat 4 w.toNat) ∈ s.rowsWritten o f a0 a1 :=
    List.mem_map.mpr ⟨j, (mem_banks f hj).mpr hen, rfl⟩
  have hi : 4 * c + k < ((s.rowBank o f a0 a1 j).1.flatMap fun w => bytesOfNat 4 w.toNat).length := by
    rw [length_rowBank]; omega
  rw [column_eq, Nat.add_assoc, setAll_same hm (rowsWritten_apart s o f a0 a1) hmem hi, ← Option.some_inj,
    ← List.getElem?_eq_getElem, getElem?_wordBytes _ hk, (rowBank_columns s o f a0 a1 j).1, List.getElem?_map,
    List.getElem?_range hc]
  rfl

/-- The memory after a row instruction, column by column. -/
theorem memWord_rows {s v : State} {o : AopOp} {f : VReg} {a0 a1 : Word} (hm : Memory.wf s.mem = true)
    (hv : v.mem = if AopOp.late o = true then setAll s.mem (s.rowsWritten o f a0 a1) else s.mem) {j c : Nat} (hj : j < 8)
    (hc : c < 256) :
    memWord v (f.column j c) = if AopOp.late o = true ∧ (f.lane 5).getLsbD j = true then (s.columnAfter o f a0 a1 j c).1
      else memWord s (f.column j c) := by
  by_cases hlate : AopOp.late o = true
  · rw [if_pos hlate] at hv
    by_cases hen : (f.lane 5).getLsbD j = true
    · rw [if_pos ⟨hlate, hen⟩]
      exact memWord_of_bytes fun k hk => by rw [hv]; exact byte_rows_same hm hj hen hc hk
    · rw [if_neg fun h => hen h.2]
      refine memWord_congr fun k hk => ?_
      rw [hv]
      refine byte_rows_other fun i hi hi' => ?_
      have hne : i ≠ j := fun h => hen (h ▸ hi')
      rw [column_eq f j c]
      rcases Nat.lt_or_gt_of_ne hne with h | h
      · have := column_apart f h; omega
      · have := column_apart f h; omega
  · rw [if_neg hlate] at hv
    rw [if_neg fun h => hlate h.1]
    exact memWord_congr fun k _ => by rw [hv]

theorem late_iff (o : AopOp) : AopOp.late o = true ↔ o = .awrt ∨ o = .apass := by cases o <;> simp [AopOp.late]

/-- A row instruction other than AACT has the effect of R106, on any machine with the memory and the errors of s. -/
theorem rowDone {s t v : State} (hmem : t.mem = s.mem) (hue : t.ue = s.ue) (vi : Nat) (o : AopOp) (f : VReg) (a0 a1 : Word)
    (waves : Nat) (stall : Bool) (hm : Memory.wf s.mem = true)
    (hv : v.mem = (t.rowEffect vi o f a0 a1 waves stall).1.mem) {r : VReg}
    (hlanes : ∀ l, l < 32 → r.lane l = (t.rowEffect vi o f a0 a1 waves stall).2.lane l)
    (htags : r.tags = (t.rowEffect vi o f a0 a1 waves stall).2.tags) : RowDone o f a0 a1 waves s v r := by
  have hword : ∀ a, memWord t a = memWord s a := fun a => memWord_congr fun k _ => by rw [hmem]
  have hbad : ∀ j c, t.badColumn f j c = true ↔ ∃ x ∈ s.ue, f.column j c ≤ x ∧ x < f.column j c + 4 := by
    intro j c; rw [badColumn_iff, hue]
  have hv' := hv.trans (rowEffect_state t vi o f a0 a1 waves stall).2
  constructor
  case words =>
    intro j c hj hc
    have h := memWord_rows (hmem ▸ hm) hv' hj hc
    rw [hword, columnAfter_word, hword] at h
    refine h.trans ?_
    simp only [late_iff, hbad, ite_and]
    rfl
  case rest =>
    intro a ha
    rw [hv', hmem]
    split
    · refine byte_rows_other fun j hj hen => (ha j hj hen).imp_right fun h => ?_
      simp only [VReg.column, dramCell] at h ⊢
      omega
    · rfl
  case tags =>
    intro j c hj hc
    rw [htags, rowEffect_tags, tagsAfter_getLsbD _ _ _ _ _ hj hc]
    split
    · rw [columnAfter_tag, hbad, hword]; rfl
    · rfl
  case lanes =>
    exact fun l hl h4 => (hlanes l hl).trans (rowEffect_lane t vi o f a0 a1 waves stall hl h4)
  case subw =>
    rw [hlanes 4 (by decide), rowEffect_subw]

end Sys2Proof.Machine
end

section
/-!
AOPs act once on their frames; row instructions run on the unit (O45).
-/
namespace Sys2Proof.Machine

open Sys2Proof.Safety

/-! ### A sub-wave boundary -/

section boundary
variable {s : State} {stack pch : Nat} {j : RowJob} {g : Group} {e : Entry} {o : AopOp} {hs : List Half} {b : Nat} {h : Half}
  (hj : (s.munit stack pch).job = some j) (hg : s.group j.core j.grp = some g) (he : g.entry j.pos .m = some e)
  (hop : e.op = .aop o hs b) (hh : hs.find? (fun k => k.d == j.reg) = some h)
include hj hg he hop hh

theorem exec_subWave_under_way (hnow : j.now ≠ []) (hend : s.ns < (s.munit stack pch).ends) : exec (.subWave stack pch) s = .next s := by
  rw [subWave_cases hj hg he hop hh, if_pos ⟨hnow, hend⟩]

theorem exec_subWave_starts (ended : j.now = [] ∨ (s.munit stack pch).ends ≤ s.ns) (left : j.todo ≠ [])
    (begun : (s.munit stack pch).ends ≠ 0)
    (due : max (max (s.munit stack pch).ends j.since) ((s.munit stack pch).start + s.mfaw stack) ≤ s.ns)
    (refreshed : (s.munit stack pch).refresh ≤ s.ns) :
    ∃ u' j', exec (.subWave stack pch) s = .next (s.setMunit stack pch u') ∧ u'.start = s.ns ∧ u'.job = some j' ∧
      j'.now = j.todo.take (s.actMax stack) ∧ j'.todo = j.todo.drop (s.actMax stack) ∧ j'.waves = j.waves + 1 ∧
      u'.wait = (s.munit stack pch).wait := by
  have hgo : ({ s.munit stack pch with job := some { j with now := [] } } : MUnit).MayStart s stack { j with now := [] } := by
    refine ⟨rfl, left, ?_, refreshed⟩
    simp only [MUnit.due, beq_iff_eq, if_neg begun]
    exact due
  obtain ⟨rows, fin, hstart⟩ := startWave_starts (u := { s.munit stack pch with job := some { j with now := [] } }) rfl hgo o
    (e.rowOf o h).1 (e.rowOf o h).2.length
  have hrun := subWave_cases hj hg he hop hh
  rw [if_neg fun hc => ended.elim hc.1 (Nat.not_le.mpr hc.2), if_neg left, hstart] at hrun
  exact ⟨_, _, hrun, rfl, rfl, rfl, rfl, rfl, rfl⟩

/-- What the end of an instruction at a unit does, with j the job that ends and h its half. -/
theorem exec_subWave_ends (ended : j.now = [] ∨ (s.munit stack pch).ends ≤ s.ns) (last : j.todo = []) :
    ∃ v g', (exec (.subWave stack pch) s = .next v ∨ exec (.subWave stack pch) s = .next (v.advance j.core j.grp)) ∧
      v.group j.core j.grp = some g' ∧ v.mem = ((s.nextJob stack pch).rowWrites g.vi o e h j).1.mem ∧
      v.units = (s.nextJob stack pch).units ∧
      g'.arch = g.arch.supplyFrame h.d j.pos ((s.nextJob stack pch).rowWrites g.vi o e h j).2 := by
  have hd : h.d = j.reg := by simpa using List.find?_some hh
  obtain ⟨v, g', hend, hv⟩ := endRow_spec (stack := stack) (pch := pch) (j := { j with now := [] }) hg he hop hh
  have hrun : exec (.subWave stack pch) s = .next (s.endRow stack pch { j with now := [] }) := by
    rw [subWave_cases hj hg he hop hh, if_neg, if_pos last]
    exact fun hc => ended.elim hc.1 (Nat.not_le.mpr hc.2)
  refine ⟨v, g', hend.imp (fun h => hrun.trans (congrArg Host.Outcome.next h)) (fun h => hrun.trans (congrArg Host.Outcome.next h)), ?_⟩
  rw [hd]
  exact hv
end boundary

/-! ### The end of an instruction at a unit -/

/-- AACT leaves the words of R106. -/
theorem chosen_lane (f : VReg) (a : Nat → Word) (b : Nat) {l : Nat} (hl : l < 32) :
    (f.chosen (a 0) (a 1)).lane l = aopLane .aact f a b l := by
  have hwords : ∀ i, i < 32 → (f.withWords [(3, a 0), (5, (aactChoice (a 0) (a 1)).2)]).lane i =
      if 5 = i then (aactChoice (a 0) (a 1)).2 else if 3 = i then a 0 else f.lane i := fun i hi => by
    rw [← lane_withWords_one f 3 (a 0) hi]
    exact lane_withWords_snoc f [(3, a 0)] 5 _ hi
  have hbanks : (aactChoice (a 0) (a 1)).2 =
      if (a 1).extractLsb' 0 8 = 0 then 0xFF else ((a 1).extractLsb' 0 8).setWidth 32 := by
    have hlow : ((a 1).extractLsb' 0 8).toNat = (a 1).toNat % 256 := by rw [BitVec.extractLsb'_toNat]; rfl
    have hzero : (a 1).extractLsb' 0 8 = 0 ↔ (a 1).toNat % 256 = 0 := by rw [← hlow, ← BitVec.toNat_inj]; rfl
    simp only [aactChoice, beq_iff_eq, hzero]
    split
    · rfl
    · rw [← hlow, BitVec.ofNat_toNat]
  refine (lane_withStatus _ 8 3 0 hl).trans ?_
  rw [hwords 4 (by decide), hwords l hl, statusWord_cleared, hbanks]
  simp only [aopLane, eq_comm (b := l)]
  by_cases h3 : l = 3
  · subst h3; rfl
  · by_cases h4 : l = 4
    · subst h4; rfl
    · rw [if_neg h4, if_neg h3, if_neg h3, if_neg h4]

theorem nextJob_mem (s : State) (stack pch : Nat) : (s.nextJob stack pch).mem = s.mem := by rw [nextJob_only]

theorem nextJob_ue (s : State) (stack pch : Nat) : (s.nextJob stack pch).ue = s.ue := by rw [nextJob_only]

section finish
variable {s v : State} {stack pch : Nat} {j : RowJob} {g g' : Group} {e : Entry} {o : AopOp} {h : Half}
  (hmem : v.mem = ((s.nextJob stack pch).rowWrites g.vi o e h j).1.mem)
  (harch : g'.arch = g.arch.supplyFrame h.d j.pos ((s.nextJob stack pch).rowWrites g.vi o e h j).2)
  (howed : (g.arch.vreg h.d).owed j.pos = 0xFFFFFFFF) (hplace : (g.arch.vreg h.d).place = .m)

include harch howed in
theorem finish_lane {l : Nat} (hl : l < 32) :
    (g'.arch.vreg h.d).lane l = ((s.nextJob stack pch).rowWrites g.vi o e h j).2.lane l := by
  rw [harch]
  refine supplyFrame_lane _ _ hl ?_
  rw [howed]
  exact (BitVec.getLsbD_allOnes (v := 32)).trans (decide_eq_true hl)

include harch howed hplace in
theorem finish_tags : (g'.arch.vreg h.d).tags = ((s.nextJob stack pch).rowWrites g.vi o e h j).2.tags := by
  rw [harch]
  have hbit : ((g.arch.vreg h.d).owed j.pos).getLsbD 0 = true := by rw [howed]; rfl
  exact supplyFrame_tags _ _ _ (lt_of_owed hbit) hplace

include hmem harch howed hplace in
/-- The end of a row instruction. -/
theorem finish_row (ho : o ≠ .aact) (hm : Memory.wf s.mem = true) :
    RowDone o (e.frame h) (e.control h 0) (e.control h 1) j.waves s v (g'.arch.vreg h.d) := by
  have hrow : (s.nextJob stack pch).rowWrites g.vi o e h j =
      (s.nextJob stack pch).rowEffect g.vi o (e.frame h) (e.control h 0) (e.control h 1) j.waves j.stall :=
    if_neg (by simpa using ho)
  have hlanes := fun l (hl : l < 32) => finish_lane harch howed hl
  have htags := finish_tags harch howed hplace
  rw [hrow] at hmem hlanes htags
  exact rowDone (nextJob_mem s stack pch) (nextJob_ue s stack pch) g.vi o _ _ _ _ _ hm hmem hlanes htags

include hmem harch howed hplace in
/-- The end of an AACT. -/
theorem finish_aact (ho : o = .aact) (b : Nat) : v.mem = s.mem ∧ (g'.arch.vreg h.d).tags = List.replicate 8 0 ∧
    ∀ l, l < 32 → (g'.arch.vreg h.d).lane l = aopLane o (e.frame h) (e.control h) b l := by
  subst ho
  have hlanes := fun l (hl : l < 32) => finish_lane harch howed hl
  have htags := finish_tags harch howed hplace
  refine ⟨hmem.trans (nextJob_mem s stack pch), htags, fun l hl => ?_⟩
  exact (hlanes l hl).trans (chosen_lane (e.frame h) (e.control h) b hl)
end finish

/-! ### Accesses that waited (R103) -/

theorem exec_windowAccess_waited {s : State} {k : Nat} {m : Msg} {rest : List Msg} (free : (s.units.get k MUnit.zero).job = none)
    (hw : (s.units.get k MUnit.zero).wait = m :: rest) : exec (.computeWindowAccess k) s =
      .next (deliver { s with units := s.units.put k { s.units.get k MUnit.zero with wait := rest } } m) := by
  show execComputeWindowAccess k s = _
  simp only [execComputeWindowAccess, free, hw]

theorem exec_windowAccess_direct {s : State} {k core grp pos : Nat} {rest : List (Nat × Nat × Nat)} {g : Group} {e : Entry}
    (free : (s.units.get k MUnit.zero).job = none) (hw : (s.units.get k MUnit.zero).wait = [])
    (hd : (s.units.get k MUnit.zero).direct = (core, grp, pos) :: rest) (hg : s.group core grp = some g)
    (he : g.entry pos .m = some e) : exec (.computeWindowAccess k) s =
      .next (({ s with units := s.units.put k { s.units.get k MUnit.zero with direct := rest } }).startReqs core grp pos .m
        e.reqs.length) := by
  have hentry : (State.group { s with units := s.units.put k { s.units.get k MUnit.zero with direct := rest } } core grp).bind
      (fun g => g.entry pos .m) = some e := by
    show (s.group core grp).bind _ = _
    rw [hg]
    exact he
  show execComputeWindowAccess k s = _
  unfold execComputeWindowAccess
  dsimp only
  split
  next hw' => rw [hw] at hw'; cases hw'
  next hd' =>
    rw [hd] at hd'
    cases hd'
    rw [hentry]
  next hno => exact absurd hd (hno core grp pos rest free hw)

/-! ### O45 -/

theorem aop_dispatches {i : Instr} {f : AopForm} {s : State} {c : Ctx} (hf : aopForm i = some f) (hi : Issues s c)
    (ha : c.active f.q ≠ 0) (ready : AopReady f c s) :
    ∃ a e, Ends i s c a [e] ∧ e.op = .aop f.o (f.halves c) f.b.toNat ∧ e.place = .m ∧ e.pos = c.g.seq ∧
      e.stage = .posted ∧ (∀ h ∈ f.halves c, (a.vreg h.d).owed c.pos = 0xFFFFFFFF) ∧
      (∀ n, (∀ h ∈ f.halves c, h.d ≠ n) → a.vreg n = c.g.arch.vreg n) ∧
      (∀ n, a.vreg n = { c.g.arch.vreg n with prods := (a.vreg n).prods }) ∧
      a = { c.g.arch with v := a.v, dirty := a.dirty } := by
  have hnames : ∀ h ∈ f.halves c, h.d < 64 := fun h hh => check_none_named (ready.checks h hh) _ (aopNeed_named f c h)
  refine ⟨_, _, exec_aop_dispatch hf hi ha ready, rfl, rfl, rfl, rfl, ?_, ?_, ?_, ?_⟩
  · exact fun h hh => oweFrames_owed _ hnames (.inr ⟨h, hh, rfl⟩)
  · exact fun n hn => oweFrames_other _ hn
  · exact fun n => oweFrames_prods _ _ _ n
  · exact oweFrames_rest ..

/-- Settles O45, by what dispatch, the turn of a post at its unit, a sub-wave boundary, a refresh and an access that waited do. -/
theorem aopsAct : Obligations.AopsAct := by
  unfold Obligations.AopsAct
  intro s
  refine ⟨?dispatch, ?turn, ?boundary, ?refresh, ?wait, ?direct⟩
  case dispatch =>
    exact fun c i f hi hf => ⟨exec_aop_inactive hf hi, aop_dispatches hf hi⟩
  case turn =>
    intro core grp pos g e o h b hg _ _ honly hpos hplace hstage hop hfault hnext hready hidle hfree hfirst hopen hpage hchecks
    have H : AopTurn s core grp pos g e o h b :=
      ⟨hg, honly, hpos, hplace, hstage, hop, hfault, hnext, hready, hidle, hfree, hfirst, hopen, hpage, hchecks⟩
    refine ⟨fun ho => ?_, H.begins, H.sets_noRow, fun ho => ?_⟩
    · obtain ⟨v, g', hrun, hg', hmem, hrest⟩ := H.simple ho
      exact ⟨v, g', hrun, hg', fun a => by rw [hmem], hrest⟩
    · exact H.runs.trans (congrArg Host.Outcome.next (H.reports ((late_iff o).mpr ho)))
  case boundary =>
    intro stack pch j g e o hs b h _ _ hj hg he hop hh
    refine ⟨exec_subWave_under_way hj hg he hop hh, exec_subWave_starts hj hg he hop hh, ?_⟩
    intro ended last _ _ hm howed hplace
    obtain ⟨v, g', hrun, hg', hmem, hunits, harch⟩ := exec_subWave_ends hj hg he hop hh ended last
    have hunit : v.munit stack pch = (s.nextJob stack pch).munit stack pch := by simp only [State.munit, hunits]
    refine ⟨v, g', hrun, hg', fun hmore => ?_, fun i r hmore => ?_, fun ho => finish_row hmem harch howed hplace ho hm,
      fun ho => finish_aact hmem harch howed hplace ho b, fun n hn => ?_⟩
    · rw [hunit]
      exact nextJob_last hmore
    · rw [hunit]
      obtain ⟨hmore', k, hk, hsame⟩ := nextJob_more hmore
      exact ⟨hmore', k, hk, hsame.core, hsame.grp, hsame.pos, hsame.reg, hsame.since⟩
    · rw [harch]
      exact supplyFrame_other _ _ _ hn
  case refresh =>
    intro stack pch bank
    exact ⟨fun ⟨lo, hi, split, ended, first⟩ => exec_refresh lo hi split ended first,
      fun ⟨_, hj, hf⟩ => exec_refresh_again bank hj hf⟩
  case wait =>
    exact fun k m rest hw => ⟨fun free => exec_windowAccess_waited free hw, exec_windowAccess_busy⟩
  case direct =>
    exact fun k core grp pos rest hw hd =>
      ⟨exec_windowAccess_busy, fun g e free hg he => exec_windowAccess_direct free hw hd hg he⟩

end Sys2Proof.Machine
end

section
/-!
The management forms PTLOAD, BIAS, CTXSV and CTXRS (05 R127, R129; 17 R427; 15 R393 to R396): the outcomes that all four share,
and what each does once it runs.
-/
namespace Sys2Proof.Machine

open Sys2Proof.Safety

/-! ### Privileged forms -/

theorem allowed_priv {s : State} {c : Ctx} (h : isRanene c.iss.core = true) : Allowed s c none true :=
  ⟨fun _ hb => (nomatch hb), fun _ => h⟩

/-- A privileged form outside privileged mode traps with its word (03 R76). -/
theorem runWith_denied {s : State} {c : Ctx} {body : Ctx → State → Except Stop State} (hi : Issues s c)
    (hp : isRanene c.iss.core = false) : runWith none true s body =
      .next (c.trapPath s (FaultInfo.withOperand causePrivilege (c.iss.word.setWidth 64))) := by
  have htrap : decodeTrap s c.iss c.g none true =
      some (FaultInfo.withOperand causePrivilege (c.iss.word.setWidth 64)) := by simp [decodeTrap, hp]
  have hc : s.issueCtx = some c := hi
  simp only [runWith, hc, htrap]

/-- With no lane active a form that acts once only moves on. -/
theorem once_inactive {q : Quals} {c : Ctx} (h : c.active q = 0) (s : State) (body : Ctx → State → Except Stop State) :
    once q body c s = .ok s := if_pos (by simpa using h)

theorem once_active {q : Quals} {c : Ctx} (h : c.active q ≠ 0) (s : State) (body : Ctx → State → Except Stop State) :
    once q body c s = body c s := if_neg (by simpa using h)

theorem needIdle_ok {c : Ctx} (h : c.g.rob = []) : c.needIdle = .ok () := by simp [Ctx.needIdle, Group.idle, h]

theorem needIdle_wait {c : Ctx} (h : c.g.rob ≠ []) : c.needIdle = .error (.wait .drained) := by
  simp [Ctx.needIdle, Group.idle, h]

/-- The end of an instruction that wrote a scalar register, from whatever machine u its other effects left. -/
theorem finish_writeS (u : State) (c : Ctx) (d : BitVec 6) (x : DWord) :
    ∃ r, WritesS c.g.arch r d x ∧ c.finish (c.writeS u d x) = c.finish (c.putArch u r) ∧
      GroupOnly c u (c.finish (c.writeS u d x)) (groupAfter c r []) :=
  ⟨_, writesS_setS _ d x, rfl, finish_putArch _⟩

/-- An instruction that answers in a register of the machine u completes there. -/
theorem endsIn_writeS {i : Instr} {s u : State} {c : Ctx} {d : BitVec 6} {x : DWord}
    (h : exec i s = .next (c.finish (c.writeS u d x))) : ∃ r, WritesS c.g.arch r d x ∧ EndsIn i s u c r [] := by
  obtain ⟨r, hr, -, hg⟩ := finish_writeS u c d x
  exact ⟨r, hr, _, h, hg⟩

theorem setsS_of_writeS {i : Instr} {s : State} {c : Ctx} {d : BitVec 6} {x : DWord}
    (h : exec i s = .next (c.finish (c.writeS s d x))) : SetsS i s c d x := endsIn_writeS h

/-! ### PTLOAD -/

section forms
variable {s : State} {c : Ctx} {q : Quals} {d a b : BitVec 6} {x y : DWord}

/-- What the four forms do before they act. -/
structure PrivRuns (s : State) (c : Ctx) (q : Quals) : Prop where
  issues : Issues s c
  priv : isRanene c.iss.core = true
  active : c.active q ≠ 0
  idle : c.g.rob = []

theorem exec_ptload (H : PrivRuns s c q) (hx : ReadsS c a x) : exec (.ptload q d a b) s =
    .next (c.finish (c.writeS (s.loadImage (b.toNat % 8) (s.imageAt x)).1 d
      (BitVec.ofNat 64 (s.loadImage (b.toNat % 8) (s.imageAt x)).2))) := by
  refine runPriv_ok H.issues H.priv ?_
  rw [once_active H.active, readsS_ok hx, needIdle_ok H.idle]
  rfl

theorem loadImage_unreadable (s : State) (n : Nat) : s.loadImage n none = (s, 12) := rfl

theorem loadImage_refused {n : Nat} {bs : List Byte} (h : s.checkImage n bs ≠ 0) :
    s.loadImage n (some bs) = (s, s.checkImage n bs) := by simp [State.loadImage, h]

theorem loadImage_installs {n : Nat} {bs : List Byte} (h : s.checkImage n bs = 0) :
    ∃ u, s.loadImage n (some bs) = (u, 0) ∧ u.images = s.images.set n (some (Image.ofBytes bs)) ∧ u.groups = s.groups ∧
      u.mem = s.mem := by
  by_cases h6 : 6 ≤ n <;> simp [State.loadImage, h, h6, State.measure, State.installImage]

/-! ### BIAS -/

theorem bitsOf_high_zero (x : DWord) : bitsOf x 63 41 = 0 ↔ x.toNat < 2 ^ 41 := by
  have := x.isLt
  simp only [bitsOf]
  omega

/-- The page that BIAS names, and the wait of the stream for the flip it started. -/
def biasPage (x : DWord) : Nat := x.toNat / 2 ^ 12 % 2 ^ 29

def Ctx.flipping (c : Ctx) (s : State) (x : DWord) : Bool :=
  (c.g.arch.path c.iss.ent).wait == some (.flip (s.partOfCore c.iss.core) (biasPage x) true)

/-- BIAS once it runs. -/
def biasBody (c : Ctx) (d : BitVec 6) (x : DWord) (s : State) : Except Stop State :=
  let part := s.partOfCore c.iss.core
  let page := biasPage x
  let result := fun (n : Nat) => (Except.ok (c.finish (c.writeS s d (BitVec.ofNat 64 n))) : Except Stop State)
  if bitsOf x 63 41 != 0 || (s.windowOf part page).isNone then result 1
  else if !s.lineHcoh (page * 4096) then result 2
  else if (s.flipOf part page).isSome then .error (.wait (.flip part page (c.flipping s x)))
  else if c.flipping s x then result 0
  else if 2 ≤ s.bias part page then .ok (c.block (s.startFlip part page (s.bias part page == 2)) (.flip part page false))
  else if s.bias part page == bitNat (x.getLsbD 1) 0 then result 0
  else .ok (c.block (s.startFlip part page (x.getLsbD 1)) (.flip part page true))

theorem exec_bias_body (H : PrivRuns s c q) (hx : ReadsS c a x) {t : State} (h : biasBody c d x s = .ok t) :
    exec (.bias q d a) s = .next t := by
  show execBias q d a s = _
  refine runWith_ok H.issues (allowed_priv H.priv) ?_
  rw [if_neg (by simpa using H.active), readsS_ok hx, needIdle_ok H.idle]
  exact h

theorem exec_bias_waits (H : PrivRuns s c q) (hx : ReadsS c a x) {w : Wait} (h : biasBody c d x s = .error (.wait w)) :
    exec (.bias q d a) s = .next (c.block s w) := by
  show execBias q d a s = _
  refine runWith_wait H.issues (allowed_priv H.priv) ?_
  rw [if_neg (by simpa using H.active), readsS_ok hx, needIdle_ok H.idle]
  exact h

/-! ### CTXSV -/

/-- The team of the selected group, with its key. -/
def State.selectedTeam (s : State) (c : Ctx) : Option (Nat × Team) :=
  (s.selected c.iss.core c.g).bind fun x => x.2.2.team.bind fun k => (s.teams.find k).map fun t => (k, t)

/-- The caller without its own hold (15 R393). -/
def Ctx.letGo (c : Ctx) : Ctx := { c with g := c.g.dropHold true }

/-- What a CTXSV waits for whose caller has let go, the machine being v. -/
def gatherWait (v : State) (c : Ctx) (k : Nat) (t : Team) : Wait :=
  if v.heldByOthers t (groupKey c.iss.core c.iss.grp) || v.gathering k then .unheld k else .gathered k

/-- CTXSV that has begun no gather. -/
def saveAsks (c : Ctx) (d : BitVec 6) (x : DWord) (s : State) : State :=
  match s.selectedTeam c with
  | none => c.finish (c.writeS s d (gatherFail 1))
  | some (k, t) =>
    if s.teamStopped t then c.finish (c.writeS s d (gatherFail 2))
    else if x.toNat % 128 != 0 || (mgmtOff x 1).isNone then c.finish (c.writeS s d (gatherFail 3))
    else c.letGo.block (c.letGo.put s c.letGo.g) (gatherWait (c.letGo.put s c.letGo.g) c k t)

/-- CTXSV that has begun the gather of team k. -/
def saveGathers (c : Ctx) (d : BitVec 6) (x y : DWord) (k : Nat) (s : State) : State :=
  match s.teams.find k with
  | none => c.finish (c.writeS s d (gatherFail 1))
  | some t =>
    match ((s.abortStopped t).ctx t.vi).launch t.launch with
    | none => c.finish (c.writeS (s.abortStopped t) d (gatherFail 1))
    | some l =>
      if !(s.abortStopped t).teamSettled t then c.block (s.abortStopped t) (.gathered k)
      else c.finish (c.writeS ((s.abortStopped t).saveTeam k t l.hdr x y).1 d ((s.abortStopped t).saveTeam k t l.hdr x y).2)

theorem exec_ctxsv_asks (H : PrivRuns s c q) (hx : ReadsS c a x) (hy : ReadsS c b y)
    (hw : ∀ k, (c.g.arch.path c.iss.ent).wait ≠ some (.gathered k)) : exec (.ctxsv q d a b) s = .next (saveAsks c d x s) := by
  show execCtxsv q d a b s = _
  refine runWith_ok H.issues (allowed_priv H.priv) ?_
  rw [if_neg (by simpa using H.active), readsS_ok hx, readsS_ok hy, needIdle_ok H.idle, saveAsks]
  cases hs : s.selectedTeam c with
  | none =>
    rw [State.selectedTeam] at hs
    simp only [bind, Except.bind, hs]
  | some kt =>
    obtain ⟨k, t⟩ := kt
    rw [State.selectedTeam] at hs
    simp only [bind, Except.bind, hs]
    by_cases hstop : s.teamStopped t = true
    · simp only [hstop, if_true]
    · by_cases hplace : (x.toNat % 128 != 0 || (mgmtOff x 1).isNone) = true
      · simp only [hstop, hplace, if_true]; rfl
      · simp only [hstop, hplace]; rfl

theorem exec_ctxsv_gathers (H : PrivRuns s c q) (hx : ReadsS c a x) (hy : ReadsS c b y) {k : Nat}
    (hw : (c.g.arch.path c.iss.ent).wait = some (.gathered k)) :
    exec (.ctxsv q d a b) s = .next (saveGathers c d x y k s) := by
  show execCtxsv q d a b s = _
  refine runWith_ok H.issues (allowed_priv H.priv) ?_
  rw [if_neg (by simpa using H.active), readsS_ok hx, readsS_ok hy, needIdle_ok H.idle, saveGathers]
  simp only [bind, Except.bind, hw]
  cases s.teams.find k with
  | none => rfl
  | some t =>
    dsimp only
    cases ((s.abortStopped t).ctx t.vi).launch t.launch with
    | none => rfl
    | some l => dsimp only; split <;> rfl

/-! ### CTXRS -/

/-- The banks of a choice. -/
def banksOf (o : Option (List Nat × List Nat × List Nat)) : List Nat :=
  match o with
  | some b => b.1 ++ b.2.1 ++ b.2.2
  | none => []

/-- CTXRS with a sound image, once its banks have been asked for: one of them is waited for, or all are empty. -/
def restoresInto (c : Ctx) (d : BitVec 6) (core : Nat) (h : ImageHead) (l : Launch) (bs : List Byte) : State × Option Nat → State
  | (u, some b) => c.block u (.bank (clusterOfCore core) b)
  | (u, none) =>
    match u.restore core h l bs with
    | .error e => c.finish (c.writeS u d (gatherFail e))
    | .ok w => c.finish (c.writeS w d 0)

/-- CTXRS once it runs. -/
def restores (c : Ctx) (d : BitVec 6) (x : DWord) (s : State) : State :=
  let core := bitsOf c.g.wsel 15 8
  match s.readImage x with
  | .error e => c.finish (c.writeS s d (gatherFail e))
  | .ok (h, l, bs) =>
    if !s.hasRoom core h l bs then c.finish (c.writeS s d (gatherFail 6))
    else restoresInto c d core h l bs
      (s.emptyBanks (clusterOfCore core) (banksOf (s.pickAllBanks (clusterOfCore core) l.hdr)))

theorem exec_ctxrs (H : PrivRuns s c q) (hx : ReadsS c a x) : exec (.ctxrs q d a) s = .next (restores c d x s) := by
  show execCtxrs q d a s = _
  refine runWith_ok H.issues (allowed_priv H.priv) ?_
  rw [if_neg (by simpa using H.active), readsS_ok hx, needIdle_ok H.idle]
  simp only [bind, Except.bind, restores]
  cases s.readImage x with
  | error e => rfl
  | ok p =>
    obtain ⟨h, l, bs⟩ := p
    dsimp only
    by_cases hroom : s.hasRoom (bitsOf c.g.wsel 15 8) h l bs = true
    · simp only [hroom, Bool.not_true]
      cases s.pickAllBanks (clusterOfCore (bitsOf c.g.wsel 15 8)) l.hdr <;>
      · simp only [banksOf]
        generalize s.emptyBanks _ _ = r
        obtain ⟨u, _ | n⟩ := r
        · simp only [restoresInto]
          cases u.restore (bitsOf c.g.wsel 15 8) h l bs <;> rfl
        · rfl
    · simp only [hroom]
      rfl

end forms

/-! ### Saved couplings and barriers come back (15 Table 15-14) -/

/-- The number in the little-endian bytes of a number that fits. -/
theorem natOfBytes_bytesOfNat {n x : Nat} (h : x < 256 ^ n) : natOfBytes (bytesOfNat n x) = x := by
  induction n generalizing x with
  | zero => simp only [Nat.pow_zero, Nat.lt_one_iff] at h; simp [bytesOfNat, natOfBytes, h]
  | succ n ih =>
    have hlow : x / 256 < 256 ^ n := Nat.div_lt_of_lt_mul (by rwa [Nat.pow_succ, Nat.mul_comm] at h)
    simp only [bytesOfNat, natOfBytes, ih hlow, BitVec.toNat_ofNat]
    omega

theorem length_bytesOfNat (n x : Nat) : (bytesOfNat n x).length = n := by
  induction n generalizing x with
  | zero => rfl
  | succ n ih => simp [bytesOfNat, ih]

theorem length_le (n x : Nat) : (le n x).length = n := length_bytesOfNat n x

/-- A field that lies past the first bytes of a list. -/
theorem fieldOf_past {m x off n : Nat} (h : m ≤ off) (bs : List Byte) :
    fieldOf (le m x ++ bs) off n = fieldOf bs (off - m) n := by
  have : (le m x ++ bs).drop off = bs.drop (off - m) := by
    rw [List.drop_append, List.drop_eq_nil_of_le (by rwa [length_le]), List.nil_append, length_le]
  rw [fieldOf, this, fieldOf]

theorem fieldOf_past_pad {m off n : Nat} (h : m ≤ off) (bs : List Byte) :
    fieldOf (pad m ++ bs) off n = fieldOf bs (off - m) n := by
  have : (pad m ++ bs).drop off = bs.drop (off - m) := by
    rw [List.drop_append, List.drop_eq_nil_of_le (by rwa [pad, List.length_replicate]), List.nil_append, pad,
      List.length_replicate]
  rw [fieldOf, this, fieldOf]

/-- The field that a list begins with. -/
theorem fieldOf_le {n x : Nat} (h : x < 256 ^ n) (bs : List Byte) : fieldOf (le n x ++ bs) 0 n = x := by
  have : ((le n x ++ bs).drop 0).take n = le n x := by
    rw [List.drop_zero, List.take_append_of_le_length (length_le n x).ge, List.take_of_length_le (length_le n x).le]
  rw [fieldOf, this]
  exact natOfBytes_bytesOfNat h

theorem coupling_saved (z : Coupling) (hp : z.prod < 32) (hc : z.cons < 32) (hd : z.depth ≤ 1024) (ha : z.allow ≤ 1024)
    (hr : z.ret ≤ 1024) (hs : z.stored = z.opened) : Coupling.ofBytes z.bytes z.handles = z := by
  obtain ⟨opened, closed, defer, depth, prod, cons, allow, ret, handles, stored⟩ := z
  dsimp only at hp hc hd ha hr hs
  subst hs
  have hbits : ∀ b0 b1 b2 : Bool, let f := bitNat b0 0 + bitNat b1 1 + bitNat b2 2
      f < 256 ^ 1 ∧ (f % 2 == 1) = b0 ∧ (f / 2 % 2 == 1) = b1 ∧ (f / 4 % 2 == 1) = b2 := by decide
  obtain ⟨hsmall, h0, h1, h2⟩ := hbits stored closed defer
  simp (disch := omega) only [Coupling.ofBytes, Coupling.bytes, List.append_assoc, fieldOf_past,
    fieldOf_le, Nat.sub_self, Nat.reduceSub, h0, h1, h2]

theorem barrier_saved (z : Barrier) (hc : z.count ≤ 1024) (ha : z.arr ≤ 1024) : Barrier.ofBytes z.bytes = z := by
  obtain ⟨count, arr, phase, arrived, last⟩ := z
  dsimp only at hc ha
  have hbit : ∀ b : Bool, bitNat b 0 < 256 ^ 1 ∧ (bitNat b 0 % 2 == 1) = b := by decide
  obtain ⟨hsmall, hodd⟩ := hbit phase
  have h4 : arrived.toNat < 256 ^ 4 := arrived.isLt
  have h5 : last.toNat < 256 ^ 4 := last.isLt
  have hend : ∀ bs : List Byte, bs = bs ++ [] := fun bs => (List.append_nil bs).symm
  rw [Barrier.ofBytes, Barrier.bytes, hend (_ ++ le 4 last.toNat)]
  simp (disch := omega) only [List.append_assoc, fieldOf_past, fieldOf_past_pad,
    fieldOf_le, Nat.sub_self, Nat.reduceSub, hodd, BitVec.ofNat_toNat, BitVec.setWidth_eq]

/-! ### What the four forms share -/

/-- A privileged form with sources that are read before it acts: with no lane active it only moves on, and with older
work it waits. -/
def ActsAlone (i : Instr) (s : State) (c : Ctx) (q : Quals) (reads : Prop) : Prop :=
  ∃ body, exec i s = runWith none true s body ∧ (c.active q = 0 → body c s = .ok (c.finish s)) ∧
    (c.active q ≠ 0 → reads → c.g.rob ≠ [] → body c s = .error (.wait .drained))

theorem management_actsAlone (s : State) (c : Ctx) (q : Quals) (d a b : BitVec 6) (x y : DWord) :
    ∀ f ∈ [Instr.ptload q d a b, .bias q d a, .ctxsv q d a b, .ctxrs q d a],
      ActsAlone f s c q (ReadsS c a x ∧ ReadsS c b y) := by
  simp only [List.forall_mem_cons]
  refine ⟨⟨_, show exec (.ptload q d a b) s = runPriv s _ from rfl, fun h => ?_, fun h ⟨ha, _⟩ hr => ?_⟩,
    ⟨_, show _ = execBias q d a s from rfl, fun h => ?_, fun h ⟨ha, _⟩ hr => ?_⟩,
    ⟨_, show _ = execCtxsv q d a b s from rfl, fun h => ?_, fun h ⟨ha, hb⟩ hr => ?_⟩,
    ⟨_, show _ = execCtxrs q d a s from rfl, fun h => ?_, fun h ⟨ha, _⟩ hr => ?_⟩, fun _ h => nomatch h⟩
  · rw [once_inactive h]; rfl
  · rw [once_active h, readsS_ok ha, needIdle_wait hr]; rfl
  · rw [if_pos (by simpa using h)]
  · rw [if_neg (by simpa using h), readsS_ok ha, needIdle_wait hr]; rfl
  · rw [if_pos (by simpa using h)]
  · rw [if_neg (by simpa using h), readsS_ok ha, readsS_ok hb, needIdle_wait hr]; rfl
  · rw [if_pos (by simpa using h)]
  · rw [if_neg (by simpa using h), readsS_ok ha, needIdle_wait hr]; rfl

section shared
variable {i : Instr} {s : State} {c : Ctx} {q : Quals} {reads : Prop} (hf : ActsAlone i s c q reads) (hi : Issues s c)
include hf hi

theorem actsAlone_denied (hp : isRanene c.iss.core = false) :
    Traps i s c (FaultInfo.withOperand causePrivilege (c.iss.word.setWidth 64)) := by
  obtain ⟨body, hrun, -⟩ := hf
  exact hrun.trans (runWith_denied hi hp)

theorem actsAlone_inactive (hp : isRanene c.iss.core = true) (ha : c.active q = 0) : Idles i s c := by
  obtain ⟨body, hrun, hnone, -⟩ := hf
  exact ⟨_, hrun.trans (runWith_ok hi (allowed_priv hp) (hnone ha)), finish_same hi⟩

theorem actsAlone_waits (hp : isRanene c.iss.core = true) (ha : c.active q ≠ 0) (hread : reads) (hr : c.g.rob ≠ []) :
    Waits i s c .drained := by
  obtain ⟨body, hrun, -, hwait⟩ := hf
  exact hrun.trans (runWith_wait hi (allowed_priv hp) (hwait ha hread hr))

end shared

/-! ### O53 -/

section clauses
variable {s : State} {c : Ctx} {q : Quals} {d a b : BitVec 6} {x y : DWord} (H : PrivRuns s c q) (hx : ReadsS c a x)
include H hx

theorem ptload_refuses {code : Nat} (h : s.loadImage (b.toNat % 8) (s.imageAt x) = (s, code)) :
    SetsS (.ptload q d a b) s c d (BitVec.ofNat 64 code) := by
  refine setsS_of_writeS ?_
  rw [exec_ptload H hx, h]

theorem ptload_installs {bs : List Byte} (hb : s.imageAt x = some bs) (h : s.checkImage (b.toNat % 8) bs = 0) :
    ∃ u r, WritesS c.g.arch r d 0 ∧ exec (.ptload q d a b) s = .next (c.finish (c.putArch u r)) ∧
      u.images = s.images.set (b.toNat % 8) (some (Image.ofBytes bs)) ∧ u.groups = s.groups ∧ u.mem = s.mem := by
  obtain ⟨u, hload, himg, hgrp, hmem⟩ := loadImage_installs h
  obtain ⟨r, hr, hput, -⟩ := finish_writeS u c d 0
  refine ⟨u, r, hr, ?_, himg, hgrp, hmem⟩
  rw [exec_ptload H hx, hb, hload]
  exact congrArg _ hput

theorem bias_result {n : Nat} (h : biasBody c d x s = .ok (c.finish (c.writeS s d (BitVec.ofNat 64 n)))) :
    SetsS (.bias q d a) s c d (BitVec.ofNat 64 n) := setsS_of_writeS (exec_bias_body H hx h)


theorem bias_outside (h : ¬ (x.toNat < 2 ^ 41 ∧ s.windowOf (s.partOfCore c.iss.core) (biasPage x) ≠ none)) :
    SetsS (.bias q d a) s c d 1 := by
  refine bias_result H hx (n := 1) (if_pos ?_)
  rw [← bitsOf_high_zero] at h
  by_cases hz : bitsOf x 63 41 = 0
  · simpa [hz] using h
  · simp [hz]

section inside
variable (hin : x.toNat < 2 ^ 41 ∧ s.windowOf (s.partOfCore c.iss.core) (biasPage x) ≠ none)
include hin

omit H hx in
/-- A BIAS whose page lies in a window of the partition is not refused with 1. -/
theorem bias_notOutside :
    ¬ (bitsOf x 63 41 != 0 || (s.windowOf (s.partOfCore c.iss.core) (biasPage x)).isNone) = true := by
  simp [(bitsOf_high_zero x).mpr hin.1, hin.2]

theorem bias_notCoherent (hc : s.lineHcoh (biasPage x * 4096) = false) : SetsS (.bias q d a) s c d 2 := by
  refine bias_result H hx (n := 2) ?_
  simp only [biasBody, if_neg (bias_notOutside hin), hc, Bool.not_false, if_true]

variable (hc : s.lineHcoh (biasPage x * 4096) = true)
include hc

theorem bias_waits (hflip : s.flipOf (s.partOfCore c.iss.core) (biasPage x) ≠ none) :
    Waits (.bias q d a) s c (.flip (s.partOfCore c.iss.core) (biasPage x) (c.flipping s x)) := by
  refine exec_bias_waits H hx ?_
  simp only [biasBody, if_neg (bias_notOutside hin), hc, Bool.not_true, Option.isSome_iff_ne_none.mpr hflip, if_true,
    Bool.false_eq_true, if_false]

variable (hflip : s.flipOf (s.partOfCore c.iss.core) (biasPage x) = none)
include hflip

theorem bias_flipped (hm : c.flipping s x = true) : SetsS (.bias q d a) s c d 0 := by
  refine bias_result H hx (n := 0) ?_
  simp only [biasBody, if_neg (bias_notOutside hin), hc, Bool.not_true, hflip, hm, Option.isSome_none, if_true,
    Bool.false_eq_true, if_false]

theorem bias_there (hm : c.flipping s x = false)
    (hb : s.bias (s.partOfCore c.iss.core) (biasPage x) = bitNat (x.getLsbD 1) 0) : SetsS (.bias q d a) s c d 0 := by
  have hlow : ¬ 2 ≤ bitNat (x.getLsbD 1) 0 := by cases x.getLsbD 1 <;> decide
  refine bias_result H hx (n := 0) ?_
  simp only [biasBody, if_neg (bias_notOutside hin), hc, Bool.not_true, hflip, hm, Option.isSome_none, hb, hlow,
    beq_self_eq_true, if_true, Bool.false_eq_true, if_false]

theorem bias_flips (hm : c.flipping s x = false) (hlow : s.bias (s.partOfCore c.iss.core) (biasPage x) < 2)
    (hb : s.bias (s.partOfCore c.iss.core) (biasPage x) ≠ bitNat (x.getLsbD 1) 0) : exec (.bias q d a) s =
      .next (c.block (s.startFlip (s.partOfCore c.iss.core) (biasPage x) (x.getLsbD 1))
        (.flip (s.partOfCore c.iss.core) (biasPage x) true)) := by
  refine exec_bias_body H hx ?_
  simp only [biasBody, if_neg (bias_notOutside hin), hc, Bool.not_true, hflip, hm, Option.isSome_none,
    Nat.not_le.mpr hlow, beq_eq_false_iff_ne.mpr hb, Bool.false_eq_true, if_false]

end inside
end clauses

/-- The flip that a stream waits for is the one it started. -/
theorem flipping_iff (c : Ctx) (s : State) (x : DWord) : c.flipping s x = true ↔
    (c.g.arch.path c.iss.ent).wait = some (.flip (s.partOfCore c.iss.core) (biasPage x) true) := beq_iff_eq

section gathers
variable {s : State} {c : Ctx} {q : Quals} {d a b : BitVec 6} {x y : DWord} (H : PrivRuns s c q) (hx : ReadsS c a x)
  (hy : ReadsS c b y)
include H hx hy

/-- What a CTXSV answers that has begun no gather (15 R393). -/
theorem ctxsv_asks (hw : ∀ k, (c.g.arch.path c.iss.ent).wait ≠ some (.gathered k)) {k : Nat} {t : Team}
    (ht : s.selectedTeam c = some (k, t)) :
    (s.teamStopped t = true → SetsS (.ctxsv q d a b) s c d (gatherFail 2)) ∧
    (s.teamStopped t = false → (x.toNat % 128 ≠ 0 ∨ mgmtOff x 1 = none) → SetsS (.ctxsv q d a b) s c d (gatherFail 3)) ∧
    (s.teamStopped t = false → x.toNat % 128 = 0 → mgmtOff x 1 ≠ none → exec (.ctxsv q d a b) s =
      .next (c.letGo.block (c.letGo.put s c.letGo.g) (gatherWait (c.letGo.put s c.letGo.g) c k t))) := by
  have hrun := exec_ctxsv_asks (d := d) H hx hy hw
  simp only [saveAsks, ht] at hrun
  refine ⟨fun h => setsS_of_writeS ?_, fun h hplace => setsS_of_writeS ?_, fun h hline hplace => ?_⟩
  · rw [hrun, if_pos h]
  · rw [hrun, if_neg (by simp [h]), if_pos (by simpa using hplace)]
  · rw [hrun, if_neg (by simp [h]), if_neg (by simp [hline, hplace])]

/-- What a CTXSV answers whose gather of team k was begun (15 R393, R396). -/
theorem ctxsv_gathers {k : Nat} (hw : (c.g.arch.path c.iss.ent).wait = some (.gathered k)) {t : Team} {l : Launch}
    (ht : s.teams.find k = some t) (hl : ((s.abortStopped t).ctx t.vi).launch t.launch = some l) :
    ((s.abortStopped t).teamSettled t = false →
      exec (.ctxsv q d a b) s = .next (c.block (s.abortStopped t) (.gathered k))) ∧
    ((s.abortStopped t).teamSettled t = true → ∀ u n, (s.abortStopped t).saveTeam k t l.hdr x y = (u, n) →
      ∃ r, WritesS c.g.arch r d n ∧ exec (.ctxsv q d a b) s = .next (c.finish (c.putArch u r))) := by
  have hrun := exec_ctxsv_gathers (d := d) H hx hy hw
  simp only [saveGathers, ht, hl] at hrun
  refine ⟨fun h => ?_, fun h u n hsave => ?_⟩
  · rw [hrun, if_pos (by simp [h])]
  · rw [if_neg (by simp [h]), hsave] at hrun
    obtain ⟨r, hr, hput, -⟩ := finish_writeS u c d n
    exact ⟨r, hr, hrun.trans (congrArg _ hput)⟩

end gathers

/-- A saved team: where it goes, or why it does not (15 R396). -/
theorem saveTeam_short {v : State} {k : Nat} {t : Team} {h : Header} {x y : DWord} (hy : y.toNat < (v.teamImage t h).length) :
    v.saveTeam k t h x y = (v, gatherFail 4) := if_pos hy

theorem saveTeam_outside {v : State} {k : Nat} {t : Team} {h : Header} {x y : DWord} (hy : (v.teamImage t h).length ≤ y.toNat)
    (hx : mgmtOff x (v.teamImage t h).length = none) : v.saveTeam k t h x y = (v, gatherFail 3) := by
  simp only [State.saveTeam, if_neg (Nat.not_lt.mpr hy), hx]

theorem saveTeam_stored {v : State} {k : Nat} {t : Team} {h : Header} {x y : DWord} (hy : (v.teamImage t h).length ≤ y.toNat)
    {off : Nat} (hx : mgmtOff x (v.teamImage t h).length = some off) : v.saveTeam k t h x y =
      ((v.mgmtPut off (v.teamImage t h)).freeTeam k t, BitVec.ofNat 64 (v.teamImage t h).length) := by
  simp only [State.saveTeam, if_neg (Nat.not_lt.mpr hy), hx]

section restore
variable {s : State} {c : Ctx} {q : Quals} {d a : BitVec 6} {x : DWord} (H : PrivRuns s c q) (hx : ReadsS c a x)
include H hx

theorem ctxrs_unreadable {e : Nat} (h : s.readImage x = .error e) : SetsS (.ctxrs q d a) s c d (gatherFail e) := by
  refine setsS_of_writeS ((exec_ctxrs H hx).trans ?_)
  rw [restores, h]

variable {h : ImageHead} {l : Launch} {bs : List Byte} (himg : s.readImage x = .ok (h, l, bs))
include himg

theorem ctxrs_noRoom (hroom : s.hasRoom (bitsOf c.g.wsel 15 8) h l bs = false) :
    SetsS (.ctxrs q d a) s c d (gatherFail 6) := by
  refine setsS_of_writeS ((exec_ctxrs H hx).trans ?_)
  simp only [restores, himg, hroom, Bool.not_false, if_true]

variable (hroom : s.hasRoom (bitsOf c.g.wsel 15 8) h l bs = true) {banks : List Nat × List Nat × List Nat}
  (hpick : s.pickAllBanks (clusterOfCore (bitsOf c.g.wsel 15 8)) l.hdr = some banks)
include hroom hpick

/-- With room on the core the restore goes by what becomes of the banks it asks for. -/
theorem exec_ctxrs_room : exec (.ctxrs q d a) s = .next (restoresInto c d (bitsOf c.g.wsel 15 8) h l bs
    (s.emptyBanks (clusterOfCore (bitsOf c.g.wsel 15 8)) (banks.1 ++ banks.2.1 ++ banks.2.2))) := by
  rw [exec_ctxrs H hx]
  simp only [restores, himg, hroom, hpick, banksOf, Bool.not_true, Bool.false_eq_true, if_false]

theorem ctxrs_waits {u : State} {n : Nat}
    (hempty : s.emptyBanks (clusterOfCore (bitsOf c.g.wsel 15 8)) (banks.1 ++ banks.2.1 ++ banks.2.2) = (u, some n)) :
    exec (.ctxrs q d a) s = .next (c.block u (.bank (clusterOfCore (bitsOf c.g.wsel 15 8)) n)) := by
  rw [exec_ctxrs_room H hx himg hroom hpick, hempty, restoresInto]

variable {u : State}
  (hempty : s.emptyBanks (clusterOfCore (bitsOf c.g.wsel 15 8)) (banks.1 ++ banks.2.1 ++ banks.2.2) = (u, none))
include hempty

theorem ctxrs_fails {e : Nat} (he : u.restore (bitsOf c.g.wsel 15 8) h l bs = .error e) :
    ∃ r, WritesS c.g.arch r d (gatherFail e) ∧ EndsIn (.ctxrs q d a) s u c r [] := by
  refine endsIn_writeS ?_
  rw [exec_ctxrs_room H hx himg hroom hpick, hempty, restoresInto, he]

theorem ctxrs_restores {w : State} (hw : u.restore (bitsOf c.g.wsel 15 8) h l bs = .ok w) :
    ∃ r, WritesS c.g.arch r d 0 ∧ EndsIn (.ctxrs q d a) s w c r [] := by
  refine endsIn_writeS ?_
  rw [exec_ctxrs_room H hx himg hroom hpick, hempty, restoresInto, hw]

end restore

/-- Settles O53: what the four forms share, then form by form what each answers once it runs; a saved coupling and a saved barrier
are read back field by field. -/
theorem managementForms : Obligations.ManagementForms := by
  unfold Obligations.ManagementForms
  intro s c q d a b x y hi
  have hf := management_actsAlone s c q d a b x y
  refine ⟨fun hp f hm => actsAlone_denied (hf f hm) hi hp, fun hp ha f hm => actsAlone_inactive (hf f hm) hi hp ha,
    fun hp ha hx hy => ⟨fun hr f hm => actsAlone_waits (hf f hm) hi hp ha ⟨hx, hy⟩ hr, fun hr => ?_⟩, coupling_saved,
    barrier_saved⟩
  have H : PrivRuns s c q := ⟨hi, hp, ha, hr⟩
  refine ⟨fun h => ptload_refuses H hx (by rw [h]; rfl), fun bs hb => ⟨fun h => ptload_refuses H hx ?_, ptload_installs H hx hb⟩,
    ⟨bias_outside H hx, fun hin hc => bias_notCoherent H hx hin hc, fun hin hc => ⟨fun hflip => ?_, fun hflip => ?_⟩⟩,
    ⟨fun hw => ⟨fun hsel => ?_, fun core grp h k t hsel hteam ht => ?_⟩,
      fun k hw => ⟨fun ht => ?_, fun t l ht hl => ?_⟩⟩, ?_⟩
  · rw [hb, loadImage_refused h]
  · have hwait := bias_waits (d := d) H hx hin hc hflip
    refine ⟨fun hm => ?_, fun hm => ?_⟩
    · rwa [(flipping_iff c s x).mpr hm] at hwait
    · rwa [Bool.eq_false_iff.mpr fun h => hm ((flipping_iff c s x).mp h)] at hwait
  · refine ⟨fun hm => bias_flipped H hx hin hc hflip ((flipping_iff c s x).mpr hm), fun hm hb => ?_, fun hm hlow hb => ?_⟩
    · exact bias_there H hx hin hc hflip (Bool.eq_false_iff.mpr fun h => hm ((flipping_iff c s x).mp h)) hb
    · exact bias_flips H hx hin hc hflip (Bool.eq_false_iff.mpr fun h => hm ((flipping_iff c s x).mp h)) hlow hb
  · have hnone : s.selectedTeam c = none := by rw [State.selectedTeam, hsel]; rfl
    refine setsS_of_writeS (x := gatherFail 1) ((exec_ctxsv_asks H hx hy hw).trans ?_)
    rw [saveAsks, hnone]
  · have hsome : s.selectedTeam c = some (k, t) := by simp [State.selectedTeam, hsel, hteam, ht]
    obtain ⟨hstop, hplace, hgo⟩ := ctxsv_asks (d := d) H hx hy hw hsome
    refine ⟨hstop, hplace, fun h hline hoff => ⟨_, hgo h hline hoff, fun h1 h2 => ?_, fun hor => ?_⟩⟩
    · exact if_neg (Bool.eq_false_iff.mp (Bool.or_eq_false_iff.mpr ⟨h1, h2⟩))
    · exact if_pos ((Bool.or_eq_true _ _).mpr hor)
  · refine setsS_of_writeS (x := gatherFail 1) ((exec_ctxsv_gathers H hx hy hw).trans ?_)
    rw [saveGathers, ht]
  · obtain ⟨hwait, hsave⟩ := ctxsv_gathers (d := d) H hx hy hw ht hl
    exact ⟨hwait, fun h hlen => hsave h _ _ (saveTeam_short hlen), fun h hlen hoff => hsave h _ _ (saveTeam_outside hlen hoff),
      fun off h hlen hoff => hsave h _ _ (saveTeam_stored hlen hoff)⟩
  · exact ⟨fun e => ctxrs_unreadable H hx, fun h l bs himg => ⟨ctxrs_noRoom H hx himg, fun banks hroom hpick =>
      ⟨fun u n hempty => ctxrs_waits H hx himg hroom hpick hempty, fun u hempty =>
        ⟨fun e => ctxrs_fails H hx himg hroom hpick hempty, fun w => ctxrs_restores H hx himg hroom hpick hempty⟩⟩⟩⟩

end Sys2Proof.Machine
end

section
/-!
What an event that is looked up at a home leaves of the machine (05 R121 to R125, R137): the line's own entry, the network and
what a read of the line below its home counts.
-/
namespace Sys2Proof.Machine

open Sys2Proof.Safety

/-! ### Reads below a home -/

/-- Beside the counts of fills, the rows of a compute bank the line lies in and the management events nothing has changed. -/
structure FillOnly (s t : State) (line : Nat) : Prop where
  rest : t = { s with acct := t.acct, corrected := t.corrected, units := t.units,
                      mgmt := { s.mgmt with evWait := t.mgmt.evWait } }
  rows : isCompute line = false → t.units = s.units

namespace FillOnly

theorem refl (s : State) (line : Nat) : FillOnly s s line := ⟨rfl, fun _ => rfl⟩

theorem trans {s t u : State} {line : Nat} (h : FillOnly s t line) (k : FillOnly t u line) : FillOnly s u line :=
  ⟨by rw [k.rest, h.rest], fun hc => (k.rows hc).trans (h.rows hc)⟩

end FillOnly

theorem foldl_fillOnly {α : Type} {f : State → α → State} {line : Nat} (h : ∀ s x, FillOnly s (f s x) line) (xs : List α)
    (s : State) : FillOnly s (xs.foldl f s) line := by
  induction xs generalizing s with
  | nil => exact .refl s line
  | cons x r ih => exact (h s x).trans (ih _)

theorem event_fillOnly (s : State) (die src detail : Nat) (addr data : DWord) (line : Nat) :
    FillOnly s (s.event die src detail addr data) line := ⟨rfl, fun _ => rfl⟩

theorem count_fillOnly (s : State) (vi i n line : Nat) : FillOnly s (s.count vi i n) line := by
  unfold State.count
  split
  · exact ⟨rfl, fun _ => rfl⟩
  · exact .refl s line

theorem countCe_fillOnly (s : State) (cell line : Nat) : FillOnly s (s.countCe cell) line := ⟨rfl, fun _ => rfl⟩

theorem openFor_fillOnly (s : State) (line : Nat) : FillOnly s (s.openFor line) line := by
  unfold State.openFor
  split
  · exact .refl s line
  next hc =>
    dsimp only
    split
    · exact .refl s line
    · exact ⟨rfl, fun h => absurd h (by simpa using hc)⟩

theorem noteDram_fillOnly (s : State) (part l line : Nat) : FillOnly s (s.noteDram part l) line := by
  unfold State.noteDram
  split
  · exact .refl s line
  · cases s.dpaKind part l with
    | dram c => exact countCe_fillOnly s c line
    | unbacked => exact event_fillOnly ..
    | view _ => exact .refl s line
    | host _ => exact .refl s line

theorem noteRead_fillOnly (s : State) (part l line : Nat) : FillOnly s (s.noteRead part l) line := by
  unfold State.noteRead
  split
  · split
    · exact .refl s line
    · exact foldl_fillOnly (fun s x => noteDram_fillOnly s part x line) _ s
  · exact noteDram_fillOnly s part l line

theorem readMem_fillOnly (s : State) (part line vi : Nat) : FillOnly s (s.readMem part line vi) line := by
  unfold State.readMem
  cases s.dpaKind part line with
  | dram c => exact ((countCe_fillOnly s c line).trans (count_fillOnly _ vi 4 128 line)).trans (openFor_fillOnly _ line)
  | unbacked => exact event_fillOnly ..
  | view _ => exact noteRead_fillOnly s part line line
  | host _ => exact .refl s line

theorem fillHome_fillOnly (s : State) (part line vi : Nat) (h : HomeLine) : FillOnly s (s.fillHome part line vi h).1 line := by
  unfold State.fillHome
  split
  · exact .refl s line
  · exact readMem_fillOnly s part line vi

end Sys2Proof.Machine

namespace Sys2Proof.Safety.HomeOnly

open Sys2Proof.Machine

/-! ### Events at a home -/

theorem refl (s : State) (part line : Nat) : HomeOnly s s part line := ⟨rfl, fun _ _ => rfl, fun _ => rfl⟩

theorem trans {s t u : State} {part line : Nat} (h : HomeOnly s t part line) (k : HomeOnly t u part line) :
    HomeOnly s u part line :=
  ⟨by rw [k.rest, h.rest], fun n hn => (k.others n hn).trans (h.others n hn), fun hc => (k.rows hc).trans (h.rows hc)⟩

section reads
variable {s t : State} {part line : Nat} (h : HomeOnly s t part line)
include h

theorem ns : t.ns = s.ns := by rw [h.rest]; rfl
theorem flipOf (p page : Nat) : t.flipOf p page = s.flipOf p page := by rw [h.rest]; rfl
theorem imageSlot (a : Nat) : t.imageSlot a = s.imageSlot a := by rw [h.rest]; rfl
theorem imageOf (a : Nat) : t.imageOf a = s.imageOf a := by rw [h.rest]; rfl
theorem rangeOf (a : Nat) : t.rangeOf a = s.rangeOf a := by rw [h.rest]; rfl
theorem lineLease (a : Nat) : t.lineLease a = s.lineLease a := by rw [h.rest]; rfl
theorem lineRepl (a : Nat) : t.lineRepl a = s.lineRepl a := by rw [h.rest]; rfl
theorem homeSlice (p a : Nat) : t.homeSlice p a = s.homeSlice p a := by rw [h.rest]; rfl
theorem diesOf (p : Nat) : t.diesOf p = s.diesOf p := by rw [h.rest]; rfl
theorem dpaKind (p a : Nat) : t.dpaKind p a = s.dpaKind p a := by rw [h.rest]; rfl
theorem cellLine (c : Nat) : t.cellLine c = s.cellLine c := by rw [h.rest]; rfl

end reads
end Sys2Proof.Safety.HomeOnly

namespace Sys2Proof.Machine

open Sys2Proof.Safety

theorem FillOnly.homeOnly {s t : State} {line : Nat} (h : FillOnly s t line) (part : Nat) : HomeOnly s t part line :=
  ⟨by rw [h.rest], fun _ _ => by rw [h.rest], h.rows⟩

theorem setHome_homeOnly (s : State) (part line : Nat) (h : HomeLine) : HomeOnly s (s.setHome part line h) part line :=
  ⟨rfl, fun _ hn => Table.find_put_other _ _ hn, fun _ => rfl⟩

@[simp] theorem home_setHome (s : State) (part line : Nat) (h : HomeLine) : (s.setHome part line h).home part line = h :=
  Table.get_put_same ..

theorem net_homeOnly (s : State) (ms : List Msg) (part line : Nat) : HomeOnly s { s with net := ms } part line :=
  ⟨rfl, fun _ _ => rfl, fun _ => rfl⟩

theorem send_homeOnly (s : State) (m : Msg) (part line : Nat) : HomeOnly s (s.send m) part line := net_homeOnly ..

theorem event_homeOnly (s : State) (die src detail : Nat) (addr data : DWord) (part line : Nat) :
    HomeOnly s (s.event die src detail addr data) part line := (event_fillOnly ..).homeOnly part

theorem lineEvent_homeOnly (s : State) (src : Nat) (ev : Event) (p l st part line : Nat) :
    HomeOnly s (s.lineEvent src ev p l st) part line := event_homeOnly ..

theorem answerHost_homeOnly (s : State) (kind about : Nat) (poison : Bool) (bs : List Byte) (part line : Nat) :
    HomeOnly s (s.answerHost kind about poison bs) part line := ⟨rfl, fun _ _ => rfl, fun _ => rfl⟩

theorem fillHome_homeOnly (s : State) (part line vi : Nat) (h : HomeLine) :
    HomeOnly s (s.fillHome part line vi h).1 part line := (fillHome_fillOnly ..).homeOnly part

theorem undefinedEntry_homeOnly (s : State) (ev : Event) (m : Msg) (st : Nat) :
    HomeOnly s (undefinedEntry s ev m st) m.part m.line := by
  unfold undefinedEntry
  dsimp only
  refine HomeOnly.trans ?_ (lineEvent_homeOnly ..)
  have hset := (fillHome_homeOnly s m.part m.line m.vi (s.home m.part m.line)).trans (setHome_homeOnly _ m.part m.line
    { (s.fillHome m.part m.line m.vi (s.home m.part m.line)).2 with poison := true })
  split
  · exact hset.trans (send_homeOnly ..)
  · split
    · exact hset.trans (answerHost_homeOnly ..)
    · exact hset

/-! ### The messages of an entry (05 R122, step 3) -/

theorem foldl_send (g : Nat → Msg) (as : List Nat) (s : State) :
    as.foldl (fun s a => s.send (g a)) s = { s with net := s.net ++ as.map g } := by
  induction as generalizing s with
  | nil => rw [List.map_nil, List.append_nil]; rfl
  | cons a r ih =>
    rw [List.foldl_cons, ih, List.map_cons, List.append_cons]
    rfl

/-- A message of a home to an agent. -/
def Msg.toAgent (kind : MsgKind) (part line tag : Nat) (f : Msg → Msg) (a : Nat) : Msg :=
  f { Msg.blank kind part line a with tag := tag }

/-- Messages to agents where an action asks for them. -/
theorem toAgents_if (b : Bool) (s : State) (part line tag : Nat) (as : List Nat) (kind : MsgKind) (f : Msg → Msg) :
    (if b then toAgents s part line tag as kind f else (s, 0)) =
      ({ s with net := s.net ++ if b then as.map (Msg.toAgent kind part line tag f) else [] },
        (if b then as.map (Msg.toAgent kind part line tag f) else []).length) := by
  cases b with
  | true => exact Prod.ext (foldl_send _ as s) (List.length_map ..).symm
  | false => simp

/-- The invalidations, updates, forwards and snoops of an entry e. -/
def entryInvs (ev : Event) (e : Word) (d : Dir) (m req : Msg) (tag : Nat) : List Msg :=
  if act e 2 then (if ev == .ue then d.agents else d.agents.filter (· != req.peer)).map (Msg.toAgent .inv m.part m.line tag id)
  else []

def entryUpds (e : Word) (d : Dir) (m req : Msg) (tag : Nat) : List Msg :=
  if act e 3 then (d.agents.filter (· != req.peer)).map
    (Msg.toAgent .upd m.part m.line tag fun x => { x with data := m.data, mask := m.mask }) else []

def entryFwds (reqEv : Event) (e : Word) (d : Dir) (m : Msg) (tag : Nat) : List Msg :=
  if act e 4 && d.o then (d.ptrs.take 1).map (Msg.toAgent (.fwd reqEv) m.part m.line tag id) else []

def State.entrySnoops (s : State) (e : Word) (d : Dir) (m : Msg) (tag : Nat) : List Msg :=
  if act e 17 && d.h then ((portsOf (s.diesOf m.part)).map (76 + ·)).map (Msg.toAgent .bisnp m.part m.line tag id) else []

def State.entrySent (s : State) (ev reqEv : Event) (e : Word) (d : Dir) (m req : Msg) (tag : Nat) : List Msg :=
  entryInvs ev e d m req tag ++ entryUpds e d m req tag ++ entryFwds reqEv e d m tag ++ s.entrySnoops e d m tag

theorem entrySends_eq (s : State) (ev reqEv : Event) (e : Word) (d : Dir) (m req : Msg) (tag : Nat) :
    s.entrySends ev reqEv e d m req tag = ({ s with net := s.net ++ s.entrySent ev reqEv e d m req tag },
      (s.entrySent ev reqEv e d m req tag).length) := by
  simp only [State.entrySends, toAgents_if, State.entrySent, List.length_append, List.append_assoc, Nat.add_assoc]
  rfl

/-- What SET_ACKS counts is what an entry sends to agents. -/
theorem entrySent_counted (s : State) (ev reqEv : Event) (e : Word) (d : Dir) (m req : Msg) (tag : Nat) :
    ∀ x ∈ s.entrySent ev reqEv e d m req tag, Counted x = true := by
  have hmap : ∀ (b : Bool) (k : MsgKind) (f : Msg → Msg) (as : List Nat),
      (∀ a, Counted (Msg.toAgent k m.part m.line tag f a) = true) →
      ∀ x ∈ (if b then as.map (Msg.toAgent k m.part m.line tag f) else []), Counted x = true := by
    intro b k f as h x hx
    cases b with
    | true => obtain ⟨a, -, rfl⟩ := List.mem_map.mp hx; exact h a
    | false => cases hx
  intro x hx
  simp only [State.entrySent, List.mem_append] at hx
  rcases hx with ((hx | hx) | hx) | hx
  · exact hmap _ _ _ _ (fun _ => rfl) x hx
  · exact hmap _ _ _ _ (fun _ => rfl) x hx
  · exact hmap _ _ _ _ (fun _ => rfl) x hx
  · exact hmap _ _ _ _ (fun _ => rfl) x hx

end Sys2Proof.Machine
end

section
/-!
The steps of an entry (05 R122), one by one: what each leaves, and how `performEntry` and `applyEntry` are made of them.
-/
namespace Sys2Proof.Machine

open Sys2Proof.Safety

/-! ### The home copy -/

/-- Of a home's entry only the copy of the line has changed, and its marks of use. -/
def CopyOnly (h k : HomeLine) : Prop :=
  k = { h with here := k.here, dirty := k.dirty, data := k.data, poison := k.poison, used := k.used, lastVi := k.lastVi }

theorem CopyOnly.trans {h k l : HomeLine} (a : CopyOnly h k) (b : CopyOnly k l) : CopyOnly h l := by
  unfold CopyOnly at *; rw [b, a]

/-- The latest copy at the home, h being its entry: what it holds, or the line of DRAM (05 Table 05-6, READ_MEM). -/
def CopyIs (s : State) (part line : Nat) (h : HomeLine) (v : Line) (p : Bool) : Prop :=
  (h.here = true ∧ v = h.data ∧ p = h.poison) ∨ (h.here = false ∧ ∃ c, s.dpaKind part line = .dram c ∧ (v, p) = s.cellLine c)

/-- The copy is at the home. -/
structure Holds (h : HomeLine) (v : Line) (p : Bool) : Prop where
  here : h.here = true
  data : h.data = v
  poison : h.poison = p

theorem fillHome_copyOnly (s : State) (part line vi : Nat) (h : HomeLine) : CopyOnly h (s.fillHome part line vi h).2 := by
  unfold State.fillHome
  split <;> rfl

theorem fillHome_here {s : State} {part line vi : Nat} {h : HomeLine} (hh : h.here = true) :
    s.fillHome part line vi h = (s, { h with used := s.clk }) := by
  simp only [State.fillHome, hh, if_true]

theorem openFor_mgmt (s : State) (a : Nat) : (s.openFor a).mgmt = s.mgmt := by
  unfold State.openFor
  split
  · rfl
  · dsimp only; split <;> rfl

theorem count_mgmt (s : State) (vi i n : Nat) : (s.count vi i n).mgmt = s.mgmt := by
  unfold State.count; split <;> rfl

/-- A fill from the home or from DRAM holds the latest copy and raises no event. -/
theorem fillHome_holds {s : State} {part line : Nat} {h : HomeLine} {v : Line} {p : Bool} (hc : CopyIs s part line h v p)
    (vi : Nat) : Holds (s.fillHome part line vi h).2 v p ∧ (s.fillHome part line vi h).1.mgmt = s.mgmt := by
  rcases hc with ⟨hh, rfl, rfl⟩ | ⟨hh, c, hk, hv⟩
  · rw [fillHome_here hh]
    exact ⟨⟨hh, rfl, rfl⟩, rfl⟩
  · have hmem : s.memLine part line = (v, p) := by rw [State.memLine, hk, hv]
    have hread : (s.readMem part line vi).mgmt = s.mgmt := by
      rw [State.readMem, hk]
      exact (openFor_mgmt _ _).trans (count_mgmt _ _ _ _)
    simp only [State.fillHome, hh, Bool.false_eq_true, if_false, hmem]
    exact ⟨⟨rfl, rfl, rfl⟩, hread⟩

/-! ### Step 1: WRITE_MEM -/

theorem entryWrite_fillOnly (s : State) (e : Word) (m : Msg) (h : HomeLine) : FillOnly s (s.entryWrite e m h).1 m.line := by
  unfold State.entryWrite
  split
  · exact .refl ..
  · split
    · exact .refl ..
    · exact fillHome_fillOnly ..

theorem entryWrite_copyOnly (s : State) (e : Word) (m : Msg) (h : HomeLine) : CopyOnly h (s.entryWrite e m h).2 := by
  unfold State.entryWrite
  split
  · rfl
  · split
    · rfl
    · exact (fillHome_copyOnly s m.part m.line m.vi h).trans rfl

theorem entryWrite_none {s : State} {e : Word} (m : Msg) (h : HomeLine) (ha : act e 10 = false) :
    s.entryWrite e m h = (s, h) := by
  simp only [State.entryWrite, ha, Bool.not_false, if_true]

theorem entryWrite_full {s : State} {e : Word} {m : Msg} (h : HomeLine) (ha : act e 10 = true) (hf : m.full = true) :
    s.entryWrite e m h = (s, { h with here := true, dirty := true, data := m.data, poison := m.poison, lastVi := m.vi }) := by
  simp only [State.entryWrite, ha, hf, Bool.not_true, Bool.false_eq_true, if_false, if_true]

/-- Written bytes are merged into the latest copy. -/
theorem entryWrite_merges {s : State} {e : Word} {m : Msg} {h : HomeLine} {v : Line} {p : Bool}
    (hc : CopyIs s m.part m.line h v p) (ha : act e 10 = true) (hf : m.full = false) :
    Holds (s.entryWrite e m h).2 (Line.merge v m.data m.mask) (p && !(m.mask == BitVec.allOnes 128)) ∧
      (s.entryWrite e m h).2.dirty = true ∧ (s.entryWrite e m h).1.mgmt = s.mgmt := by
  obtain ⟨⟨here, data, poison⟩, hm⟩ := fillHome_holds hc m.vi
  simp only [State.entryWrite, ha, hf, Bool.not_true, Bool.false_eq_true, if_false]
  exact ⟨⟨here, by rw [data], by rw [poison]⟩, trivial, hm⟩

/-! ### Step 2: what the event takes off the directory entry -/

/-- The directory entry once the event has been counted: an HSNP whose entry clears H takes H off, an answer one ack. -/
def entrySeen (ev : Event) (e : Word) (d : Dir) : Dir :=
  { d with h := d.h && !(ev == .hsnp && act e 19), acks := if act e 6 then d.acks - 1 else d.acks }

/-! ### Step 3: messages, and the tag of a new transaction -/

def State.entryTagged (s : State) (img : Image) (ev re : Event) (e : Word) (d : Dir) (m req : Msg) (tag : Nat) : State :=
  { s with net := s.net ++ s.entrySent ev re e d m req tag,
           tag := if act e 5 || (ev.isRequest && img.inTransient (e.toNat % 16)) then s.tag + 1 else s.tag }

/-! ### Step 4: READ_MEM and PERFORM_ATOM -/

def State.entryRead (s : State) (e : Word) (m : Msg) (vi : Nat) (h : HomeLine) : State × HomeLine :=
  if act e 11 || act e 16 then s.fillHome m.part m.line vi h else (s, h)

theorem entryRead_fillOnly (s : State) (e : Word) (m : Msg) (vi : Nat) (h : HomeLine) :
    FillOnly s (s.entryRead e m vi h).1 m.line := by
  unfold State.entryRead
  split
  · exact fillHome_fillOnly ..
  · exact .refl ..

theorem entryRead_copyOnly (s : State) (e : Word) (m : Msg) (vi : Nat) (h : HomeLine) : CopyOnly h (s.entryRead e m vi h).2 := by
  unfold State.entryRead
  split
  · exact fillHome_copyOnly ..
  · rfl

theorem entryRead_none {s : State} {e : Word} {m : Msg} {vi : Nat} {h : HomeLine} (h11 : act e 11 = false)
    (h16 : act e 16 = false) : s.entryRead e m vi h = (s, h) := by
  simp only [State.entryRead, h11, h16, Bool.or_self, Bool.false_eq_true, if_false]

/-- A copy that is at the home stands as it is. -/
theorem entryRead_here {s : State} {e : Word} {m : Msg} {vi : Nat} {h : HomeLine} (hh : h.here = true) :
    (s.entryRead e m vi h).1 = s ∧ (s.entryRead e m vi h).2 = { h with used := (s.entryRead e m vi h).2.used } := by
  unfold State.entryRead
  split
  · rw [fillHome_here hh]; exact ⟨rfl, rfl⟩
  · exact ⟨rfl, rfl⟩

/-- Reading holds the latest copy, where the entry reads at all. -/
theorem entryRead_holds {s : State} {e : Word} {m : Msg} {vi : Nat} {h : HomeLine} {v : Line} {p : Bool}
    (hc : CopyIs s m.part m.line h v p) :
    (act e 11 = true ∨ act e 16 = true → Holds (s.entryRead e m vi h).2 v p) ∧ (s.entryRead e m vi h).1.mgmt = s.mgmt := by
  obtain ⟨hh, hm⟩ := fillHome_holds hc vi
  unfold State.entryRead
  split
  · exact ⟨fun _ => hh, hm⟩
  next hno => exact ⟨fun ha => absurd (by simpa using ha) hno, rfl⟩

theorem entryPerform_copyOnly (e : Word) (re : Event) (req : Msg) (h : HomeLine) : CopyOnly h (entryPerform e re req h).1 := by
  unfold entryPerform
  dsimp only
  split
  · rfl
  · split
    · rfl
    · split <;> rfl

theorem entryPerform_none {e : Word} (re : Event) (req : Msg) (h : HomeLine) (ha : act e 16 = false) :
    (entryPerform e re req h).1 = h := by
  simp only [entryPerform, ha, Bool.not_false, Bool.true_or, if_true]

/-- A poisoned copy refuses an access that does not replace the line whole. -/
theorem entryPerform_refused {e : Word} {re : Event} {req : Msg} {h : HomeLine} (hp : h.poison = true)
    (hw : ¬ (re = .ncw ∧ req.mask = BitVec.allOnes 128)) : (entryPerform e re req h).1 = h := by
  have hwhole : (re == .ncw && req.mask == BitVec.allOnes 128) = false := by simpa using hw
  cases ha : act e 16
  · exact entryPerform_none re req h ha
  · simp only [entryPerform, ha, hp, hwhole, Bool.not_false, Bool.and_self, Bool.or_true, if_true]

theorem entryPerform_atom {e : Word} {re : Event} {req : Msg} {h : HomeLine} (ha : act e 16 = true) (hp : h.poison = false)
    (hre : re ≠ .ncw) {op : MemOp} (hop : req.mop = some op) : (entryPerform e re req h).1.dirty = true ∧
      (entryPerform e re req h).1.data = (performAccs op h.data req.accs).1 ∧ (entryPerform e re req h).1.here = h.here := by
  simp [entryPerform, ha, hp, hre, hop]

theorem entryPerform_write {e : Word} {req : Msg} {h : HomeLine} (ha : act e 16 = true)
    (hp : h.poison = false ∨ req.mask = BitVec.allOnes 128) : (entryPerform e .ncw req h).1.dirty = true ∧
      (entryPerform e .ncw req h).1.data = Line.merge h.data req.data req.mask := by
  have hgo : (h.poison && !(req.mask == BitVec.allOnes 128)) = false := by
    rcases hp with hp | hp
    · rw [hp, Bool.false_and]
    · rw [beq_iff_eq.mpr hp, Bool.not_true, Bool.and_false]
  simp only [entryPerform, ha, hgo, beq_self_eq_true, Bool.true_and, Bool.not_true, Bool.or_self, Bool.false_eq_true, if_false,
    if_true]
  exact ⟨trivial, trivial⟩

theorem entryPerform_here (e : Word) (re : Event) (req : Msg) (h : HomeLine) : (entryPerform e re req h).1.here = h.here := by
  unfold entryPerform
  dsimp only
  split
  · rfl
  · split
    · rfl
    · split <;> rfl

/-! ### Step 5: the reply -/

/-- NACK's messages. -/
def nackSent (s : State) (e : Word) (re : Event) (req : Msg) : List Msg :=
  let refusal := act e 23 && (re == .getm || re == .getu || re == .atom || re == .ncw)
  if re.replied then [{ req with kind := .reply re, cls := if refusal then 6 else 5, full := false, excl := false,
                                 granted := s.ns }] else []

theorem nackReply_eq (s : State) (e : Word) (re : Event) (req : Msg) :
    nackReply s e re req = { s with net := s.net ++ nackSent s e re req } := by
  unfold nackReply nackSent
  dsimp only
  split
  · rfl
  · rw [List.append_nil]

/-- The home replies: s becomes t, `out` is what it sends, h its copy of the line, d the directory entry as the lookup
found it (05 R123, R139). -/
structure Replies (s t : State) (h : HomeLine) (d : Dir) (e : Word) (req : Msg) (re : Event) (out : List Msg) : Prop where
  rest : t = { s with net := s.net ++ out, out := { s.out with answer := t.out.answer } }
  kinds : ∀ x ∈ out, Counted x = false
  reply : re ≠ .recall → re ≠ .ue → re ≠ .hget →
    ¬ (act e 21 = true ∧ ¬ (re = .ncr ∨ re = .ncw) ∧ s.lineRepl req.line = true ∧ s.rangeOf req.line ≠ none) →
    (act e 0 = true ∨ act e 1 = true ∨ act e 21 = true ∨ act e 22 = true →
      ∃ x ∈ out, x.kind = .reply re ∧ x.part = req.part ∧ x.line = req.line ∧ x.peer = req.peer ∧ x.ref = req.ref ∧
        x.excl = act e 1 ∧ x.cls = (if re = .ncr ∨ re = .ncw then 4 else if act e 1 then 1 else if act e 22 then 4
          else if act e 0 ∧ act e 14 then 2 else 0) ∧ ((re ≠ .getu ∨ d.records req.peer = false) → x.data = h.data)) ∧
    (act e 0 = false → act e 1 = false → act e 21 = false → act e 22 = false → ∀ x ∈ out, ∀ k, x.kind ≠ .reply k)
  host : re = .hget → act e 0 = true → ∃ p,
    let o := if req.mask.getLsbD 64 then 64 else 0
    t.out.answer = some ⟨1, req.line + o, p, ((Line.toBytes h.data).drop o).take 64⟩

/-- The class of a grant where the line goes to no replica (05 Table 05-6). -/
theorem replyClass_eq (e : Word) (re : Event) :
    (if (re == .ncr || re == .ncw) = true then 4 else if act e 1 = true then 1 else if act e 22 = true then 4
      else if false = true then 3 else if (act e 0 && (act e 14 && !(re == .ncr || re == .ncw))) = true then 2 else 0) =
    (if re = .ncr ∨ re = .ncw then 4 else if act e 1 then 1 else if act e 22 then 4
      else if act e 0 ∧ act e 14 then 2 else 0 : Nat) := by
  by_cases hu : re = .ncr ∨ re = .ncw
  · have hb : (re == .ncr || re == .ncw) = true := by simpa using hu
    rw [if_pos hb, if_pos hu]
  · have hb : (re == .ncr || re == .ncw) = false := by simpa using hu
    rw [hb, if_neg hu]
    simp

theorem homeReply_replies (s : State) (h : HomeLine) (d : Dir) (e : Word) (req : Msg) (re : Event) (accs : List Acc)
    (refused : Bool) : ∃ out, Replies s (homeReply s h d e req re accs refused) h d e req re out := by
  have hnone : s = { s with net := s.net ++ [], out := { s.out with answer := s.out.answer } } := by rw [List.append_nil]
  unfold homeReply
  dsimp only
  by_cases hown : (re == .recall || re == .ue) = true
  · rw [if_pos hown]
    refine ⟨[], hnone, fun _ h => (nomatch h), fun h1 h2 => ?_, ?_⟩
    · simp [h1, h2] at hown
    · rintro rfl; simp at hown
  rw [if_neg hown]
  by_cases hget : (re == .hget) = true
  · have hre : re = .hget := by simpa using hget
    rw [if_pos hget]
    by_cases h0 : act e 0 = true
    · rw [if_pos h0]
      refine ⟨[], ?_, fun _ h => (nomatch h), fun _ _ h3 => absurd hre h3, fun _ _ => ⟨_, rfl⟩⟩
      rw [List.append_nil]; rfl
    · rw [if_neg h0]
      exact ⟨[], hnone, fun _ h => (nomatch h), fun _ _ h3 => absurd hre h3, fun _ h => absurd h h0⟩
  have hre : re ≠ .hget := by simpa using hget
  rw [if_neg hget]
  have hrepl : (act e 21 && !(re == .ncr || re == .ncw) && s.lineRepl req.line && (s.rangeOf req.line).isSome) = true ↔
      act e 21 = true ∧ ¬ (re = .ncr ∨ re = .ncw) ∧ s.lineRepl req.line = true ∧ s.rangeOf req.line ≠ none := by
    simp [Option.isSome_iff_ne_none, and_assoc]
  split
  next hfar =>
    refine ⟨_, rfl, fun x hx => ?_, fun _ _ _ hno => ?_, fun h => absurd h hre⟩
    · rw [List.mem_singleton.mp hx]; rfl
    · exact absurd (hrepl.mp (Bool.and_eq_true _ _ ▸ hfar).1) hno
  next hfar =>
  have hwant : (act e 0 || act e 1 || act e 21 || act e 22) = true ↔
      act e 0 = true ∨ act e 1 = true ∨ act e 21 = true ∨ act e 22 = true := by simp [or_assoc]
  split
  next hw =>
    refine ⟨_, rfl, fun x hx => ?_, fun _ _ _ hno => ⟨fun _ => ?_, fun h0 h1 h21 h22 => ?_⟩, fun h => absurd h hre⟩
    · rw [List.mem_singleton.mp hx]; split <;> rfl
    · have hr : (act e 21 && !(re == .ncr || re == .ncw) && s.lineRepl req.line && (s.rangeOf req.line).isSome) = false :=
        Bool.eq_false_iff.mpr fun h => hno (hrepl.mp h)
      have hcls := replyClass_eq e re
      rw [← hr] at hcls
      by_cases hg : (re == .getu && d.records req.peer) = true
      · rw [if_pos hg]
        refine ⟨_, List.mem_singleton_self _, rfl, rfl, rfl, rfl, rfl, rfl, hcls, fun h => ?_⟩
        simp only [Bool.and_eq_true, beq_iff_eq] at hg
        rcases h with h | h
        · exact absurd hg.1 h
        · exact absurd hg.2 (Bool.eq_false_iff.mp h)
      · rw [if_neg hg]
        exact ⟨_, List.mem_singleton_self _, rfl, rfl, rfl, rfl, rfl, rfl, hcls, fun _ => rfl⟩
    · simp [h0, h1, h21, h22] at hw
  next hw =>
    exact ⟨[], hnone, fun _ h => (nomatch h), fun _ _ _ _ => ⟨fun h => absurd (hwant.mpr h) hw, fun _ _ _ _ _ h => (nomatch h)⟩,
      fun h => absurd h hre⟩

end Sys2Proof.Machine
end

section
/-!
The whole of an entry (05 R122): `performEntry` and `applyEntry` in terms of their steps.
-/
namespace Sys2Proof.Machine

open Sys2Proof.Safety

/-! ### Steps 5 to 8 -/

/-- Step 5: the reply, h being the home copy after step 4. -/
def State.entryTold (s : State) (e : Word) (re : Event) (req : Msg) (d : Dir) (p : HomeLine × List Acc × Bool) : State :=
  if act e 13 then nackReply s e re req else homeReply s p.1 d e req re p.2.1 p.2.2

/-- Steps 6 and 7: the records, n messages having been counted. -/
def entryDir (e : Word) (re : Event) (peer n : Nat) (d : Dir) : Dir :=
  entryRecords e re peer (if act e 5 then { d with acks := n } else d)

/-- The event that an entry raises. -/
def State.entryEvent (s : State) (ev : Event) (e : Word) (m : Msg) (st : Nat) : State :=
  if ev == .ue then s.lineEvent 0x01 ev m.part m.line m.cls
  else if act e 23 then s.lineEvent 0x03 ev m.part m.line st else s

theorem entryEvent_fillOnly (s : State) (ev : Event) (e : Word) (m : Msg) (st line : Nat) :
    FillOnly s (s.entryEvent ev e m st) line := by
  unfold State.entryEvent
  split
  · exact event_fillOnly ..
  · split
    · exact event_fillOnly ..
    · exact .refl ..

/-- The transaction of the line after step 8. -/
def entryTxn (stays : Bool) (ev : Event) (m req : Msg) (tag : Nat) (txn : Option (Msg × Nat)) : Option (Msg × Nat) :=
  putmMark ev m (if !stays then none else if ev.isRequest then some (req, tag) else txn)

/-- The lease that an entry leaves. -/
def State.entryLease (s : State) (e : Word) (re : Event) (line : Nat) (h : HomeLine) : Option Nat :=
  if act e 14 && re != .ncr && re != .ncw then some (max (h.lease.getD 0) (s.ns + s.lineLease line)) else h.lease

/-- The home's entry after step 8: k its copy after step 4, d its records after step 7. -/
def entryHome (img : Image) (e : Word) (ev : Event) (m req : Msg) (tag : Nat) (k : HomeLine) (lease : Option Nat) (d : Dir)
    (clk : Nat) : HomeLine :=
  let nxt := img.nextState e d
  { k with lease := lease, poison := k.poison || act e 20, dir := Dir.pack { d with state := nxt },
           txn := entryTxn (img.inTransient nxt) ev m req tag k.txn,
           queue := if nxt != d.state then [] else k.queue, used := clk,
           ueData := if !img.inTransient nxt then none else k.ueData, ueWait := if !img.inTransient nxt then [] else k.ueWait }

/-- What was kept waiting and is looked up again. -/
def entryAgain (img : Image) (nxt st : Nat) (k : HomeLine) : List Msg :=
  (if !img.inTransient nxt then k.ueWait else []) ++ if nxt != st then k.queue else []

theorem performEntry_eq (s : State) (img : Image) (e : Word) (ev re : Event) (m req : Msg) (tag : Nat) (h : HomeLine) (d : Dir) :
    performEntry s img e ev re m req tag h d =
      (let n := (s.entrySent ev re e d m req tag).length
       let r := (s.entryTagged img ev re e d m req tag).entryRead e m req.vi h
       let p := entryPerform e re req r.2
       let d' := entryDir e re req.peer n d
       let w := (r.1.entryTold e re req d p).entryEvent ev e m d'.state
       let nxt := img.nextState e d'
       ({ w.setHome m.part m.line (entryHome img e ev m req tag p.1 (r.1.entryLease e re m.line p.1) d' w.clk) with
          net := entryAgain img nxt d'.state p.1 ++ w.net }, n)) := by
  have htag : (if act e 5 || (ev.isRequest && img.inTransient (e.toNat % 16)) then
      { s with net := s.net ++ s.entrySent ev re e d m req tag, tag := s.tag + 1 }
      else { s with net := s.net ++ s.entrySent ev re e d m req tag }) = s.entryTagged img ev re e d m req tag := by
    unfold State.entryTagged
    split <;> rfl
  have hpair : ∀ (b : Bool) (q : List Msg), (if b then (q, []) else ([], q)) = (if b then q else [], if b then [] else q) :=
    fun b q => by cases b <;> rfl
  unfold performEntry
  rw [entrySends_eq]
  dsimp only
  rw [htag, hpair]
  rfl

/-- What a reply leaves: messages that are no invalidation, update, forward or snoop, and perhaps the host's answer. -/
theorem entryTold_spec (s : State) (e : Word) (re : Event) (req : Msg) (d : Dir) (p : HomeLine × List Acc × Bool) :
    ∃ out, s.entryTold e re req d p =
        { s with net := s.net ++ out, out := { s.out with answer := (s.entryTold e re req d p).out.answer } } ∧
      (∀ x ∈ out, Counted x = false) ∧ (act e 13 = true → out = nackSent s e re req) ∧
      (act e 13 = false → Replies s (s.entryTold e re req d p) p.1 d e req re out) := by
  unfold State.entryTold
  cases hn : act e 13 with
  | true =>
    refine ⟨nackSent s e re req, ?_, fun x hx => ?_, fun _ => rfl, fun h => absurd h (by decide)⟩
    · rw [if_pos rfl, nackReply_eq]
    · unfold nackSent at hx
      dsimp only at hx
      split at hx
      · rw [List.mem_singleton.mp hx]; rfl
      · cases hx
  | false =>
    obtain ⟨out, hout⟩ := homeReply_replies s p.1 d e req re p.2.1 p.2.2
    exact ⟨out, hout.rest, hout.kinds, fun h => absurd h (by decide), fun _ => hout⟩

theorem entryTold_homeOnly (s : State) (e : Word) (re : Event) (req : Msg) (d : Dir) (p : HomeLine × List Acc × Bool)
    (part line : Nat) : HomeOnly s (s.entryTold e re req d p) part line := by
  obtain ⟨out, hrest, -⟩ := entryTold_spec s e re req d p
  rw [hrest]
  exact ⟨rfl, fun _ _ => rfl, fun _ => rfl⟩

theorem entryTagged_homeOnly (s : State) (img : Image) (ev re : Event) (e : Word) (d : Dir) (m req : Msg) (tag part line : Nat) :
    HomeOnly s (s.entryTagged img ev re e d m req tag) part line := ⟨rfl, fun _ _ => rfl, fun _ => rfl⟩

section served
variable (s : State) (img : Image) (e : Word) (ev re : Event) (m req : Msg) (tag : Nat) (h : HomeLine) (d : Dir)

/-- The machine after an entry's reply and event: all but the line's own entry and the events it kept waiting. -/
theorem entryServed_homeOnly (p : HomeLine × List Acc × Bool) (st : Nat) : HomeOnly s
    (((((s.entryTagged img ev re e d m req tag).entryRead e m req.vi h).1.entryTold e re req d p).entryEvent ev e m st))
      m.part m.line :=
  ((entryTagged_homeOnly ..).trans ((entryRead_fillOnly ..).homeOnly _)).trans
    ((entryTold_homeOnly ..).trans ((entryEvent_fillOnly ..).homeOnly _))

theorem performEntry_homeOnly : HomeOnly s (performEntry s img e ev re m req tag h d).1 m.part m.line := by
  rw [performEntry_eq]
  exact (entryServed_homeOnly ..).trans ((setHome_homeOnly ..).trans (net_homeOnly ..))

end served

/-! ### Looking an event up (05 R122) -/

/-- The request that an event looked up at a line serves, with the tag of its transaction. -/
def State.served (s : State) (ev : Event) (m : Msg) : Msg × Nat :=
  if ev.isRequest then (m, s.tag) else (s.home m.part m.line).txn.getD (m, s.tag)

/-- An entry that only counts an ack. -/
def State.entryCounts (s : State) (ev : Event) (e : Word) (m : Msg) (h : HomeLine) (d : Dir) : State :=
  (s.entryWrite e m h).1.setHome m.part m.line
    { (s.entryWrite e m h).2 with dir := (entrySeen ev e d).pack, txn := putmMark ev m (s.entryWrite e m h).2.txn }

/-- An entry that acts, on the home copy after step 1 and the records after step 2. -/
def State.entryActs (s : State) (img : Image) (ev : Event) (e : Word) (m : Msg) (h : HomeLine) (d : Dir) : State × Nat :=
  performEntry (s.entryWrite e m h).1 img e ev (requestEvent (s.served ev m).1 ev) m (s.served ev m).1 (s.served ev m).2
    (s.entryWrite e m h).2 (entrySeen ev e d)

/-- The ACK that follows where SET_ACKS counts none. -/
def ackOf (m : Msg) (peer tag : Nat) : Msg := { Msg.blank (.home .ack) m.part m.line peer with tag := tag, vi := m.vi }

theorem applyEntry_succ (fuel : Nat) (s : State) (ev : Event) (m : Msg) : applyEntry (fuel + 1) s ev m =
    (let img := s.imageOf m.line
     let h := s.home m.part m.line
     let d := Dir.ofBits h.dir
     let e := img.entry d.state ev
     if !img.defined d.state ev then undefinedEntry s ev m d.state
     else if act e 12 then s.setHome m.part m.line { h with queue := h.queue ++ [m] }
     else if act e 6 && (entrySeen ev e d).acks != 0 then s.entryCounts ev e m h d
     else if act e 5 && (s.entryActs img ev e m h d).2 == 0 then
       applyEntry fuel (s.entryActs img ev e m h d).1 .ack (ackOf m (s.served ev m).1.peer (s.served ev m).2)
     else (s.entryActs img ev e m h d).1) := by
  have hseen : ∀ (e : Word) (d : Dir), (if act e 6 then
      { (if ev == .hsnp && act e 19 then { d with h := false } else d) with
        acks := (if ev == .hsnp && act e 19 then { d with h := false } else d).acks - 1 }
      else if ev == .hsnp && act e 19 then { d with h := false } else d) = entrySeen ev e d := by
    intro e d
    unfold entrySeen
    cases act e 6 <;> cases (ev == .hsnp && act e 19) <;> simp
  rw [applyEntry]
  dsimp only
  rw [hseen]
  rfl

end Sys2Proof.Machine
end

section
/-!
A lookup at a home leaves everything but its line alone, whatever its entry does (05 R122, R124, R125, R137).
-/
namespace Sys2Proof.Machine

open Sys2Proof.Safety

theorem entryCounts_homeOnly (s : State) (ev : Event) (e : Word) (m : Msg) (h : HomeLine) (d : Dir) :
    HomeOnly s (s.entryCounts ev e m h d) m.part m.line :=
  ((entryWrite_fillOnly s e m h).homeOnly _).trans (setHome_homeOnly ..)

theorem entryActs_homeOnly (s : State) (img : Image) (ev : Event) (e : Word) (m : Msg) (h : HomeLine) (d : Dir) :
    HomeOnly s (s.entryActs img ev e m h d).1 m.part m.line :=
  ((entryWrite_fillOnly s e m h).homeOnly _).trans (performEntry_homeOnly ..)

theorem applyEntry_homeOnly (fuel : Nat) (s : State) (ev : Event) (m : Msg) :
    HomeOnly s (applyEntry fuel s ev m) m.part m.line := by
  induction fuel generalizing s ev m with
  | zero => exact .refl ..
  | succ n ih =>
    rw [applyEntry_succ]
    dsimp only
    split
    · exact undefinedEntry_homeOnly ..
    split
    · exact setHome_homeOnly ..
    split
    · exact entryCounts_homeOnly ..
    split
    · exact (entryActs_homeOnly ..).trans (ih _ _ (ackOf m _ _))
    · exact entryActs_homeOnly ..

/-- A message with its poison marked, or as it was. -/
theorem countData_spec (s : State) (ev : Event) (m : Msg) : HomeOnly s (s.countData ev m).1 m.part m.line ∧
    (s.countData ev m).2.part = m.part ∧ (s.countData ev m).2.line = m.line := by
  have hset := fun h => setHome_homeOnly s m.part m.line h
  unfold State.countData
  dsimp only
  split
  · exact ⟨.refl .., rfl, rfl⟩
  split
  · exact ⟨.refl .., rfl, rfl⟩
  split
  · exact ⟨hset _, rfl, rfl⟩
  · exact ⟨(hset _).trans (event_homeOnly ..), rfl, rfl⟩

theorem soundLookup_homeOnly (s : State) (ev : Event) (m : Msg) : HomeOnly s (soundLookup s ev m) m.part m.line := by
  unfold soundLookup
  dsimp only
  split
  · split
    · exact .refl ..
    · exact (setHome_homeOnly s m.part m.line _).trans (applyEntry_homeOnly ..)
  · exact applyEntry_homeOnly ..

theorem ite_homeOnly {s t u : State} {part line : Nat} (b : Bool) (h : HomeOnly s t part line) (k : HomeOnly s u part line) :
    HomeOnly s (if b then t else u) part line := by
  cases b
  · exact k
  · exact h

theorem rebuildEntry_homeOnly (s : State) (w : DWord) (m : Msg) : HomeOnly s (rebuildEntry s w m) m.part m.line := by
  unfold rebuildEntry
  dsimp only
  have hue := fun (u : State) (st : Nat) (h : HomeOnly s u m.part m.line) => h.trans (applyEntry_homeOnly 4 u .ue
    { Msg.blank (.home .ue) m.part m.line (u.homeAgent m.part m.line) with vi := m.vi, cls := st })
  exact hue _ _ ((setHome_homeOnly ..).trans (ite_homeOnly _ (event_homeOnly ..) (.refl ..)))

theorem corrected_homeOnly (s : State) (n part line : Nat) : HomeOnly s { s with corrected := n } part line :=
  ⟨rfl, fun _ _ => rfl, fun _ => rfl⟩

/-- A lookup: only the line's entry, the network and what goes with them. -/
theorem homeLookup_homeOnly (s : State) (ev : Event) (m : Msg) : HomeOnly s (homeLookup s ev m) m.part m.line := by
  have hsound : ∀ t, HomeOnly s t m.part m.line →
      HomeOnly s (soundLookup (t.countData ev m).1 ev (t.countData ev m).2) m.part m.line := by
    intro t ht
    obtain ⟨hc, hp, hl⟩ := countData_spec t ev m
    have h := soundLookup_homeOnly (t.countData ev m).1 ev (t.countData ev m).2
    rw [hp, hl] at h
    exact (ht.trans hc).trans h
  unfold homeLookup
  dsimp only
  split
  · exact .refl ..
  · split
    · exact rebuildEntry_homeOnly ..
    · exact hsound s (.refl ..)
    · exact hsound _ ((setHome_homeOnly s m.part m.line _).trans (corrected_homeOnly ..))

end Sys2Proof.Machine
end

section
/-!
What an entry that acts does (05 Table 05-6, R121 to R125, R134, R135): the records it leaves, the messages it sends to agents, the
home copy and the reply.
-/
namespace Sys2Proof.Machine

open Sys2Proof.Safety

/-! ### Records (05 R134, R135) -/

theorem mem_agents_coarse {a : Nat} {d : Dir} (hc : d.coarse = true) (ha : a < 72) :
    a ∈ d.agents ↔ d.vec.getLsbD (a / 3) = true := by
  simp [Dir.agents, hc, ha]

theorem getLsbD_group {a : Nat} (v : BitVec 24) (ha : a < 72) : (v ||| (1 : BitVec 24) <<< (a / 3)).getLsbD (a / 3) = true := by
  have h : a / 3 < 24 := by omega
  simp [h]

/-- A cluster that is added is recorded and O is cleared; the state, H and the acks stand. -/
theorem addReq_cluster {a : Nat} (d : Dir) (ha : a < 72) : a ∈ (d.addReq a).agents ∧
    d.addReq a = { d with coarse := (d.addReq a).coarse, o := false, ptrs := (d.addReq a).ptrs, vec := (d.addReq a).vec } := by
  rw [Dir.addReq, if_neg (Nat.not_le.mpr ha)]
  by_cases hc : d.coarse = true
  · rw [if_pos hc]
    exact ⟨(mem_agents_coarse (by exact hc) ha).mpr (getLsbD_group _ ha), rfl⟩
  rw [if_neg hc]
  have hnc : d.coarse = false := Bool.eq_false_iff.mpr hc
  by_cases hin : d.ptrs.contains a = true
  · rw [if_pos hin]
    exact ⟨by simpa [Dir.agents, hnc] using hin, rfl⟩
  rw [if_neg hin]
  by_cases h4 : d.ptrs.length < 4
  · rw [if_pos h4]
    exact ⟨by simp [Dir.agents, hnc], rfl⟩
  · rw [if_neg h4]
    refine ⟨(mem_agents_coarse rfl ha).mpr ?_, rfl⟩
    rw [getLsbD_foldl_or (fun p => (1 : BitVec 24) <<< (p / 3))]
    exact .inr ⟨a, List.mem_cons_self, by simpa using getLsbD_group 0 ha⟩

theorem addReq_other {a : Nat} (d : Dir) (ha : 72 ≤ a) : d.addReq a = d := if_pos ha

theorem setOwner_cluster {a : Nat} (d : Dir) (ha : a < 72) :
    d.setOwner a = { d with coarse := false, o := true, ptrs := [a], vec := 0 } := if_neg (Nat.not_le.mpr ha)

theorem setOwner_other {a : Nat} (d : Dir) (ha : 72 ≤ a) : d.setOwner a = d := if_pos ha

/-- Adding changes only who is recorded. -/
theorem addReq_rest (d : Dir) (a : Nat) : (d.addReq a).state = d.state ∧ (d.addReq a).h = d.h ∧ (d.addReq a).acks = d.acks := by
  by_cases ha : a < 72
  · rw [(addReq_cluster d ha).2]; exact ⟨rfl, rfl, rfl⟩
  · rw [addReq_other d (Nat.not_lt.mp ha)]; exact ⟨rfl, rfl, rfl⟩

@[simp] theorem addReq_state (d : Dir) (a : Nat) : (d.addReq a).state = d.state := (addReq_rest d a).1
@[simp] theorem addReq_h (d : Dir) (a : Nat) : (d.addReq a).h = d.h := (addReq_rest d a).2.1
@[simp] theorem addReq_acks (d : Dir) (a : Nat) : (d.addReq a).acks = d.acks := (addReq_rest d a).2.2
@[simp] theorem setOwner_state (d : Dir) (a : Nat) : (d.setOwner a).state = d.state := by unfold Dir.setOwner; split <;> rfl
@[simp] theorem setOwner_h (d : Dir) (a : Nat) : (d.setOwner a).h = d.h := by unfold Dir.setOwner; split <;> rfl
@[simp] theorem setOwner_acks (d : Dir) (a : Nat) : (d.setOwner a).acks = d.acks := by unfold Dir.setOwner; split <;> rfl

/-- The records that an entry leaves of d, for a request of `peer` (05 Table 05-6). -/
structure Recorded (e : Word) (re : Event) (peer : Nat) (d d' : Dir) : Prop where
  state : d'.state = d.state
  acks : d'.acks = d.acks
  hostHeld : d'.h = (act e 18 || (!act e 19 && d.h))
  owns : act e 8 = true → ¬ (re = .ncr ∨ re = .ncw) → peer < 72 → d'.coarse = false ∧ d'.o = true ∧ d'.ptrs = [peer]
  adds : act e 7 = true → act e 8 = false → ¬ (re = .ncr ∨ re = .ncw) → peer < 72 → d'.o = false ∧ peer ∈ d'.agents
  keeps : ((act e 7 = false ∧ act e 8 = false) ∨ (re = .ncr ∨ re = .ncw) ∨ 72 ≤ peer) →
    (act e 9 = true → d'.coarse = false ∧ d'.o = false ∧ d'.ptrs = []) ∧
    (act e 9 = false → d'.coarse = d.coarse ∧ d'.o = d.o ∧ d'.ptrs = d.ptrs ∧ d'.vec = d.vec)

/-- What stands after the records are cleared and H is, before the requester is recorded. -/
def dirCleared (e : Word) (d : Dir) : Dir :=
  let d := if act e 9 then d.clear else d
  if act e 19 then { d with h := false } else d

theorem dirCleared_rest (e : Word) (d : Dir) : (dirCleared e d).state = d.state ∧ (dirCleared e d).acks = d.acks ∧
    (dirCleared e d).h = (!act e 19 && d.h) := by
  unfold dirCleared
  cases act e 9 <;> cases act e 19 <;> exact ⟨rfl, rfl, rfl⟩

theorem dirCleared_records (e : Word) (d : Dir) :
    (act e 9 = true → (dirCleared e d).coarse = false ∧ (dirCleared e d).o = false ∧ (dirCleared e d).ptrs = []) ∧
    (act e 9 = false → (dirCleared e d).coarse = d.coarse ∧ (dirCleared e d).o = d.o ∧ (dirCleared e d).ptrs = d.ptrs ∧
      (dirCleared e d).vec = d.vec) := by
  unfold dirCleared
  cases act e 19 <;> exact ⟨fun h => by rw [h]; exact ⟨rfl, rfl, rfl⟩, fun h => by rw [h]; exact ⟨rfl, rfl, rfl, rfl⟩⟩

/-- ADD_REQ and SET_OWNER, where the transaction records its requester. -/
def dirRecorded (e : Word) (unc : Bool) (peer : Nat) (d : Dir) : Dir :=
  let d := if act e 7 && !unc then d.addReq peer else d
  if act e 8 && !unc then d.setOwner peer else d

theorem dirRecorded_rest (e : Word) (unc : Bool) (peer : Nat) (d : Dir) : (dirRecorded e unc peer d).state = d.state ∧
    (dirRecorded e unc peer d).acks = d.acks ∧ (dirRecorded e unc peer d).h = d.h := by
  unfold dirRecorded
  cases (act e 7 && !unc) <;> cases (act e 8 && !unc) <;> simp

theorem dirRecorded_none {e : Word} {unc : Bool} {peer : Nat} (d : Dir)
    (h : (act e 7 = false ∧ act e 8 = false) ∨ unc = true ∨ 72 ≤ peer) : dirRecorded e unc peer d = d := by
  unfold dirRecorded
  rcases h with ⟨h7, h8⟩ | hu | hp
  · simp [h7, h8]
  · simp [hu]
  · simp [addReq_other _ hp, setOwner_other _ hp]

theorem entryRecords_eq (e : Word) (re : Event) (peer : Nat) (d : Dir) : entryRecords e re peer d =
    { dirRecorded e (re == .ncr || re == .ncw) peer (dirCleared e d) with
      h := act e 18 || (dirRecorded e (re == .ncr || re == .ncw) peer (dirCleared e d)).h } := by
  unfold entryRecords
  dsimp only
  cases act e 18 <;> rfl

theorem entryRecords_recorded (e : Word) (re : Event) (peer : Nat) (d : Dir) : Recorded e re peer d (entryRecords e re peer d) := by
  obtain ⟨hst, hac, hh⟩ := dirCleared_rest e d
  obtain ⟨hst', hac', hh'⟩ := dirRecorded_rest e (re == .ncr || re == .ncw) peer (dirCleared e d)
  have hcoh : ¬ (re = .ncr ∨ re = .ncw) → (re == .ncr || re == .ncw) = false := fun h => by simpa using h
  rw [entryRecords_eq]
  refine ⟨hst'.trans hst, hac'.trans hac, by rw [← hh, ← hh'], fun h8 hu hp => ?_, fun h7 h8 hu hp => ?_, fun hno => ?_⟩
  · rw [hcoh hu, dirRecorded]
    simp only [h8, Bool.not_false, Bool.and_self, if_true, setOwner_cluster _ hp]
    exact ⟨trivial, trivial, trivial⟩
  · rw [hcoh hu, dirRecorded]
    simp only [h7, h8, Bool.not_false, Bool.and_self, Bool.false_and, if_true, Bool.false_eq_true, if_false]
    refine ⟨?_, (addReq_cluster _ hp).1⟩
    rw [(addReq_cluster _ hp).2]
  · have hnone : dirRecorded e (re == .ncr || re == .ncw) peer (dirCleared e d) = dirCleared e d :=
      dirRecorded_none _ (hno.imp_right fun h => h.imp_left fun hu => by simpa using hu)
    rw [hnone]
    exact dirCleared_records e d

end Sys2Proof.Machine
end

section
/-!
The home copy of a line through the steps of an entry (05 R122, steps 1 and 4).
-/
namespace Sys2Proof.Machine

open Sys2Proof.Safety

theorem FillOnly.net {s t : State} {line : Nat} (h : FillOnly s t line) : t.net = s.net := by rw [h.rest]

/-- What DRAM holds of a line does not depend on what a home's work changes. -/
theorem CopyIs.kept {s t : State} {part line : Nat} {h : HomeLine} {v : Line} {p : Bool} (hc : CopyIs s part line h v p)
    (k : HomeOnly s t part line) : CopyIs t part line h v p := by
  refine hc.imp id fun ⟨hh, c, hk, hv⟩ => ⟨hh, c, ?_, ?_⟩
  · rw [k.dpaKind, hk]
  · rw [k.cellLine, hv]

/-- The machine when READ_MEM is over, and the home copy then. -/
def State.entrySource (s : State) (img : Image) (ev re : Event) (e : Word) (m req : Msg) (tag : Nat) (h : HomeLine) (d : Dir) :
    State × HomeLine :=
  ((s.entryWrite e m h).1.entryTagged img ev re e (entrySeen ev e d) m req tag).entryRead e m req.vi (s.entryWrite e m h).2

section source
variable {s : State} {img : Image} {ev re : Event} {e : Word} {m req : Msg} {tag : Nat} {h : HomeLine} {d : Dir}

theorem entrySource_homeOnly : HomeOnly s (s.entrySource img ev re e m req tag h d).1 m.part m.line :=
  ((entryWrite_fillOnly s e m h).homeOnly _).trans ((entryTagged_homeOnly ..).trans ((entryRead_fillOnly ..).homeOnly _))

theorem entrySource_net : (s.entrySource img ev re e m req tag h d).1.net =
    s.net ++ s.entrySent ev re e (entrySeen ev e d) m req tag := by
  have hw := entryWrite_fillOnly s e m h
  rw [State.entrySource, (entryRead_fillOnly ..).net]
  show (s.entryWrite e m h).1.net ++ _ = _
  rw [hw.net]
  refine congrArg _ ?_
  simp only [State.entrySent, State.entrySnoops, (hw.homeOnly m.part).diesOf]

theorem entrySource_copyOnly : CopyOnly h (s.entrySource img ev re e m req tag h d).2 :=
  (entryWrite_copyOnly s e m h).trans (entryRead_copyOnly ..)

/-- An entry that neither writes nor reads leaves the copy. -/
theorem entrySource_idle (h10 : act e 10 = false) (h11 : act e 11 = false) (h16 : act e 16 = false) :
    (s.entrySource img ev re e m req tag h d).2 = h := by
  rw [State.entrySource, entryRead_none h11 h16, entryWrite_none m h h10]

/-- Reading after WRITE_MEM finds the copy at the home. -/
theorem entrySource_written (hw : (s.entryWrite e m h).2.here = true) : (s.entrySource img ev re e m req tag h d).2 =
      { (s.entryWrite e m h).2 with used := (s.entrySource img ev re e m req tag h d).2.used } ∧
    (s.entrySource img ev re e m req tag h d).1.mgmt = (s.entryWrite e m h).1.mgmt := by
  obtain ⟨h1, h2⟩ := entryRead_here (s := (s.entryWrite e m h).1.entryTagged img ev re e (entrySeen ev e d) m req tag)
    (e := e) (m := m) (vi := req.vi) hw
  exact ⟨h2, by rw [State.entrySource, h1]; rfl⟩

theorem entrySource_full (h10 : act e 10 = true) (hf : m.full = true) :
    (s.entrySource img ev re e m req tag h d).2.here = true ∧ (s.entrySource img ev re e m req tag h d).2.dirty = true ∧
      (s.entrySource img ev re e m req tag h d).2.data = m.data := by
  have hw := entryWrite_full (s := s) h h10 hf
  rw [(entrySource_written (by rw [hw])).1, hw]
  exact ⟨rfl, rfl, rfl⟩

variable {v : Line} {p : Bool} (hc : CopyIs s m.part m.line h v p)
include hc

theorem entrySource_merged (h10 : act e 10 = true) (hf : m.full = false) :
    Holds (s.entrySource img ev re e m req tag h d).2 (Line.merge v m.data m.mask) (p && !(m.mask == BitVec.allOnes 128)) ∧
      (s.entrySource img ev re e m req tag h d).2.dirty = true := by
  obtain ⟨hold, hd, -⟩ := entryWrite_merges hc h10 hf
  rw [(entrySource_written hold.here).1]
  exact ⟨⟨hold.here, hold.data, hold.poison⟩, hd⟩

theorem entrySource_read (h10 : act e 10 = false) (hr : act e 11 = true ∨ act e 16 = true) :
    Holds (s.entrySource img ev re e m req tag h d).2 v p := by
  rw [State.entrySource, entryWrite_none m h h10]
  exact (entryRead_holds (hc.kept (entryTagged_homeOnly ..))).1 hr

/-- A read of DRAM raises no event. -/
theorem entrySource_mgmt : (s.entrySource img ev re e m req tag h d).1.mgmt = s.mgmt := by
  cases h10 : act e 10 with
  | false =>
    rw [State.entrySource, entryWrite_none m h h10]
    exact (entryRead_holds (hc.kept (entryTagged_homeOnly ..))).2
  | true =>
    cases hf : m.full with
    | true =>
      have hw := entryWrite_full (s := s) h h10 hf
      rw [(entrySource_written (by rw [hw])).2, hw]
    | false =>
      obtain ⟨hold, -, hm⟩ := entryWrite_merges hc h10 hf
      rw [(entrySource_written hold.here).2, hm]

end source

/-! ### The end of an entry that acts -/

/-- How many messages SET_ACKS counts. -/
def State.entryCount (s : State) (ev re : Event) (e : Word) (m req : Msg) (tag : Nat) (d : Dir) : Nat :=
  (s.entrySent ev re e (entrySeen ev e d) m req tag).length

/-- The records after an entry. -/
def State.entryDirAfter (s : State) (ev re : Event) (e : Word) (m req : Msg) (tag : Nat) (d : Dir) : Dir :=
  entryDir e re req.peer (s.entryCount ev re e m req tag d) (entrySeen ev e d)

/-- The home copy after an entry, with the accesses it performed and whether poison refused them. -/
def State.entryCopy (s : State) (img : Image) (ev re : Event) (e : Word) (m req : Msg) (tag : Nat) (h : HomeLine) (d : Dir) :
    HomeLine × List Acc × Bool :=
  entryPerform e re req (s.entrySource img ev re e m req tag h d).2

/-- The machine once the reply is sent. -/
def State.entryReplied (s : State) (img : Image) (ev re : Event) (e : Word) (m req : Msg) (tag : Nat) (h : HomeLine) (d : Dir) :
    State :=
  (s.entrySource img ev re e m req tag h d).1.entryTold e re req (entrySeen ev e d) (s.entryCopy img ev re e m req tag h d)

section acts
variable (s : State) (img : Image) (ev : Event) (e : Word) (m : Msg) (h : HomeLine) (d : Dir)

theorem entryActs_eq : s.entryActs img ev e m h d =
    (let req := (s.served ev m).1
     let tag := (s.served ev m).2
     let re := requestEvent req ev
     let d' := s.entryDirAfter ev re e m req tag d
     let k := (s.entryCopy img ev re e m req tag h d).1
     let w := (s.entryReplied img ev re e m req tag h d).entryEvent ev e m d'.state
     ({ w.setHome m.part m.line (entryHome img e ev m req tag k
          ((s.entrySource img ev re e m req tag h d).1.entryLease e re m.line k) d' w.clk) with
        net := entryAgain img (img.nextState e d') d'.state k ++ w.net }, s.entryCount ev re e m req tag d)) := by
  have hsent : ∀ re req tag, (s.entryWrite e m h).1.entrySent ev re e (entrySeen ev e d) m req tag =
      s.entrySent ev re e (entrySeen ev e d) m req tag := fun re req tag => by
    simp only [State.entrySent, State.entrySnoops, ((entryWrite_fillOnly s e m h).homeOnly m.part).diesOf]
  rw [State.entryActs, performEntry_eq]
  dsimp only
  rw [hsent]
  rfl

end acts
end Sys2Proof.Machine
end

section
/-!
What an entry that acts leaves, field by field (05 R121 to R125, R134, R135).
-/
namespace Sys2Proof.Machine

open Sys2Proof.Safety

/-! ### The messages of an entry -/

/-- Among the messages to agents, those of one kind. -/
theorem mem_toAgents {b : Bool} {k : MsgKind} {part line tag : Nat} {f : Msg → Msg} {as : List Nat} {x : Msg}
    (h : x ∈ if b then as.map (Msg.toAgent k part line tag f) else []) :
    b = true ∧ ∃ a ∈ as, x = Msg.toAgent k part line tag f a := by
  cases b with
  | true => obtain ⟨a, ha, rfl⟩ := List.mem_map.mp h; exact ⟨rfl, a, ha, rfl⟩
  | false => cases h

theorem mem_toAgents_of {b : Bool} {k : MsgKind} {part line tag : Nat} {f : Msg → Msg} {as : List Nat} {a : Nat}
    (hb : b = true) (ha : a ∈ as) : Msg.toAgent k part line tag f a ∈ if b then as.map (Msg.toAgent k part line tag f) else [] := by
  rw [hb]
  exact List.mem_map_of_mem ha

section sent
variable {s : State} {ev re : Event} {e : Word} {d : Dir} {m req : Msg} {tag : Nat} {x : Msg}

theorem mem_entryInvs : x ∈ entryInvs ev e d m req tag ↔
    ∃ a, (act e 2 = true ∧ a ∈ d.agents ∧ (a ≠ req.peer ∨ ev = .ue)) ∧ x = Msg.toAgent .inv m.part m.line tag id a := by
  have hto : ∀ a, a ∈ (if ev == .ue then d.agents else d.agents.filter (· != req.peer)) ↔
      a ∈ d.agents ∧ (a ≠ req.peer ∨ ev = .ue) := by
    intro a
    by_cases hu : ev = .ue
    · simp [hu]
    · simp [hu]
  constructor
  · intro h
    obtain ⟨h2, a, ha, rfl⟩ := mem_toAgents h
    exact ⟨a, ⟨h2, (hto a).mp ha⟩, rfl⟩
  · rintro ⟨a, ⟨h2, ha⟩, rfl⟩
    exact mem_toAgents_of h2 ((hto a).mpr ha)

theorem mem_entryUpds : x ∈ entryUpds e d m req tag ↔ ∃ a, (act e 3 = true ∧ a ∈ d.agents ∧ a ≠ req.peer) ∧
    x = Msg.toAgent .upd m.part m.line tag (fun x => { x with data := m.data, mask := m.mask }) a := by
  constructor
  · intro h
    obtain ⟨h3, a, ha, rfl⟩ := mem_toAgents h
    exact ⟨a, ⟨h3, by simpa using ha⟩, rfl⟩
  · rintro ⟨a, ⟨h3, ha⟩, rfl⟩
    exact mem_toAgents_of h3 (by simpa using ha)

theorem mem_entryFwds : x ∈ entryFwds re e d m tag ↔ ∃ a, (act e 4 = true ∧ d.o = true ∧ d.ptrs.head? = some a) ∧
    x = Msg.toAgent (.fwd re) m.part m.line tag id a := by
  have hto : ∀ a, a ∈ d.ptrs.take 1 ↔ d.ptrs.head? = some a := by
    intro a
    cases d.ptrs with
    | nil => simp
    | cons p r => simp [eq_comm]
  constructor
  · intro h
    obtain ⟨h4, a, ha, rfl⟩ := mem_toAgents h
    obtain ⟨h4, ho⟩ := Bool.and_eq_true_iff.mp h4
    exact ⟨a, ⟨h4, ho, (hto a).mp ha⟩, rfl⟩
  · rintro ⟨a, ⟨h4, ho, ha⟩, rfl⟩
    exact mem_toAgents_of (Bool.and_eq_true_iff.mpr ⟨h4, ho⟩) ((hto a).mpr ha)

theorem mem_entrySnoops : x ∈ s.entrySnoops e d m tag ↔
    ∃ a, (act e 17 = true ∧ d.h = true ∧ ∃ p ∈ portsOf (s.diesOf m.part), a = 76 + p) ∧
      x = Msg.toAgent .bisnp m.part m.line tag id a := by
  constructor
  · intro h
    obtain ⟨h17, a, ha, rfl⟩ := mem_toAgents h
    obtain ⟨h17, hh⟩ := Bool.and_eq_true_iff.mp h17
    obtain ⟨p, hp, rfl⟩ := List.mem_map.mp ha
    exact ⟨_, ⟨h17, hh, p, hp, rfl⟩, rfl⟩
  · rintro ⟨a, ⟨h17, hh, p, hp, rfl⟩, rfl⟩
    exact mem_toAgents_of (Bool.and_eq_true_iff.mpr ⟨h17, hh⟩) (List.mem_map_of_mem hp)

theorem mem_entrySent : x ∈ s.entrySent ev re e d m req tag ↔ x ∈ entryInvs ev e d m req tag ∨ x ∈ entryUpds e d m req tag ∨
    x ∈ entryFwds re e d m tag ∨ x ∈ s.entrySnoops e d m tag := by
  simp [State.entrySent]

end sent

/-- The messages of one kind among some: they are one for each agent of P, built by f. -/
theorem sends_one {out : List Msg} {k : MsgKind} {P : Nat → Prop} {part line tag : Nat} {f : Msg → Msg}
    (hf : ∀ a, (Msg.toAgent k part line tag f a).kind = k ∧ (Msg.toAgent k part line tag f a).peer = a ∧
      (Msg.toAgent k part line tag f a).part = part ∧ (Msg.toAgent k part line tag f a).line = line ∧
      (Msg.toAgent k part line tag f a).tag = tag)
    (h : ∀ x, (x ∈ out ∧ x.kind = k) ↔ ∃ a, P a ∧ x = Msg.toAgent k part line tag f a) :
    (∀ a, (∃ x ∈ out, x.kind = k ∧ x.peer = a) ↔ P a) ∧
      (∀ x ∈ out, x.kind = k → x.part = part ∧ x.line = line ∧ x.tag = tag) := by
  refine ⟨fun a => ⟨?_, fun ha => ?_⟩, fun x hx hk => ?_⟩
  · rintro ⟨x, hx, hk, rfl⟩
    obtain ⟨a, ha, rfl⟩ := (h x).mp ⟨hx, hk⟩
    rwa [(hf a).2.1]
  · obtain ⟨hx, hk⟩ := (h _).mpr ⟨a, ha, rfl⟩
    exact ⟨_, hx, hk, (hf a).2.1⟩
  · obtain ⟨a, -, rfl⟩ := (h x).mp ⟨hx, hk⟩
    exact (hf a).2.2

section sends
variable {s : State} {ev re : Event} {e : Word} {d : Dir} {m req : Msg} {tag : Nat} {rep : List Msg}
variable (hrep : ∀ x ∈ rep, Counted x = false)
include hrep

/-- The reply is none of the messages to agents. -/
theorem mem_sent_reply {k : MsgKind} {x : Msg} (hk : ∀ y : Msg, y.kind = k → Counted y = true) :
    (x ∈ s.entrySent ev re e d m req tag ++ rep ∧ x.kind = k) ↔ (x ∈ s.entrySent ev re e d m req tag ∧ x.kind = k) := by
  rw [List.mem_append]
  refine and_congr_left fun hx => or_iff_left fun h => ?_
  exact absurd (hk x hx) (by rw [hrep x h]; exact Bool.false_ne_true)

theorem sent_inv (x : Msg) : (x ∈ s.entrySent ev re e d m req tag ++ rep ∧ x.kind = .inv) ↔
    ∃ a, (act e 2 = true ∧ a ∈ d.agents ∧ (a ≠ req.peer ∨ ev = .ue)) ∧ x = Msg.toAgent .inv m.part m.line tag id a := by
  rw [mem_sent_reply hrep fun y hy => by simp [Counted, hy], mem_entrySent, ← mem_entryInvs]
  constructor
  · rintro ⟨h | h | h | h, hk⟩
    · exact h
    · obtain ⟨a, -, rfl⟩ := mem_entryUpds.mp h; cases hk
    · obtain ⟨a, -, rfl⟩ := mem_entryFwds.mp h; cases hk
    · obtain ⟨a, -, rfl⟩ := mem_entrySnoops.mp h; cases hk
  · intro h
    obtain ⟨a, -, ha⟩ := mem_entryInvs.mp h
    exact ⟨.inl h, by rw [ha]; rfl⟩

theorem sent_upd (x : Msg) : (x ∈ s.entrySent ev re e d m req tag ++ rep ∧ x.kind = .upd) ↔
    ∃ a, (act e 3 = true ∧ a ∈ d.agents ∧ a ≠ req.peer) ∧
      x = Msg.toAgent .upd m.part m.line tag (fun x => { x with data := m.data, mask := m.mask }) a := by
  rw [mem_sent_reply hrep fun y hy => by simp [Counted, hy], mem_entrySent, ← mem_entryUpds]
  constructor
  · rintro ⟨h | h | h | h, hk⟩
    · obtain ⟨a, -, rfl⟩ := mem_entryInvs.mp h; cases hk
    · exact h
    · obtain ⟨a, -, rfl⟩ := mem_entryFwds.mp h; cases hk
    · obtain ⟨a, -, rfl⟩ := mem_entrySnoops.mp h; cases hk
  · intro h
    obtain ⟨a, -, ha⟩ := mem_entryUpds.mp h
    exact ⟨.inr (.inl h), by rw [ha]; rfl⟩

theorem sent_fwd (x : Msg) : (x ∈ s.entrySent ev re e d m req tag ++ rep ∧ x.kind = .fwd re) ↔
    ∃ a, (act e 4 = true ∧ d.o = true ∧ d.ptrs.head? = some a) ∧ x = Msg.toAgent (.fwd re) m.part m.line tag id a := by
  rw [mem_sent_reply hrep fun y hy => by simp [Counted, hy], mem_entrySent, ← mem_entryFwds]
  constructor
  · rintro ⟨h | h | h | h, hk⟩
    · obtain ⟨a, -, rfl⟩ := mem_entryInvs.mp h; cases hk
    · obtain ⟨a, -, rfl⟩ := mem_entryUpds.mp h; cases hk
    · exact h
    · obtain ⟨a, -, rfl⟩ := mem_entrySnoops.mp h; cases hk
  · intro h
    obtain ⟨a, -, ha⟩ := mem_entryFwds.mp h
    exact ⟨.inr (.inr (.inl h)), by rw [ha]; rfl⟩

theorem sent_bisnp (x : Msg) : (x ∈ s.entrySent ev re e d m req tag ++ rep ∧ x.kind = .bisnp) ↔
    ∃ a, (act e 17 = true ∧ d.h = true ∧ ∃ p ∈ portsOf (s.diesOf m.part), a = 76 + p) ∧
      x = Msg.toAgent .bisnp m.part m.line tag id a := by
  rw [mem_sent_reply hrep fun y hy => by simp [Counted, hy], mem_entrySent, ← mem_entrySnoops]
  constructor
  · rintro ⟨h | h | h | h, hk⟩
    · obtain ⟨a, -, rfl⟩ := mem_entryInvs.mp h; cases hk
    · obtain ⟨a, -, rfl⟩ := mem_entryUpds.mp h; cases hk
    · obtain ⟨a, -, rfl⟩ := mem_entryFwds.mp h; cases hk
    · exact h
  · intro h
    obtain ⟨a, -, ha⟩ := mem_entrySnoops.mp h
    exact ⟨.inr (.inr (.inr h)), by rw [ha]; rfl⟩

end sends

theorem filter_counted {sent rep : List Msg} (hs : ∀ x ∈ sent, Counted x = true) (hr : ∀ x ∈ rep, Counted x = false) :
    (sent ++ rep).filter Counted = sent := by
  rw [List.filter_append, List.filter_eq_self.mpr hs, List.filter_eq_nil_iff.mpr fun x hx => by simp [hr x hx], List.append_nil]

end Sys2Proof.Machine
end

section
/-!
An entry that acts does what Table 05-6 says of it (05 R121 to R125, R134, R135).
-/
namespace Sys2Proof.Machine

open Sys2Proof.Safety

/-- The machine after an entry that acts, for the request req with the tag. -/
def State.entryDone (s : State) (img : Image) (ev re : Event) (e : Word) (m req : Msg) (tag : Nat) (h : HomeLine) (d : Dir) :
    State :=
  let d' := s.entryDirAfter ev re e m req tag d
  let k := (s.entryCopy img ev re e m req tag h d).1
  let w := (s.entryReplied img ev re e m req tag h d).entryEvent ev e m d'.state
  { w.setHome m.part m.line (entryHome img e ev m req tag k
      ((s.entrySource img ev re e m req tag h d).1.entryLease e re m.line k) d' w.clk) with
    net := entryAgain img (img.nextState e d') d'.state k ++ w.net }

theorem entryActs_done (s : State) (img : Image) (ev : Event) (e : Word) (m : Msg) (h : HomeLine) (d : Dir) :
    s.entryActs img ev e m h d =
      (s.entryDone img ev (requestEvent (s.served ev m).1 ev) e m (s.served ev m).1 (s.served ev m).2 h d,
        s.entryCount ev (requestEvent (s.served ev m).1 ev) e m (s.served ev m).1 (s.served ev m).2 d) :=
  entryActs_eq s img ev e m h d

theorem putmMark_eq (ev : Event) (m : Msg) (txn : Option (Msg × Nat)) : putmMark ev m txn = putmTxn ev m txn := by
  unfold putmMark putmTxn
  simp only [beq_iff_eq]

section done
variable {s : State} {img : Image} {ev re : Event} {e : Word} {m req : Msg} {tag : Nat} {h : HomeLine} {d : Dir}

theorem entryDone_home : (s.entryDone img ev re e m req tag h d).home m.part m.line =
    entryHome img e ev m req tag (s.entryCopy img ev re e m req tag h d).1
      ((s.entrySource img ev re e m req tag h d).1.entryLease e re m.line (s.entryCopy img ev re e m req tag h d).1)
      (s.entryDirAfter ev re e m req tag d)
      ((s.entryReplied img ev re e m req tag h d).entryEvent ev e m (s.entryDirAfter ev re e m req tag d).state).clk :=
  Table.get_put_same ..

theorem entryCopy_copyOnly : CopyOnly h (s.entryCopy img ev re e m req tag h d).1 :=
  entrySource_copyOnly.trans (entryPerform_copyOnly ..)

/-- The records after an entry: those of the request, and what SET_ACKS or COUNT_ACK leave of the acks. -/
theorem entryDirAfter_recorded (hn : s.entryCount ev re e m req tag d = n) :
    Recorded e re req.peer { entrySeen ev e d with acks := if act e 5 then n else (entrySeen ev e d).acks }
      (s.entryDirAfter ev re e m req tag d) := by
  have h := entryRecords_recorded e re req.peer (if act e 5 then { entrySeen ev e d with acks := n } else entrySeen ev e d)
  rw [State.entryDirAfter, entryDir, hn]
  cases h5 : act e 5
  · rw [h5] at h; exact h
  · rw [h5] at h; exact h

/-! ### The home copy -/

/-- The copy part of an entry: what the home holds after it. -/
theorem entryCopy_written (h10 : act e 10 = true) (hf : m.full = true) (h16 : act e 16 = false) :
    (s.entryCopy img ev re e m req tag h d).1.here = true ∧ (s.entryCopy img ev re e m req tag h d).1.dirty = true ∧
      (s.entryCopy img ev re e m req tag h d).1.data = m.data := by
  rw [State.entryCopy, entryPerform_none _ _ _ h16]
  exact entrySource_full h10 hf

theorem entryCopy_idle (h10 : act e 10 = false) (h11 : act e 11 = false) (h16 : act e 16 = false) :
    (s.entryCopy img ev re e m req tag h d).1 = h := by
  rw [State.entryCopy, entryPerform_none _ _ _ h16, entrySource_idle h10 h11 h16]

section latest
variable {v : Line} {p : Bool} (hc : CopyIs s m.part m.line h v p)
include hc

theorem entryCopy_merged (h10 : act e 10 = true) (hf : m.full = false) (h16 : act e 16 = false) :
    Holds (s.entryCopy img ev re e m req tag h d).1 (Line.merge v m.data m.mask) (p && !(m.mask == BitVec.allOnes 128)) ∧
      (s.entryCopy img ev re e m req tag h d).1.dirty = true := by
  rw [State.entryCopy, entryPerform_none _ _ _ h16]
  exact entrySource_merged hc h10 hf

theorem entryCopy_read (h10 : act e 10 = false) (h16 : act e 16 = false) (h11 : act e 11 = true) :
    Holds (s.entryCopy img ev re e m req tag h d).1 v p := by
  rw [State.entryCopy, entryPerform_none _ _ _ h16]
  exact entrySource_read hc h10 (.inl h11)

theorem entryCopy_performed (h10 : act e 10 = false) (h16 : act e 16 = true) :
    let k := (s.entryCopy img ev re e m req tag h d).1
    k.here = true ∧ (p = true → ¬ (re = .ncw ∧ req.mask = BitVec.allOnes 128) → k.data = v) ∧
      (p = false → re ≠ .ncw → ∀ op, req.mop = some op → k.dirty = true ∧ k.data = (performAccs op v req.accs).1) ∧
      (p = false ∨ req.mask = BitVec.allOnes 128 → re = .ncw → k.dirty = true ∧ k.data = Line.merge v req.data req.mask) := by
  obtain ⟨here, data, poison⟩ := entrySource_read (img := img) (ev := ev) (re := re) (req := req) (tag := tag) (d := d) hc h10
    (.inr h16)
  unfold State.entryCopy
  refine ⟨(entryPerform_here ..).trans here, fun hp hw => ?_, fun hp hre op hop => ?_, fun hp hre => ?_⟩
  · rw [entryPerform_refused (poison.trans hp) hw, data]
  · obtain ⟨hd, hv, -⟩ := entryPerform_atom (e := e) (req := req) h16 (poison.trans hp) hre hop
    exact ⟨hd, by rw [hv, data]⟩
  · subst hre
    obtain ⟨hd, hv⟩ := entryPerform_write (e := e) (req := req) h16 (by rwa [poison])
    exact ⟨hd, by rw [hv, data]⟩

end latest

/-- The events that are posted before an entry's own are kept. -/
theorem entryEvent_evWait {u : State} (hu : HomeOnly s u m.part m.line) (hw : u.mgmt.evWait = s.mgmt.evWait) (hev : ev ≠ .ue)
    (st : Nat) : (u.entryEvent ev e m st).mgmt.evWait =
      if act e 23 then (s.lineEvent 3 ev m.part m.line st).mgmt.evWait else s.mgmt.evWait := by
  have hue : (ev == .ue) = false := by simpa using hev
  unfold State.entryEvent
  rw [hue, if_neg Bool.false_ne_true]
  split
  · simp only [State.lineEvent, State.event, hw, hu.homeSlice, hu.imageSlot, hu.ns]
  · exact hw

end done
end Sys2Proof.Machine
end

section
/-!
`EntryActs` holds of every entry that acts.
-/
namespace Sys2Proof.Machine

open Sys2Proof.Safety

section done
variable {s : State} {img : Image} {ev re : Event} {e : Word} {m req : Msg} {tag : Nat} {h : HomeLine} {d : Dir} {rep : List Msg}

theorem entryReplied_homeOnly : HomeOnly s (s.entryReplied img ev re e m req tag h d) m.part m.line :=
  entrySource_homeOnly.trans (entryTold_homeOnly ..)

theorem entryDone_homeOnly : HomeOnly s (s.entryDone img ev re e m req tag h d) m.part m.line :=
  (entryReplied_homeOnly.trans ((entryEvent_fillOnly ..).homeOnly _)).trans ((setHome_homeOnly ..).trans (net_homeOnly ..))

/-- What a reply leaves of the machine once the copy is read: `rep` is what it sends. -/
def RepliesOnly (s : State) (img : Image) (ev re : Event) (e : Word) (m req : Msg) (tag : Nat) (h : HomeLine) (d : Dir)
    (rep : List Msg) : Prop :=
  s.entryReplied img ev re e m req tag h d =
    { (s.entrySource img ev re e m req tag h d).1 with
      net := (s.entrySource img ev re e m req tag h d).1.net ++ rep,
      out := { (s.entrySource img ev re e m req tag h d).1.out with
        answer := (s.entryReplied img ev re e m req tag h d).out.answer } }

theorem entryDone_net (hr : RepliesOnly s img ev re e m req tag h d rep) :
    let nxt := img.nextState e (s.entryDirAfter ev re e m req tag d)
    (s.entryDone img ev re e m req tag h d).net = (if img.inTransient nxt then [] else h.ueWait) ++
      (if nxt = d.state then [] else h.queue) ++ s.net ++ (s.entrySent ev re e (entrySeen ev e d) m req tag ++ rep) := by
  have hcopy : CopyOnly h (s.entryCopy img ev re e m req tag h d).1 := entryCopy_copyOnly
  have hst := (entryDirAfter_recorded (s := s) (ev := ev) (re := re) (e := e) (m := m) (req := req) (tag := tag) (d := d) rfl).state
  have hw : ∀ st, ((s.entryReplied img ev re e m req tag h d).entryEvent ev e m st).net =
      s.net ++ s.entrySent ev re e (entrySeen ev e d) m req tag ++ rep := fun st => by
    rw [(entryEvent_fillOnly _ _ _ _ _ m.line).net, hr, ← entrySource_net (img := img) (h := h)]
  intro nxt
  show entryAgain img nxt _ _ ++ _ = _
  rw [hw, entryAgain, hst, hcopy, List.append_assoc, List.append_assoc, List.append_assoc, List.append_assoc]
  show _ ++ ((if nxt != d.state then h.queue else []) ++ _) = _
  have hqueue : (if nxt != d.state then h.queue else []) = if nxt = d.state then [] else h.queue := by
    by_cases hn : nxt = d.state <;> simp [hn]
  rw [hqueue]
  cases img.inTransient nxt <;> rfl

/-- The answer to the host stands when the entry is over. -/
theorem entryDone_out : (s.entryDone img ev re e m req tag h d).out = (s.entryReplied img ev re e m req tag h d).out := by
  show ((s.entryReplied img ev re e m req tag h d).entryEvent ev e m _).out = _
  rw [(entryEvent_fillOnly _ _ _ _ _ m.line).rest]

theorem entryDone_evWait (hr : RepliesOnly s img ev re e m req tag h d rep)
    {v : Line} {p : Bool} (hc : CopyIs s m.part m.line h v p) (hev : ev ≠ .ue) :
    (s.entryDone img ev re e m req tag h d).mgmt.evWait =
      if act e 23 then (s.lineEvent 3 ev m.part m.line d.state).mgmt.evWait else s.mgmt.evWait := by
  have hst := (entryDirAfter_recorded (s := s) (ev := ev) (re := re) (e := e) (m := m) (req := req) (tag := tag) (d := d) rfl).state
  show ((s.entryReplied img ev re e m req tag h d).entryEvent ev e m _).mgmt.evWait = _
  rw [entryEvent_evWait entryReplied_homeOnly (by rw [hr, ← entrySource_mgmt hc]) hev, hst]
  rfl

/-- The lease after an entry. -/
theorem entryDone_lease : ((s.entryDone img ev re e m req tag h d).home m.part m.line).lease =
    if act e 14 = true ∧ re ≠ .ncr ∧ re ≠ .ncw then some (max (h.lease.getD 0) (s.ns + s.lineLease m.line)) else h.lease := by
  have hcopy : CopyOnly h (s.entryCopy img ev re e m req tag h d).1 := entryCopy_copyOnly
  have hs : HomeOnly s (s.entrySource img ev re e m req tag h d).1 m.part m.line := entrySource_homeOnly
  rw [entryDone_home]
  show State.entryLease _ _ _ _ _ = _
  rw [State.entryLease, hs.ns, hs.lineLease, hcopy]
  simp [and_assoc]

/-- The transaction after an entry. -/
theorem entryTxn_eq (stays : Bool) (ev : Event) (m req : Msg) (tag : Nat) (txn : Option (Msg × Nat)) :
    (stays = false → entryTxn stays ev m req tag txn = none) ∧
      (stays = true → ev.isRequest = true → entryTxn stays ev m req tag txn = some (req, tag)) ∧
      (stays = true → ev.isRequest = false → entryTxn stays ev m req tag txn = putmTxn ev m txn) := by
  unfold entryTxn
  rw [putmMark_eq]
  refine ⟨?_, ?_, ?_⟩
  · rintro rfl
    unfold putmTxn
    split <;> rfl
  · rintro rfl hr
    have hp : ev ≠ .putm := by rintro rfl; cases hr
    simp [putmTxn, hp, hr]
  · rintro rfl hr
    simp [hr]

theorem nextState_eq (img : Image) (e : Word) (d : Dir) : img.nextState e d =
    if img.inShare (e.toNat % 16) = true ∧ img.inTransient (e.toNat % 16) = false ∧ d.coarse = false ∧ d.ptrs = [] then 0
    else e.toNat % 16 := by
  simp [Image.nextState, and_assoc]

end done

/-- NACK's reply, with the code as Table 05-6 gives it. -/
theorem nackSent_eq (s : State) (e : Word) (re : Event) (req : Msg) : nackSent s e re req =
    let code := if act e 23 = true ∧ re ∈ [Event.getm, .getu, .atom, .ncw] then 6 else 5
    if re.replied then [{ req with kind := .reply re, full := false, excl := false, cls := code, granted := s.ns }] else [] := by
  simp only [nackSent, List.mem_cons, List.not_mem_nil, or_false, Bool.and_eq_true, Bool.or_eq_true, beq_iff_eq, or_assoc]

section home
variable (img : Image) (e : Word) (ev : Event) (m req : Msg) (tag : Nat) (k : HomeLine) (lease : Option Nat) (d : Dir) (clk : Nat)

@[simp] theorem entryHome_here : (entryHome img e ev m req tag k lease d clk).here = k.here := by rw [entryHome]
@[simp] theorem entryHome_data : (entryHome img e ev m req tag k lease d clk).data = k.data := by rw [entryHome]
@[simp] theorem entryHome_dirty : (entryHome img e ev m req tag k lease d clk).dirty = k.dirty := by rw [entryHome]
@[simp] theorem entryHome_poison : (entryHome img e ev m req tag k lease d clk).poison = (k.poison || act e 20) := rfl

end home

section acts
variable (s : State) (ev : Event) (e : Word) (m : Msg) (d : Dir)

/-- An entry that acts does what the table says, and counts what it sends to agents. -/
theorem entryActs_acts : ∃ out, EntryActs s (s.entryActs (s.imageOf m.line) ev e m (s.home m.part m.line) d).1 ev m e d
      (s.served ev m).1 (s.served ev m).2 out ∧
    (s.entryActs (s.imageOf m.line) ev e m (s.home m.part m.line) d).2 = (out.filter Counted).length := by
  generalize hreq : (s.served ev m).1 = req
  generalize htag : (s.served ev m).2 = tag
  rw [entryActs_done, hreq, htag]
  generalize hre : requestEvent req ev = re
  generalize himg : s.imageOf m.line = img
  generalize hh : s.home m.part m.line = h
  obtain ⟨rep, hrest, hquiet, hnack, hreply⟩ := entryTold_spec (s.entrySource img ev re e m req tag h d).1 e re req
    (entrySeen ev e d) (s.entryCopy img ev re e m req tag h d)
  have hr : RepliesOnly s img ev re e m req tag h d rep := hrest
  have hsource : HomeOnly s (s.entrySource img ev re e m req tag h d).1 m.part m.line := entrySource_homeOnly
  have hcopy : CopyOnly h (s.entryCopy img ev re e m req tag h d).1 := entryCopy_copyOnly
  have htxn : (s.entryCopy img ev re e m req tag h d).1.txn = h.txn := by rw [hcopy]
  have hfilter := filter_counted (entrySent_counted s ev re e (entrySeen ev e d) m req tag) hquiet
  have hn : s.entryCount ev re e m req tag d =
      ((s.entrySent ev re e (entrySeen ev e d) m req tag ++ rep).filter Counted).length := by rw [hfilter]; rfl
  have hrec := entryDirAfter_recorded hn
  refine ⟨s.entrySent ev re e (entrySeen ev e d) m req tag ++ rep, ?_, hn⟩
  constructor
  case only => exact entryDone_homeOnly
  case entry =>
    rw [entryDone_home, himg, hh, hre]
    obtain ⟨hend, hnew, hold⟩ := entryTxn_eq (img.inTransient (img.nextState e (s.entryDirAfter ev re e m req tag d))) ev m req tag
      h.txn
    refine ⟨{ s.entryDirAfter ev re e m req tag d with state := img.nextState e (s.entryDirAfter ev re e m req tag d) }, rfl,
      nextState_eq .., ?_, ?_, hrec.owns, hrec.adds, hrec.keeps, ⟨?_, ?_, entryDone_net hr⟩, ?_, ?_, ?_⟩
    · rw [hrec.hostHeld]
      have hsnp : (act e 18 || (!act e 19 && (entrySeen ev e d).h)) = (act e 18 || (!act e 19 && d.h)) := by
        unfold entrySeen
        cases act e 19 <;> simp
      exact hsnp
    · rw [hrec.acks]
      rfl
    · show (if img.nextState e _ != _ then [] else _) = _
      rw [hrec.state, hcopy]
      by_cases hs : img.nextState e (s.entryDirAfter ev re e m req tag d) = d.state <;> simp [hs, entrySeen]
    · show (if !img.inTransient _ then [] else _) = _
      rw [hcopy]
      cases img.inTransient (img.nextState e (s.entryDirAfter ev re e m req tag d)) <;> rfl
    · intro hs
      rw [← hend hs, ← htxn]
      rfl
    · intro hs hq
      have hm : req = m ∧ tag = s.tag := by rw [← hreq, ← htag, State.served, hq]; exact ⟨rfl, rfl⟩
      refine Eq.trans ?_ ((hnew hs hq).trans (by rw [hm.1, hm.2]))
      rw [← htxn]
      rfl
    · intro hs hq
      rw [← hold hs hq, ← htxn]
      rfl
  case sends =>
    rw [hre]
    refine ⟨sends_one (f := id) (fun _ => ⟨rfl, rfl, rfl, rfl, rfl⟩) (sent_inv hquiet),
      sends_one (f := fun x => { x with data := m.data, mask := m.mask }) (fun _ => ⟨rfl, rfl, rfl, rfl, rfl⟩) (sent_upd hquiet),
      fun x hx hk => ?_, sends_one (f := id) (fun _ => ⟨rfl, rfl, rfl, rfl, rfl⟩) (sent_fwd hquiet),
      sends_one (f := id) (fun _ => ⟨rfl, rfl, rfl, rfl, rfl⟩) fun x => (sent_bisnp hquiet x).trans ?_⟩
    · obtain ⟨a, -, rfl⟩ := (sent_upd hquiet x).mp ⟨hx, hk⟩
      exact ⟨rfl, rfl⟩
    · have hsnp : (entrySeen ev e d).h = true ↔ d.h = true ∧ ¬ (ev = .hsnp ∧ act e 19 = true) := by
        simp [entrySeen, imp_iff_not_or]
      rw [hsnp]
      simp only [and_assoc]
  case copy =>
    dsimp only
    rw [entryDone_lease, entryDone_home, hh, hre, entryHome_here, entryHome_data, entryHome_dirty, entryHome_poison]
    refine ⟨entryCopy_written, fun v p hv => ?_, fun h10 h11 h16 => ?_, fun h20 => ?_, rfl⟩
    · have hv : CopyIs s m.part m.line h v p := by rw [← hh]; exact hv
      refine ⟨fun h10 hf h16 => ?_, fun h10 h16 h11 => ?_, fun h10 h16 => ?_, entryDone_evWait hr hv⟩
      · obtain ⟨hold, hdirty⟩ := entryCopy_merged (img := img) (ev := ev) (re := re) (req := req) (tag := tag) (d := d) hv h10 hf
          h16
        refine ⟨hdirty, hold.data, fun hmask h20 => ?_⟩
        rw [hold.poison, h20, hmask]
        simp
      · have hold : Holds (s.entryCopy img ev re e m req tag h d).1 v p := entryCopy_read hv h10 h16 h11
        exact ⟨hold.here, hold.data⟩
      · exact entryCopy_performed hv h10 h16
    · rw [entryCopy_idle h10 h11 h16]
      exact ⟨rfl, rfl, rfl⟩
    · rw [h20, Bool.or_true]
  case reply =>
    dsimp only
    rw [entryDone_home, entryDone_out, hre, entryHome_data]
    refine ⟨fun h13 => ⟨s.entrySent ev re e (entrySeen ev e d) m req tag, ?_,
      entrySent_counted s ev re e (entrySeen ev e d) m req tag⟩, fun h13 => ?_, fun h13 => ?_⟩
    · rw [hnack h13, nackSent_eq, hsource.ns]
    · obtain ⟨-, -, hgive, -⟩ := hreply h13
      intro h1 h2 h3 hrepl hline
      rw [hline, hsource.lineRepl, hsource.rangeOf] at hgive
      obtain ⟨hsome, hnone⟩ := hgive h1 h2 h3 hrepl
      refine ⟨fun ha => ?_, fun h0 h1 h21 h22 x hx k hk => ?_⟩
      · obtain ⟨x, hx, hx'⟩ := hsome ha
        exact ⟨x, List.mem_append_right _ hx, hx'⟩
      · rcases List.mem_append.mp hx with hx | hx
        · have := entrySent_counted _ _ _ _ _ _ _ _ x hx
          rw [Counted, hk] at this
          cases this
        · exact hnone h0 h1 h21 h22 x hx k hk
    · exact (hreply h13).host

end acts
end Sys2Proof.Machine
end

section
/-!
Looking an event up at its home (05 R122, R125): each outcome of the table's entry.
-/
namespace Sys2Proof.Machine

open Sys2Proof.Safety

/-! ### An event that the image does not define -/

/-- The record that a line's event leaves is the last that waits at the line's die. -/
theorem lineEvent_evWait (s : State) (src : Nat) (ev : Event) (part line st : Nat) :
    ((s.lineEvent src ev part line st).mgmt.evWait.get (s.homeSlice part line / 48) []).getLast? =
      some (eventRecord src (s.homeSlice part line / 48) (s.homeSlice part line + s.imageSlot line * 256 + st * 2048)
        (BitVec.ofNat 64 line) (BitVec.ofNat 64 ev.code) s.ns) := by
  rw [State.lineEvent, State.event]
  dsimp only
  rw [Table.get_put_same, List.getLast?_concat]

/-- The refusal of an undefined event: the requester's reply is poison. -/
def undefinedReply (ev : Event) (m : Msg) (v : Line) : List Msg :=
  if ev.replied then [{ m with kind := .reply ev, data := v, poison := true, full := true, cls := 4, excl := false }] else []

/-- The machine once an undefined event is refused, before its record. -/
def State.undefinedRefused (s : State) (ev : Event) (m : Msg) : State :=
  let r := s.fillHome m.part m.line m.vi (s.home m.part m.line)
  let t := r.1.setHome m.part m.line { r.2 with poison := true }
  if ev.replied then
    t.send { m with kind := .reply ev, data := r.2.data, poison := true, full := true, cls := 4, excl := false }
  else if ev == .hget then t.answerHost 1 m.line true (List.replicate 64 0) else t

theorem undefinedRefused_spec (s : State) (ev : Event) (m : Msg) : HomeOnly s (s.undefinedRefused ev m) m.part m.line ∧
    ∃ h, CopyOnly (s.home m.part m.line) h ∧ (s.undefinedRefused ev m).home m.part m.line = { h with poison := true } ∧
      (s.undefinedRefused ev m).net = s.net ++ undefinedReply ev m h.data := by
  have hfill := fillHome_fillOnly s m.part m.line m.vi (s.home m.part m.line)
  have hset := (hfill.homeOnly m.part).trans (setHome_homeOnly _ m.part m.line
    { (s.fillHome m.part m.line m.vi (s.home m.part m.line)).2 with poison := true })
  unfold State.undefinedRefused undefinedReply
  cases ev.replied with
  | true => exact ⟨hset.trans (send_homeOnly ..), _, fillHome_copyOnly .., home_setHome .., congrArg (· ++ _) hfill.net⟩
  | false =>
    simp only [Bool.false_eq_true, if_false]
    split
    · exact ⟨hset.trans (answerHost_homeOnly ..), _, fillHome_copyOnly .., home_setHome ..,
        hfill.net.trans (List.append_nil _).symm⟩
    · exact ⟨hset, _, fillHome_copyOnly .., home_setHome .., hfill.net.trans (List.append_nil _).symm⟩

/-- An undefined event poisons the line, answers its requester with poison and posts event 0x02. -/
theorem undefinedEntry_spec (s : State) (ev : Event) (m : Msg) (st : Nat) :
    let t := undefinedEntry s ev m st
    let slice := s.homeSlice m.part m.line
    (t.home m.part m.line).poison = true ∧ (t.home m.part m.line).dir = (s.home m.part m.line).dir ∧
      t.net = s.net ++ undefinedReply ev m (t.home m.part m.line).data ∧
      (t.mgmt.evWait.get (slice / 48) []).getLast? = some (eventRecord 2 (slice / 48) (slice + s.imageSlot m.line * 256 + st * 2048)
        (BitVec.ofNat 64 m.line) (BitVec.ofNat 64 ev.code) s.ns) := by
  obtain ⟨honly, h, hcopy, hhome, hnet⟩ := undefinedRefused_spec s ev m
  have hh : (undefinedEntry s ev m st).home m.part m.line = { h with poison := true } := hhome
  have hev := lineEvent_evWait (s.undefinedRefused ev m) 2 ev m.part m.line st
  rw [honly.homeSlice, honly.imageSlot, honly.ns] at hev
  refine ⟨by rw [hh], ?_, ?_, hev⟩
  · rw [hh, hcopy]
  · rw [hh]
    exact hnet

/-! ### A lookup after the records were corrected (05 R125: PUTS takes its sender's pointer off first) -/

/-- u is the machine s with the directory word w at the line of m. -/
structure WithDir (s u : State) (m : Msg) (w : DWord) : Prop where
  rest : u = { s with homes := u.homes }
  home : u.home m.part m.line = { s.home m.part m.line with dir := w }
  only : HomeOnly s u m.part m.line

theorem withDir_self (s : State) (m : Msg) : WithDir s s m (s.home m.part m.line).dir := ⟨rfl, rfl, .refl ..⟩

theorem withDir_setHome (s : State) (m : Msg) (w : DWord) :
    WithDir s (s.setHome m.part m.line { s.home m.part m.line with dir := w }) m w := ⟨rfl, home_setHome .., setHome_homeOnly ..⟩

namespace WithDir
variable {s u : State} {m : Msg} {w : DWord} (hu : WithDir s u m w)
include hu

theorem net : u.net = s.net := by rw [hu.rest]
theorem ns : u.ns = s.ns := hu.only.ns

theorem served (ev : Event) : u.served ev m = s.served ev m := by
  rw [State.served, State.served, hu.home, show u.tag = s.tag by rw [hu.rest]]

/-- An entry acts on the machine with the records corrected as on the machine itself. -/
theorem acts {t : State} {ev : Event} {e : Word} {d : Dir} {req : Msg} {tag : Nat} {out : List Msg}
    (h : EntryActs u t ev m e d req tag out) : EntryActs s t ev m e d req tag out := by
  obtain ⟨homes, rfl⟩ : ∃ x, u = { s with homes := x } := ⟨_, hu.rest⟩
  obtain ⟨only, entry, sends, copy, reply⟩ := h
  simp only [HomeCopy, hu.home] at entry copy
  exact ⟨hu.only.trans only, entry, sends, copy, reply⟩

end WithDir

end Sys2Proof.Machine
end

section
/-!
The outcomes of a lookup, and the way of a message to it (05 R122 to R125).
-/
namespace Sys2Proof.Machine

open Sys2Proof.Safety

/-! ### The five outcomes of a lookup -/

section outcomes
variable {s u : State} {m : Msg} {w : DWord} {ev : Event} (hu : WithDir s u m w) (fuel : Nat)
include hu

theorem applyEntry_withDir : applyEntry (fuel + 1) u ev m =
    (let img := s.imageOf m.line
     let d := Dir.ofBits w
     let e := img.entry d.state ev
     if !img.defined d.state ev then undefinedEntry u ev m d.state
     else if act e 12 then u.setHome m.part m.line { u.home m.part m.line with queue := (u.home m.part m.line).queue ++ [m] }
     else if act e 6 && (entrySeen ev e d).acks != 0 then u.entryCounts ev e m (u.home m.part m.line) d
     else if act e 5 && (u.entryActs img ev e m (u.home m.part m.line) d).2 == 0 then
       applyEntry fuel (u.entryActs img ev e m (u.home m.part m.line) d).1 .ack (ackOf m (s.served ev m).1.peer (s.served ev m).2)
     else (u.entryActs img ev e m (u.home m.part m.line) d).1) := by
  have hw : Dir.ofBits (u.home m.part m.line).dir = Dir.ofBits w := by rw [hu.home]
  rw [applyEntry_succ, hu.only.imageOf, hu.served]
  dsimp only
  rw [hw]

variable {img : Image} (himg : s.imageOf m.line = img) {d : Dir} (hd : Dir.ofBits w = d)
include himg hd

theorem applyEntry_undefined (hdef : img.defined d.state ev = false) :
    applyEntry (fuel + 1) u ev m = undefinedEntry u ev m d.state := by
  rw [applyEntry_withDir hu]
  simp only [himg, hd, hdef, Bool.not_false, if_true]

variable (hdef : img.defined d.state ev = true) {e : Word} (he : img.entry d.state ev = e)
include hdef he

theorem applyEntry_queue (h12 : act e 12 = true) : applyEntry (fuel + 1) u ev m =
    u.setHome m.part m.line { u.home m.part m.line with queue := (u.home m.part m.line).queue ++ [m] } := by
  rw [applyEntry_withDir hu]
  simp only [himg, hd, he, hdef, h12, Bool.not_true, Bool.false_eq_true, if_false, if_true]

variable (h12 : act e 12 = false)
include h12

theorem applyEntry_counts (h6 : act e 6 = true) (ha : d.acks - 1 ≠ 0) :
    applyEntry (fuel + 1) u ev m = u.entryCounts ev e m (u.home m.part m.line) d := by
  rw [applyEntry_withDir hu]
  have hacks : (entrySeen ev e d).acks = d.acks - 1 := by simp only [entrySeen, h6, if_true]
  have hne : (d.acks - 1 != 0) = true := bne_iff_ne.mpr ha
  simp only [himg, hd, he, hdef, h12, h6, hacks, hne, Bool.and_self, Bool.not_true, Bool.false_eq_true, if_false, if_true]

theorem applyEntry_done (h6 : act e 6 = true → d.acks - 1 = 0) :
    (act e 5 = false ∨ (u.entryActs img ev e m (u.home m.part m.line) d).2 ≠ 0 →
      applyEntry (fuel + 1) u ev m = (u.entryActs img ev e m (u.home m.part m.line) d).1) ∧
    (act e 5 = true → (u.entryActs img ev e m (u.home m.part m.line) d).2 = 0 → applyEntry (fuel + 1) u ev m =
      applyEntry fuel (u.entryActs img ev e m (u.home m.part m.line) d).1 .ack
        (ackOf m (s.served ev m).1.peer (s.served ev m).2)) := by
  rw [applyEntry_withDir hu]
  have hgo : (act e 6 && (entrySeen ev e d).acks != 0) = false := by
    cases h : act e 6 with
    | false => rfl
    | true => simp [entrySeen, h, h6 h]
  simp only [himg, hd, he, hdef, h12, hgo, Bool.not_true, Bool.false_eq_true, if_false]
  refine ⟨fun h => if_neg ?_, fun h5 h0 => if_pos ?_⟩
  · rcases h with h5 | h0
    · simp [h5]
    · simp [h0]
  · simp [h5, h0]

end outcomes

/-- An entry that only counts leaves the line's queue, and marks the sender of a PUTM. -/
theorem entryCounts_spec {s u : State} {m : Msg} {w : DWord} (hu : WithDir s u m w) (ev : Event) (e : Word) :
    let t := u.entryCounts ev e m (u.home m.part m.line) (Dir.ofBits w)
    (t.home m.part m.line).queue = (s.home m.part m.line).queue ∧ t.net = s.net ∧
      (t.home m.part m.line).txn = putmTxn ev m (s.home m.part m.line).txn ∧
      (t.home m.part m.line).dir = (entrySeen ev e (Dir.ofBits w)).pack := by
  have hcopy := entryWrite_copyOnly u e m (u.home m.part m.line)
  have hfill := entryWrite_fillOnly u e m (u.home m.part m.line)
  have hh : (u.entryCounts ev e m (u.home m.part m.line) (Dir.ofBits w)).home m.part m.line =
      { (u.entryWrite e m (u.home m.part m.line)).2 with
        dir := (entrySeen ev e (Dir.ofBits w)).pack
        txn := putmMark ev m (u.entryWrite e m (u.home m.part m.line)).2.txn } := home_setHome ..
  intro t
  rw [hh]
  refine ⟨?_, hfill.net.trans hu.net, ?_, rfl⟩
  · rw [hcopy, hu.home]
  · show putmMark _ _ _ = _
    rw [putmMark_eq, hcopy, hu.home]

/-! ### The way of an event to its lookup -/

/-- The records that a lookup starts from: those of the line, or, for a PUTS, without its sender's pointer (R125). -/
def lookupWord (ev : Event) (w : DWord) (m : Msg) : DWord :=
  if ev = .puts ∧ (Dir.ofBits w).coarse = false then
    Dir.pack { Dir.ofBits w with ptrs := (Dir.ofBits w).ptrs.filter (· != m.peer), o := false }
  else w

/-- A PUTS of a sender that no pointer records changes nothing. -/
theorem soundLookup_unrecorded {s : State} {m : Msg} (hc : (Dir.ofBits (s.home m.part m.line).dir).coarse = false)
    (hp : m.peer ∉ (Dir.ofBits (s.home m.part m.line).dir).ptrs) : soundLookup s .puts m = s := by
  rw [soundLookup]
  simp [hc, hp]

/-- Any other event is looked up, with the records corrected. -/
theorem soundLookup_applies {s : State} {m : Msg} {ev : Event}
    (h : ev = .puts → (Dir.ofBits (s.home m.part m.line).dir).coarse = true ∨
      m.peer ∈ (Dir.ofBits (s.home m.part m.line).dir).ptrs) :
    ∃ u, WithDir s u m (lookupWord ev (s.home m.part m.line).dir m) ∧
      soundLookup s ev m = applyEntry 4 u (lookedUp ev (Dir.ofBits (s.home m.part m.line).dir) m) m := by
  unfold lookupWord lookedUp soundLookup
  by_cases hev : ev = .puts ∧ (Dir.ofBits (s.home m.part m.line).dir).coarse = false
  · obtain ⟨rfl, hc⟩ := hev
    have hin : m.peer ∈ (Dir.ofBits (s.home m.part m.line).dir).ptrs := by simpa [hc] using h rfl
    refine ⟨_, by rw [if_pos ⟨rfl, hc⟩]; exact withDir_setHome .., ?_⟩
    simp [hc, hin]
  · refine ⟨s, by rw [if_neg hev]; exact withDir_self .., ?_⟩
    have hb : (ev == .puts && !(Dir.ofBits (s.home m.part m.line).dir).coarse) = false := by simpa using hev
    dsimp only
    rw [hb, if_neg Bool.false_ne_true]
    simp only [Bool.and_eq_true, beq_iff_eq, Bool.not_eq_true']

section arrival
variable {u : State} {m : Msg} {ev : Event} (h : AtHome u m ev)
include h

theorem homeLookup_atHome : homeLookup u ev m = soundLookup u ev m := by
  have hlive : (u.home m.part m.line).stale ev m = false := by
    rw [HomeLine.stale]
    cases ha : ev.isAnswer with
    | false => rfl
    | true =>
      obtain ⟨t, ht, htag, hrvt⟩ := h.live ha
      simp [ht, htag, hrvt]
  have hcount : u.countData ev m = (u, m) := by simp only [State.countData, h.whole]
  simp only [homeLookup, hlive, Bool.false_eq_true, if_false, h.sound, hcount]

/-- The page is in no flip when the lookup is over. -/
theorem homeLookup_noteRecall : (homeLookup u ev m).noteRecall m.part m.line = soundLookup u ev m := by
  rw [State.noteRecall, (homeLookup_homeOnly u ev m).flipOf, h.noFlip]
  exact homeLookup_atHome h

theorem homeEvent_atHome : homeEvent u ev m = soundLookup u ev m := by
  rw [← homeLookup_noteRecall h]
  have hb := h.bias
  have hg := h.hostBias
  unfold homeEvent
  rcases (show u.bias m.part (m.line / 4096) = 0 ∨ u.bias m.part (m.line / 4096) = 1 by omega) with h0 | h1
  · have hget : (ev == .hget) = false := by
      rw [beq_eq_false_iff_ne]
      exact fun he => absurd (hg he) (by omega)
    simp [h0, hget, h.noFlip]
  · simp [h1, h.noFlip]

theorem flushUncached_atHome : (soundLookup u ev m).flushUncached m.part m.line = soundLookup u ev m := by
  rw [State.flushUncached, (soundLookup_homeOnly u ev m).imageOf, h.cached]
  exact if_neg Bool.false_ne_true

/-- A message to its home, taken up. -/
theorem deliver_atHome (hk : m.kind = .home ev) : deliver u m = soundLookup u ev m := by
  rw [deliver, hk]
  simp only [h.free, Bool.false_and, Bool.false_eq_true, if_false, homeEvent_atHome h, flushUncached_atHome h]

end arrival

end Sys2Proof.Machine
end

section
/-!
O54: events at the home of a line.
-/
namespace Sys2Proof.Machine

open Sys2Proof.Safety

/-- The instructions by which an event reaches its home, message k. -/
def arrivalsOf (k : Nat) : List (Instr × Event) :=
  [(.gets k, .gets), (.getm k, .getm), (.getu k, .getu), (.puts k, .puts), (.putm k, .putm), (.ack k, .ack), (.data k, .data),
   (.atom k, .atom), (.hsnp k, .hsnp), (.hget k, .hget), (.hput k, .hput), (.ncr k, .ncr), (.ncw k, .ncw)]

theorem exec_arrival {s : State} {k : Nat} {i : Instr} {ev : Event} (h : (i, ev) ∈ arrivalsOf k) :
    exec i s = s.arrives k fun x => x == .home ev := by
  simp only [arrivalsOf, List.mem_cons, List.not_mem_nil, or_false, Prod.mk.injEq] at h
  rcases h with ⟨rfl, rfl⟩ | ⟨rfl, rfl⟩ | ⟨rfl, rfl⟩ | ⟨rfl, rfl⟩ | ⟨rfl, rfl⟩ | ⟨rfl, rfl⟩ | ⟨rfl, rfl⟩ | ⟨rfl, rfl⟩ |
    ⟨rfl, rfl⟩ | ⟨rfl, rfl⟩ | ⟨rfl, rfl⟩ | ⟨rfl, rfl⟩ | ⟨rfl, rfl⟩ <;> rfl

section arrival
variable {s : State} {k : Nat} {m : Msg} {ev : Event} (hm : s.net[k]? = some m) (hk : m.kind = .home ev)
include hm

/-- A message of the kind asked for arrives. -/
theorem arrives_some {p : MsgKind → Bool} (hp : p m.kind = true) : s.arrives k p = .next (s.deliverAt k) := by
  rw [State.arrives, hm]
  simp only [hp, if_true]

include hk

/-- A message to a home overtakes nothing of a home. -/
theorem mayDeliver_toHome : s.mayDeliver k = true := by
  rw [State.mayDeliver, hm]
  simp only [hk, Bool.false_and, Bool.not_false]

theorem deliverAt_toHome : s.deliverAt k =
    if s.admits m then deliver { s with net := s.net.eraseIdx k } m
    else if s.frozen m.line then s else s.makeHomeRoom m.part m.line := by
  rw [State.deliverAt, hm]
  simp only [mayDeliver_toHome hm hk, Bool.not_true, Bool.false_eq_true, if_false]

/-- A message that its home takes up is looked up. -/
theorem deliverAt_atHome (h : AtHome { s with net := s.net.eraseIdx k } m ev) :
    s.deliverAt k = soundLookup { s with net := s.net.eraseIdx k } ev m := by
  rw [deliverAt_toHome hm hk, show s.admits m = true from h.taken, if_pos rfl]
  exact deliver_atHome h hk

end arrival

/-- A request that a home does not take makes room, unless its line is being configured. -/
theorem exec_arrival_refused {s : State} {k : Nat} {m : Msg} {ev : Event} {i : Instr} (hm : s.net[k]? = some m)
    (hk : m.kind = .home ev) (hi : (i, ev) ∈ arrivalsOf k) (hno : s.admits m = false) :
    exec i s = .next (if s.frozen m.line then s else s.makeHomeRoom m.part m.line) := by
  rw [exec_arrival hi, arrives_some hm (by simp [hk]), deliverAt_toHome hm hk, hno, if_neg Bool.false_ne_true]

/-- The messages that a home keeps for itself and that RECALL brings back. -/
def recallOwn (e : Event) : Bool := e == .recall || e == .ue

/-- u is the machine in which the event ev of m is at its home, by the instruction i: a message that arrives, one that waited for
RECALL, or a RECALL that the home raises. -/
def Reaches (s u : State) (m : Msg) (ev : Event) (i : Instr) : Prop :=
  (∃ k, s.net[k]? = some m ∧ m.kind = .home ev ∧ u = { s with net := s.net.eraseIdx k } ∧
    ((i, ev) ∈ arrivalsOf k ∨ ∃ part line, i = .recall part line ∧ ev = .recall ∧
      s.homeOwn part (line / 128 * 128) recallOwn = some k)) ∨
  (∃ part line, i = .recall part line ∧ ev = .recall ∧ u = s ∧ s.homeOwn part (line / 128 * 128) recallOwn = none ∧
    m = Msg.blank (.home .recall) part (line / 128 * 128) (72 + s.homeSlice part (line / 128 * 128) / 48))

section reaches
variable {s u : State} {m : Msg} {ev : Event} {i : Instr} (h : Reaches s u m ev i)
include h

theorem exec_atHome (hat : AtHome u m ev) : exec i s = .next (soundLookup u ev m) := by
  rcases h with ⟨k, hm, hk, rfl, hi | ⟨part, line, rfl, rfl, hown⟩⟩ | ⟨part, line, rfl, rfl, rfl, hown, rfl⟩
  · rw [exec_arrival hi, arrives_some hm (by simp [hk]), deliverAt_atHome hm hk hat]
  · have hrec : s.recallNow part (line / 128 * 128) = s.deliverAt k := by
      rw [State.recallNow, show s.homeOwn part (line / 128 * 128) (fun e => e == .recall || e == .ue) = some k from hown]
    rw [← deliverAt_atHome hm hk hat, ← hrec]
    rfl
  · have hrec : u.recallNow part (line / 128 * 128) = u.recallLine part (line / 128 * 128) := by
      rw [State.recallNow, show u.homeOwn part (line / 128 * 128) (fun e => e == .recall || e == .ue) = none from hown]
    rw [← homeLookup_noteRecall hat]
    exact congrArg _ hrec

/-- Only the network may differ before the lookup. -/
theorem reaches_rest : u = { s with net := u.net } := by
  rcases h with ⟨k, -, -, rfl, -⟩ | ⟨part, line, -, -, rfl, -⟩ <;> rfl

end reaches

theorem lookedUp_isRequest (ev : Event) (d : Dir) (m : Msg) : (lookedUp ev d m).isRequest = ev.isRequest := by
  unfold lookedUp
  split
  next h => rw [h.1]; rfl
  · rfl

theorem served_lookedUp (s : State) (ev : Event) (d : Dir) (m : Msg) :
    s.served (lookedUp ev d m) m = servedRequest ev (s.home m.part m.line) m s.tag := by
  rw [State.served, servedRequest, lookedUp_isRequest]

theorem ofBits_lookupWord (ev : Event) (w : DWord) (m : Msg) : Dir.ofBits (lookupWord ev w m) =
    if ev = .puts ∧ (Dir.ofBits w).coarse = false then
      Dir.ofBits (Dir.pack { Dir.ofBits w with ptrs := (Dir.ofBits w).ptrs.filter (· != m.peer), o := false })
    else Dir.ofBits w := apply_ite ..

/-! ### All outcomes of a lookup -/

/-- What a lookup of ev leaves, r being the machine after it, from s to the entry's own effect t; d are the records it starts from
and rt is the request it serves. -/
structure Outcome (s t r : State) (m : Msg) (ev : Event) (img : Image) (e : Word) (d : Dir) (rt : Msg × Nat) : Prop where
  only : HomeOnly s t m.part m.line
  undefined : img.defined d.state ev = false → r = t ∧ (t.home m.part m.line).poison = true ∧
    Dir.ofBits (t.home m.part m.line).dir = d ∧ t.net = s.net ++ undefinedReply ev m (t.home m.part m.line).data ∧
    let slice := s.homeSlice m.part m.line
    (t.mgmt.evWait.get (slice / 48) []).getLast? = some (eventRecord 2 (slice / 48)
      (slice + s.imageSlot m.line * 256 + d.state * 2048) (BitVec.ofNat 64 m.line) (BitVec.ofNat 64 ev.code) s.ns)
  queue : img.defined d.state ev = true → act e 12 = true → r = t ∧
    (t.home m.part m.line).queue = (s.home m.part m.line).queue ++ [m] ∧ Dir.ofBits (t.home m.part m.line).dir = d ∧ t.net = s.net
  counts : img.defined d.state ev = true → act e 12 = false → act e 6 = true → d.acks - 1 ≠ 0 → r = t ∧
    (t.home m.part m.line).queue = (s.home m.part m.line).queue ∧ t.net = s.net ∧
    (t.home m.part m.line).txn = putmTxn ev m (s.home m.part m.line).txn ∧
    (t.home m.part m.line).dir = Dir.pack { d with acks := d.acks - 1, h := d.h && !(ev == .hsnp && act e 19) }
  acts : img.defined d.state ev = true → act e 12 = false → (act e 6 = true → d.acks - 1 = 0) → ∃ out,
    EntryActs s t ev m e d rt.1 rt.2 out ∧ (act e 5 = false ∨ out.filter Counted ≠ [] → r = t) ∧
    (act e 5 = true → out.filter Counted = [] → r = applyEntry 3 t .ack (ackOf m rt.1.peer rt.2))

theorem applyEntry_outcome {s u : State} {m : Msg} {w : DWord} (hu : WithDir s u m w) (ev : Event) :
    ∃ t, Outcome s t (applyEntry 4 u ev m) m ev (s.imageOf m.line) ((s.imageOf m.line).entry (Dir.ofBits w).state ev)
      (Dir.ofBits w) (s.served ev m) := by
  generalize himg : s.imageOf m.line = img
  generalize hd : Dir.ofBits w = d
  generalize he : img.entry d.state ev = e
  by_cases hdef : img.defined d.state ev = true
  case neg =>
    have hdef : img.defined d.state ev = false := Bool.eq_false_iff.mpr hdef
    refine ⟨undefinedEntry u ev m d.state, hu.only.trans (undefinedEntry_homeOnly ..), fun _ => ?_, fun h => ?_, fun h => ?_,
      fun h => ?_⟩
    · obtain ⟨hp, hdir, hnet, hev⟩ := undefinedEntry_spec u ev m d.state
      rw [hu.only.homeSlice, hu.only.imageSlot, hu.ns] at hev
      rw [hu.net] at hnet
      rw [hu.home] at hdir
      exact ⟨applyEntry_undefined hu 3 himg hd hdef, hp, by rw [hdir, hd], hnet, hev⟩
    all_goals exact absurd h (by rw [hdef]; exact Bool.false_ne_true)
  have hundef : ∀ {P : Prop}, img.defined d.state ev = false → P := fun h => absurd (h.symm.trans hdef) Bool.false_ne_true
  by_cases h12 : act e 12 = true
  case pos =>
    have hqueue : ∀ {P : Prop}, act e 12 = false → P := fun h => absurd (h.symm.trans h12) Bool.false_ne_true
    refine ⟨u.setHome m.part m.line { u.home m.part m.line with queue := (u.home m.part m.line).queue ++ [m] },
      hu.only.trans (setHome_homeOnly ..), fun h => hundef h, fun _ _ => ?_, fun _ h => hqueue h, fun _ h => hqueue h⟩
    refine ⟨applyEntry_queue hu 3 himg hd hdef he h12, ?_, ?_, hu.net⟩
    · rw [home_setHome, hu.home]
    · rw [home_setHome, hu.home, ← hd]
  have hq : ∀ {P : Prop}, act e 12 = true → P := fun h => absurd h h12
  have h12 : act e 12 = false := Bool.eq_false_iff.mpr h12
  by_cases hcount : act e 6 = true ∧ d.acks - 1 ≠ 0
  case pos =>
    obtain ⟨h6, hacks⟩ := hcount
    refine ⟨u.entryCounts ev e m (u.home m.part m.line) d, hu.only.trans (entryCounts_homeOnly ..), fun h => hundef h,
      fun _ h => hq h, fun _ _ _ _ => ?_, fun _ _ h => absurd (h h6) hacks⟩
    obtain ⟨hqueue, hnet, htxn, hdir⟩ := entryCounts_spec hu ev e
    rw [hd] at hqueue hnet htxn hdir
    refine ⟨applyEntry_counts hu 3 himg hd hdef he h12 h6 hacks, hqueue, hnet, htxn, hdir.trans ?_⟩
    simp only [entrySeen, h6, if_true]
  have hdone : act e 6 = true → d.acks - 1 = 0 := fun h6 => Decidable.of_not_not fun h => hcount ⟨h6, h⟩
  obtain ⟨out, hacts, hn⟩ := entryActs_acts u ev e m d
  rw [hu.only.imageOf, himg, hu.served] at hacts
  rw [hu.only.imageOf, himg] at hn
  obtain ⟨hstop, hack⟩ := applyEntry_done hu 3 himg hd hdef he h12 hdone
  rw [hn] at hstop hack
  exact ⟨_, hu.only.trans (entryActs_homeOnly ..), fun h => hundef h, fun _ h => hq h,
    fun _ _ h6 hne => absurd (hdone h6) hne, fun _ _ _ => ⟨out, hu.acts hacts,
      fun h => hstop (h.imp_right fun h h0 => h (List.eq_nil_of_length_eq_zero h0)),
      fun h5 h => hack h5 (by rw [h, List.length_nil])⟩⟩

end Sys2Proof.Machine

namespace Sys2Proof

open Machine Safety

/-- Settles O54: each way to the home ends in one lookup, and each outcome of the lookup is the entry of Table 05-6. -/
theorem homesAct : Obligations.HomesAct := by
  unfold Obligations.HomesAct
  refine ⟨fun s k m ev i hm hk hi hno => exec_arrival_refused hm hk hi hno, fun s u m ev i hat hreach => ?_⟩
  have hreach : Reaches s u m ev i := hreach
  have hexec := exec_atHome hreach hat
  have hhome : s.home m.part m.line = u.home m.part m.line := by rw [reaches_rest hreach]; rfl
  have himg : s.imageOf m.line = u.imageOf m.line := by rw [reaches_rest hreach]; rfl
  have htag : s.tag = u.tag := by rw [reaches_rest hreach]
  have hns : s.ns = u.ns := by rw [reaches_rest hreach]; rfl
  have hslice : s.homeSlice m.part m.line = u.homeSlice m.part m.line := by rw [reaches_rest hreach]; rfl
  have hslot : s.imageSlot m.line = u.imageSlot m.line := by rw [reaches_rest hreach]; rfl
  dsimp only
  rw [hhome, himg, htag, hns, hslice, hslot]
  refine ⟨fun hev hc hp => ?_, fun hrec => ?_⟩
  · subst hev
    rw [hexec, soundLookup_unrecorded hc hp]
  obtain ⟨u', hu, happly⟩ := soundLookup_applies hrec
  obtain ⟨t, ho⟩ := applyEntry_outcome hu (lookedUp ev (Dir.ofBits (u.home m.part m.line).dir) m)
  rw [← happly, served_lookedUp, ofBits_lookupWord] at ho
  refine ⟨t, ho.only, fun hdef => ?_, fun hdef h12 => ?_, fun hdef h12 h6 ha => ?_, fun hdef h12 ha => ?_⟩
  · obtain ⟨rfl, hrest⟩ := ho.undefined hdef
    exact ⟨hexec, hrest⟩
  · obtain ⟨rfl, hrest⟩ := ho.queue hdef h12
    exact ⟨hexec, hrest⟩
  · obtain ⟨rfl, hrest⟩ := ho.counts hdef h12 h6 ha
    exact ⟨hexec, hrest⟩
  · obtain ⟨out, hacts, hstop, hack⟩ := ho.acts hdef h12 ha
    exact ⟨out, hacts, fun h => hexec.trans (congrArg _ (hstop h)), fun h5 h => hexec.trans (congrArg _ (hack h5 h))⟩

end Sys2Proof
end

section
/-!
Messages at a cluster, a replica slice or a host port (05 R112, R113, R119, R121, R136).
-/
namespace Sys2Proof.Machine

open Sys2Proof.Safety

/-- The instructions by which a message of a home or a replica slice arrives, message k. -/
def AgentArrival (k : Nat) (i : Instr) : Prop :=
  i ∈ [Instr.invalidation k, .update k, .forward k, .reply k, .replicaFill k, .backInvalidation k]

theorem exec_agentArrival {k : Nat} {i : Instr} (hi : AgentArrival k i) (s : State) : ∃ p, exec i s = s.arrives k p := by
  simp only [AgentArrival, List.mem_cons, List.not_mem_nil, or_false] at hi
  rcases hi with rfl | rfl | rfl | rfl | rfl | rfl
  · exact ⟨_, show execInvalidation k s = _ from rfl⟩
  · exact ⟨_, show execUpdate k s = _ from rfl⟩
  · exact ⟨_, show execForward k s = _ from rfl⟩
  · exact ⟨_, show execReply k s = _ from rfl⟩
  · exact ⟨_, show execReplicaFill k s = _ from rfl⟩
  · exact ⟨_, show execBackInvalidation k s = _ from rfl⟩

theorem arrives_none {s : State} {k : Nat} (p : MsgKind → Bool) (h : s.net[k]? = none) : s.arrives k p = .next s := by
  rw [State.arrives, h]

/-- A message that would overtake one of a home stays. -/
theorem arrives_held {s : State} {k : Nat} (p : MsgKind → Bool) (h : s.mayDeliver k = false) : s.arrives k p = .next s := by
  rw [State.arrives]
  cases hm : s.net[k]? with
  | none => rfl
  | some m =>
    have hd : s.deliverAt k = s := by
      rw [State.deliverAt, hm]
      simp only [h, Bool.not_false, if_true]
    simp only [hd, ite_self]

/-- An older message to the same agent about the same line holds a home's message back. -/
theorem mayDeliver_overtaking {s : State} {j k : Nat} {m x : Msg} (hk : s.net[k]? = some m) (hjk : j < k)
    (hj : s.net[j]? = some x) (hm : ∀ e, m.kind ≠ .home e) (hx : ∀ e, x.kind ≠ .home e) (hp : x.peer = m.peer)
    (hl : x.line = m.line) (hq : x.part = m.part) : s.mayDeliver k = false := by
  have hin : x ∈ s.net.take k := List.mem_of_getElem? (i := j) (by rw [List.getElem?_take, if_pos hjk, hj])
  rw [State.mayDeliver, hk]
  simp only [Bool.not_eq_false', Bool.and_eq_true, List.any_eq_true]
  refine ⟨trivial, x, hin, ?_⟩
  simp only [hp, hl, hq, beq_self_eq_true, and_true]

/-- A message that is for no home is delivered as soon as it may be. -/
theorem arrives_agent {s : State} {k : Nat} {m : Msg} {p : MsgKind → Bool} (hm : s.net[k]? = some m)
    (hmay : s.mayDeliver k = true) (hp : p m.kind = true) (hk : ∀ e, m.kind ≠ .home e) :
    s.arrives k p = .next (deliver { s with net := s.net.eraseIdx k } m) := by
  have hadmit : s.admits m = true := by
    rw [State.admits]
    split
    next h => exact absurd h (hk _)
    · rfl
  rw [arrives_some hm hp, State.deliverAt, hm]
  simp only [hmay, hadmit, Bool.not_true, Bool.false_eq_true, if_false, if_true]

/-! ### A home's message at a cluster (05 Table 05-6, R135, R136) -/

/-- The answers of a cluster to its home. -/
def ackTo (m : Msg) : Msg := { Msg.blank (.home .ack) m.part m.line m.peer with tag := m.tag }
def dataTo (m : Msg) (l : CLine) : Msg :=
  { Msg.blank (.home .data) m.part m.line m.peer with tag := m.tag, data := l.data, poison := l.poison, full := true, vi := l.vi }

/-- The copy that a message of a home is about: one of the message's own partition. -/
def State.copyFor (s : State) (m : Msg) : Option CLine :=
  if s.partOfCluster m.peer = m.part then (s.cluster m.peer).lines.find m.line else none

theorem copyFor_find {s : State} {m : Msg} {l : CLine} (h : s.copyFor m = some l) :
    (s.cluster m.peer).lines.find m.line = some l := by
  unfold State.copyFor at h
  split at h
  · exact h
  · cases h

theorem editLine_some {s : State} {c line : Nat} {l : CLine} (h : (s.cluster c).lines.find line = some l) (f : CLine → CLine) :
    s.editLine c line f = s.setCluster c { s.cluster c with lines := (s.cluster c).lines.put line (f l) } := by
  rw [State.editLine]
  dsimp only
  rw [h]

section cluster
variable {s : State} {m : Msg}

theorem clusterMsg_eq : clusterMsg s m =
    (let gone := s.setCluster m.peer { s.cluster m.peer with lines := (s.cluster m.peer).lines.drop m.line }
     match m.kind, s.copyFor m with
     | .inv, some l => gone.send (if l.st == .m then dataTo m l else ackTo m)
     | .upd, some l =>
       if l.st == .s || l.st == .u then
         (s.editLine m.peer m.line fun l =>
           { l with data := Line.merge l.data m.data m.mask, poison := l.poison && !(m.mask == BitVec.allOnes 128) }).send (ackTo m)
       else s.send (ackTo m)
     | .fwd e, some l =>
       if l.st == .m || l.st == .e then
         (if e == .gets || e == .ncr then s.editLine m.peer m.line fun l => { l with st := .s } else gone).send (dataTo m l)
       else s.send (ackTo m)
     | _, _ => s.send (ackTo m)) := by
  have hheld : (if s.partOfCluster m.peer == m.part then (s.cluster m.peer).lines.find m.line else none) = s.copyFor m := by
    simp only [State.copyFor, beq_iff_eq]
  unfold clusterMsg
  dsimp only
  rw [hheld]
  cases m.kind with
  | inv =>
    cases s.copyFor m with
    | none => rfl
    | some l => dsimp only; cases l.st == .m <;> rfl
  | _ => cases s.copyFor m <;> rfl

end cluster

end Sys2Proof.Machine
end

section
/-!
A reply at its cluster's cache (05 R113, R121, R123; 06 R142): what it leaves of the lines and the waits.
-/
namespace Sys2Proof.Machine

open Sys2Proof.Safety

@[simp] theorem cluster_setCluster (s : State) (c : Nat) (x : Cluster) : (s.setCluster c x).cluster c = x := Table.get_put_same ..

theorem find_drop_same {α : Type} (t : Table α) (k : Nat) : (t.drop k).find k = none := by
  induction t with
  | nil => rfl
  | cons x r ih =>
    obtain ⟨j, a⟩ := x
    rw [Table.drop, List.filter_cons]
    by_cases h : j = k
    · simp only [h, bne_self_eq_false, Bool.false_eq_true, if_false]
      exact ih
    · simp only [bne_iff_ne.mpr h, if_true, Table.find, if_neg h]
      exact ih

/-- Beside the clusters and the network nothing has changed, and cluster c waits for the same replies. -/
structure CacheOnly (c : Nat) (s t : State) : Prop where
  rest : t = { s with clusters := t.clusters, net := t.net }
  mshr : (t.cluster c).mshr = (s.cluster c).mshr

namespace CacheOnly
variable {c : Nat} {s t u : State}

theorem refl (s : State) : CacheOnly c s s := ⟨rfl, rfl⟩

theorem trans (h : CacheOnly c s t) (k : CacheOnly c t u) : CacheOnly c s u :=
  ⟨by rw [k.rest, h.rest], k.mshr.trans h.mshr⟩

theorem send (h : CacheOnly c s t) (m : Msg) : CacheOnly c s (t.send m) := ⟨by rw [h.rest]; rfl, h.mshr⟩

theorem groups (h : CacheOnly c s t) : t.groups = s.groups := by rw [h.rest]
theorem ns (h : CacheOnly c s t) : t.ns = s.ns := by rw [h.rest]; rfl

end CacheOnly

theorem setLines_cacheOnly (s : State) (c : Nat) (ls : Table CLine) :
    CacheOnly c s (s.setCluster c { s.cluster c with lines := ls }) := ⟨rfl, by rw [cluster_setCluster]⟩

theorem dropLine_cacheOnly (s : State) (c line : Nat) : CacheOnly c s (s.dropLine c line) := by
  unfold State.dropLine
  dsimp only
  split
  · exact .refl s
  · split
    · exact (setLines_cacheOnly ..).send _
    · exact (setLines_cacheOnly ..).send _
    · exact (setLines_cacheOnly ..).send _
    · exact (setLines_cacheOnly ..).send _
    · exact setLines_cacheOnly ..
    · exact setLines_cacheOnly ..

theorem makeRoom_cacheOnly (s : State) (c line : Nat) : CacheOnly c s (s.makeRoom c line).1 := by
  unfold State.makeRoom
  dsimp only
  split
  · exact .refl s
  · split
    · exact dropLine_cacheOnly ..
    · exact .refl s

theorem editLine_cacheOnly (s : State) (c line : Nat) (f : CLine → CLine) : CacheOnly c s (s.editLine c line f) := by
  unfold State.editLine
  dsimp only
  split
  · exact setLines_cacheOnly ..
  · exact .refl s

theorem dropCopy_cacheOnly (s : State) (c line : Nat) : CacheOnly c s (s.dropCopy c line) := by
  unfold State.dropCopy
  split
  · exact setLines_cacheOnly ..
  · exact .refl s

/-! ### Room for a line (06 R142) -/

/-- A bank of the cluster can take the line: it has a copy already, or no other line of its set is in the bank. -/
def Cluster.roomFor (x : Cluster) (line : Nat) : Prop :=
  x.lines.find line ≠ none ∨
    ∃ b ∈ x.ways, ∀ p ∈ x.lines, cacheSet p.1 = cacheSet line → p.1 ≠ line → p.2.bank ≠ b

/-- The bank a line is placed in, and the machine once the bank is free. -/
def State.placeFor (s : State) (c line : Nat) : State × Option Nat :=
  match (s.cluster c).lines.find line with
  | some l => (s, some l.bank)
  | none => s.makeRoom c line

theorem placeFor_cacheOnly (s : State) (c line : Nat) : CacheOnly c s (s.placeFor c line).1 := by
  unfold State.placeFor
  split
  · exact .refl s
  · exact makeRoom_cacheOnly ..

theorem placeFor_room {s : State} {c line : Nat} (h : (s.cluster c).roomFor line) : ∃ b, s.placeFor c line = (s, some b) := by
  unfold State.placeFor
  cases hl : (s.cluster c).lines.find line with
  | some l => exact ⟨_, rfl⟩
  | none =>
    obtain ⟨b, hb, hfree⟩ := h.resolve_left fun hne => hne hl
    dsimp only
    unfold State.makeRoom
    dsimp only
    generalize hused : ((s.cluster c).lines.filter fun p => cacheSet p.1 == cacheSet line && p.1 != line).map (fun p => p.2.bank) =
      used
    have hin : used.contains b = false := by
      rw [← hused, ← Bool.not_eq_true, List.contains_iff_mem]
      intro hm
      obtain ⟨p, hp, hbank⟩ := List.mem_map.mp hm
      obtain ⟨hp, hset⟩ := List.mem_filter.mp hp
      simp only [Bool.and_eq_true, beq_iff_eq, bne_iff_ne] at hset
      exact hfree p hp hset.1 hset.2 hbank
    have hsome : ((s.cluster c).ways.find? fun b => !used.contains b).isSome = true :=
      List.find?_isSome.mpr ⟨b, hb, by rw [hin]; rfl⟩
    obtain ⟨w, hw⟩ := Option.isSome_iff_exists.mp hsome
    rw [hw]
    exact ⟨w, rfl⟩

section install
variable (s : State) (c line vi : Nat) (st : CState) (data : Line) (poison : Bool) (granted expiry rvt : Nat) (hint : BitVec 2)

theorem install_eq : s.install c line vi st data poison granted expiry rvt hint =
    (let t := (s.placeFor c line).1
     match (s.placeFor c line).2 with
     | none => t
     | some b =>
       let l : CLine := { bank := b, st := st, data := data, poison := poison, keep := hint == 2,
                          used := if hint == 1 then 0 else t.clk, granted := granted, expiry := expiry, rvt := rvt, vi := vi }
       t.setCluster c { t.cluster c with lines := (t.cluster c).lines.put line l }) := by
  unfold State.install State.placeFor
  cases (s.cluster c).lines.find line with
  | some l => rfl
  | none => rcases s.makeRoom c line with ⟨t, _ | b⟩ <;> rfl

theorem install_cacheOnly : CacheOnly c s (s.install c line vi st data poison granted expiry rvt hint) := by
  rw [install_eq]
  dsimp only
  split
  · exact placeFor_cacheOnly ..
  · exact (placeFor_cacheOnly ..).trans (setLines_cacheOnly ..)

variable {s c line} in
/-- Where there is room the line is held as granted. -/
theorem install_room (h : (s.cluster c).roomFor line) : ∃ l,
    ((s.install c line vi st data poison granted expiry rvt hint).cluster c).lines.find line = some l ∧ l.st = st ∧
      l.data = data ∧ l.poison = poison ∧ l.expiry = expiry ∧ l.granted = granted ∧ l.rvt = rvt := by
  obtain ⟨b, hb⟩ := placeFor_room h
  rw [install_eq, hb]
  exact ⟨_, by rw [cluster_setCluster]; exact Table.find_put_same .., rfl, rfl, rfl, rfl, rfl, rfl⟩

end install

/-! ### The steps of a reply at a cluster -/

/-- The cluster's wait for the line is over (05 R113). -/
def State.replyAwaited (s : State) (m : Msg) (ev : Event) : State :=
  if m.peer < 72 && (ev == .gets || ev == .getm || ev == .getu) then
    s.setCluster m.peer { s.cluster m.peer with mshr := (s.cluster m.peer).mshr.filter fun q => q.line != m.line }
  else s

/-- The state a grant gives the line. -/
def State.grantOf (s : State) (m : Msg) : Option CState := CState.ofCode (((s.imageOf m.line).grant.getD m.cls 0).toNat)

/-- The hint of the access that a reply is for (07 R182). -/
def Msg.hint (m : Msg) : BitVec 2 :=
  match m.mop with
  | some op => op.hint
  | none => 0

/-- A copy that the reply brings is installed; one that no way can take is given back at once. -/
def State.replyInstalled (s : State) (m : Msg) (st : CState) : State :=
  let t := s.install m.peer m.line m.vi st m.data m.poison m.granted m.expiry m.rvt m.hint
  if ((t.cluster m.peer).lines.find m.line).isNone then t.sendHome .puts m.part m.line m.peer id else t

/-- The grant of a copy that the cluster holds already. -/
def replyMerged (m : Msg) (st : CState) (l : CLine) : CLine :=
  { l with st := st, granted := m.granted, rvt := m.rvt, vi := m.vi,
           data := if m.excl then l.data else Line.merge l.data m.data m.mask,
           poison := l.poison && (m.excl || m.mask != BitVec.allOnes 128) }

/-- What the reply does to the cluster's copy (05 R121). -/
def State.replyCached (s : State) (m : Msg) (ev : Event) : State :=
  if m.peer < 72 && ((ev == .gets || ev == .getm || ev == .getu) && m.cls != 4) && m.cls < 5 then
    match s.grantOf m with
    | none => s
    | some st => if m.full then s.replyInstalled m st else s.editLine m.peer m.line (replyMerged m st)
  else if m.cls == 4 then s.dropCopy m.peer m.line
  else s

theorem replyMsg_eq (s : State) (m : Msg) (ev : Event) : replyMsg s m ev =
    (let t := (s.replyAwaited m ev).replyCached m ev
     match m.ref with
     | some r => replyToInstr t m ev r
     | none => if 78 ≤ m.peer && m.peer < 90 then t.answerPeer m ev else t) := rfl

theorem replyAwaited_rest (s : State) (m : Msg) (ev : Event) :
    s.replyAwaited m ev = { s with clusters := (s.replyAwaited m ev).clusters } := by
  unfold State.replyAwaited
  split <;> rfl

/-- The lines and banks stand. -/
theorem replyAwaited_cluster (s : State) (m : Msg) (ev : Event) : (s.replyAwaited m ev).cluster m.peer =
    { s.cluster m.peer with mshr := ((s.replyAwaited m ev).cluster m.peer).mshr } := by
  unfold State.replyAwaited
  split
  · rw [cluster_setCluster]
  · rfl

theorem replyAwaited_mshr (s : State) {m : Msg} {ev : Event} (hc : m.peer < 72) (hev : ev = .gets ∨ ev = .getm ∨ ev = .getu) :
    ∀ q ∈ ((s.replyAwaited m ev).cluster m.peer).mshr, q.line ≠ m.line := by
  have hgo : (decide (m.peer < 72) && (ev == .gets || ev == .getm || ev == .getu)) = true := by simpa [hc, or_assoc] using hev
  rw [State.replyAwaited, if_pos hgo, cluster_setCluster]
  intro q hq
  simpa using (List.mem_filter.mp hq).2

theorem replyInstalled_cacheOnly (s : State) (m : Msg) (st : CState) : CacheOnly m.peer s (s.replyInstalled m st) := by
  unfold State.replyInstalled
  dsimp only
  split
  · exact (install_cacheOnly ..).send _
  · exact install_cacheOnly ..

theorem replyCached_cacheOnly (s : State) (m : Msg) (ev : Event) : CacheOnly m.peer s (s.replyCached m ev) := by
  unfold State.replyCached
  split
  · split
    · exact .refl s
    · split
      · exact replyInstalled_cacheOnly ..
      · exact editLine_cacheOnly ..
  · split
    · exact dropCopy_cacheOnly ..
    · exact .refl s

/-- A reply that leaves the line uncached. -/
theorem replyCached_uncached (s : State) {m : Msg} (ev : Event) (hc : m.peer < 72) (h4 : m.cls = 4) :
    ((s.replyCached m ev).cluster m.peer).lines.find m.line = none := by
  have hno : (decide (m.peer < 72) && ((ev == .gets || ev == .getm || ev == .getu) && m.cls != 4) && decide (m.cls < 5)) = false := by
    simp [h4]
  rw [State.replyCached, hno, if_neg Bool.false_ne_true, if_pos (beq_iff_eq.mpr h4), State.dropCopy, if_pos hc, cluster_setCluster]
  exact find_drop_same ..

section caching
variable {s : State} {m : Msg} {ev : Event} {st : CState} (hc : m.peer < 72) (hev : ev = .gets ∨ ev = .getm ∨ ev = .getu)
  (hcls : m.cls < 4) (hgrant : s.grantOf m = some st)
include hc hev hcls hgrant

theorem replyCached_grants : s.replyCached m ev =
    if m.full then s.replyInstalled m st else s.editLine m.peer m.line (replyMerged m st) := by
  have hgo : (decide (m.peer < 72) && ((ev == .gets || ev == .getm || ev == .getu) && m.cls != 4) && decide (m.cls < 5)) = true := by
    have h4 : m.cls ≠ 4 := by omega
    have h5 : m.cls < 5 := by omega
    simpa [hc, h4, h5, or_assoc] using hev
  rw [State.replyCached, hgo, if_pos rfl, hgrant]

/-- A grant with the line's data installs the line. -/
theorem replyCached_installs (hfull : m.full = true) (hroom : (s.cluster m.peer).roomFor m.line) : ∃ l,
    ((s.replyCached m ev).cluster m.peer).lines.find m.line = some l ∧ l.st = st ∧ l.data = m.data ∧ l.poison = m.poison ∧
      l.expiry = m.expiry ∧ l.granted = m.granted ∧ l.rvt = m.rvt := by
  rw [replyCached_grants hc hev hcls hgrant, if_pos hfull, State.replyInstalled]
  obtain ⟨l, hl, hrest⟩ := install_room m.vi st m.data m.poison m.granted m.expiry m.rvt m.hint hroom
  rw [hl]
  exact ⟨l, hl, hrest⟩

/-- An exclusive grant without data keeps the copy's data. -/
theorem replyCached_keeps (hfull : m.full = false) (hexcl : m.excl = true) {l : CLine}
    (hl : (s.cluster m.peer).lines.find m.line = some l) : ∃ k,
    ((s.replyCached m ev).cluster m.peer).lines.find m.line = some k ∧ k.data = l.data ∧ k.poison = l.poison := by
  rw [replyCached_grants hc hev hcls hgrant, hfull, if_neg Bool.false_ne_true, editLine_some hl, cluster_setCluster]
  refine ⟨replyMerged m st l, Table.find_put_same .., ?_, ?_⟩
  · simp only [replyMerged, hexcl, if_true]
  · simp only [replyMerged, hexcl, Bool.true_or, Bool.and_true]

end caching

end Sys2Proof.Machine
end

section
/-!
A reply at the instruction it serves (07 R173, R183; 12 R300, R303).
-/
namespace Sys2Proof.Machine

open Sys2Proof.Safety

/-! ### Combined requests -/

/-- The reference r names the request q of the operation op, in the group g. -/
structure Names (s : State) (r : Ref) (g : Group) (op : MemOp) (q : LineReq) : Prop where
  group : s.group r.core r.grp = some g
  req : (g.entry r.pos r.place).bind (fun e => e.req r.idx) = some (op, q)

theorem Names.reqOf {s : State} {r : Ref} {g : Group} {op : MemOp} {q : LineReq} (h : Names s r g op q) :
    s.reqOf r = some (op, q) := by
  rw [State.reqOf, h.group]
  exact h.req

theorem exists_names {s : State} {r : Ref} {op : MemOp} {q : LineReq} (h : s.reqOf r = some (op, q)) : ∃ g, Names s r g op q := by
  obtain ⟨g, hg, hq⟩ := Option.bind_eq_some_iff.mp h
  exact ⟨g, hg, hq⟩

theorem Names.kept {s t : State} {r : Ref} {g : Group} {op : MemOp} {q : LineReq} (h : Names s r g op q)
    (hg : t.groups = s.groups) : Names t r g op q := ⟨by rw [State.group, hg]; exact h.group, h.req⟩

theorem setReq_req {e : Entry} {i : Nat} {op : MemOp} {q : LineReq} (h : e.req i = some (op, q)) (x : LineReq) :
    (e.setReq i x).req i = some (op, x) := by
  unfold Entry.req Entry.setReq at *
  split at h
  next m hs ea reqs hop =>
    obtain ⟨y, hy, heq⟩ := Option.map_eq_some_iff.mp h
    obtain ⟨rfl, rfl⟩ := Prod.mk.inj heq
    obtain ⟨hlt, -⟩ := List.getElem?_eq_some_iff.mp hy
    simp only [List.getElem?_set_self hlt, Option.map_some]
  · cases h

/-- A changed request does not change which part of the instruction it is. -/
theorem setReq_found (e : Entry) (i : Nat) (x : LineReq) (pos : Nat) (p : Place) :
    ((e.setReq i x).pos == pos && (e.setReq i x).place == p && (match (e.setReq i x).op with
      | .trap .. => false
      | _ => true)) = (e.pos == pos && e.place == p && (match e.op with
      | .trap .. => false
      | _ => true)) := by
  unfold Entry.setReq
  split
  next m hs ea reqs hop => simp only [hop]
  · rfl

theorem find?_map_of_pred {α : Type} {p : α → Bool} {F : α → α} (h : ∀ a, p (F a) = p a) (xs : List α) :
    (xs.map F).find? p = (xs.find? p).map F := by
  rw [List.find?_map]
  congr 2
  exact funext h

/-- The entry of a request, with the request changed. -/
theorem entry_editEntry {g : Group} {pos : Nat} {p : Place} {e : Entry} (h : g.entry pos p = some e) (i : Nat) (x : LineReq) :
    (g.editEntry pos p fun e => e.setReq i x).entry pos p = some (e.setReq i x) := by
  unfold Group.entry Group.editEntry at *
  dsimp only
  rw [find?_map_of_pred, h, Option.map_some]
  · have hat := List.find?_some h
    simp only [Bool.and_eq_true, beq_iff_eq] at hat
    simp only [hat.1.1, hat.1.2, beq_self_eq_true, Bool.and_self, if_true]
  · intro a
    split
    · exact setReq_found ..
    · rfl

theorem editReq_rest (s : State) (r : Ref) (f : Group → MemOp → LineReq → Group × LineReq) :
    s.editReq r f = { s with groups := (s.editReq r f).groups } := by
  unfold State.editReq
  split
  · rfl
  · split <;> rfl

@[simp] theorem editReq_clusters (s : State) (r : Ref) (f : Group → MemOp → LineReq → Group × LineReq) :
    (s.editReq r f).clusters = s.clusters := by rw [editReq_rest]

/-- An edit that leaves the group's instructions changes the request it names, and of its group what it says. -/
theorem editReq_names {s : State} {r : Ref} {g : Group} {op : MemOp} {q : LineReq} (h : Names s r g op q)
    (f : Group → MemOp → LineReq → Group × LineReq) (hrob : (f g op q).1.rob = g.rob) :
    ∃ g', Names (s.editReq r f) r g' op (f g op q).2 ∧ g' = { (f g op q).1 with rob := g'.rob } := by
  obtain ⟨e, he, hreq⟩ := Option.bind_eq_some_iff.mp h.req
  have he' : (f g op q).1.entry r.pos r.place = some e := by rw [Group.entry, hrob]; exact he
  refine ⟨(f g op q).1.editEntry r.pos r.place fun e => e.setReq r.idx (f g op q).2, ⟨?_, ?_⟩, rfl⟩
  · rw [State.editReq, h.group]
    dsimp only
    rw [h.req]
    exact setGroup_find_same ..
  · rw [entry_editEntry he', Option.bind_some]
    exact setReq_req hreq _

/-- An answered request. -/
def LineReq.answered (q : LineReq) (as : List Acc) (fail : Option (BitVec 8)) (rvt ns : Nat) : LineReq :=
  { q with stat := .done, accs := as, fail := fail, rvt := rvt, ns := ns }

section edits
variable {s : State} {r : Ref} {g : Group} {op : MemOp} {q : LineReq} (h : Names s r g op q)
include h

theorem answer_names (as : List Acc) (fail : Option (BitVec 8)) (rvt : Nat) : ∃ g',
    Names (s.answer r as fail rvt) r g' op (q.answered as fail rvt s.ns) ∧ g' = { g with rob := g'.rob } :=
  editReq_names h _ rfl

theorem again_names : ∃ g', Names (s.editReq r fun g _ q => (g, q.again)) r g' op { q with stat := .todo } :=
  (editReq_names h _ rfl).imp fun _ hn => hn.1

theorem seeVt_names (vt : Option (Nat × Nat × Nat)) : ∃ g', Names (s.seeVt r vt) r g' op q ∧ g'.floor = g.floor := by
  obtain ⟨g', hn, hg⟩ := editReq_names h (fun g _ q => (g.seeVt vt, q)) (by unfold Group.seeVt; split <;> rfl)
  refine ⟨g', hn, ?_⟩
  rw [hg]
  show (g.seeVt vt).floor = _
  unfold Group.seeVt
  split <;> rfl

end edits

theorem answer_clusters (s : State) (r : Ref) (as : List Acc) (fail : Option (BitVec 8)) (rvt : Nat) :
    (s.answer r as fail rvt).clusters = s.clusters := editReq_clusters ..

theorem seeVt_clusters (s : State) (r : Ref) (vt : Option (Nat × Nat × Nat)) : (s.seeVt r vt).clusters = s.clusters :=
  editReq_clusters ..

/-! ### The replies -/

theorem copyPoison_iff (s : State) (m : Msg) : s.copyPoison m = true ↔
    ∃ l, (s.cluster m.peer).lines.find m.line = some l ∧ l.poison = true := by
  rw [State.copyPoison]
  cases (s.cluster m.peer).lines.find m.line with
  | none => simp
  | some l => simp

/-- The poison that a read or a write at its home reports. -/
def State.replyPoison (s : State) (m : Msg) (ev : Event) : Option (BitVec 8) :=
  if m.poison || (ev == .getu && s.copyPoison m) then some causePoison else none

/-- Replies that a home answered for the whole access. -/
def Msg.atHome (m : Msg) (ev : Event) : Bool := ev == .ncr || ev == .ncw || ev == .atom || m.cls == 4

section reply
variable {s : State} {m : Msg} {ev : Event} {r : Ref} {g : Group} {op : MemOp} {q : LineReq}

theorem replyToInstr_eq (h : s.reqOf r = some (op, q)) : replyToInstr s m ev r =
    (if q.stat == .asked then permissionReply s m r op q
     else if m.cls == 5 then s.editReq r fun g _ q => (g, q.again)
     else if m.cls == 6 then s.answer r q.accs (some causeProtection) 0
     else if op.kind.isWrite then
       if m.excl && !m.atHome ev then s.performHere m.peer m.line r m.vt
       else
         let s := (s.answer r (if ev == .atom then m.accs else q.accs) (s.replyPoison m ev) m.rvt).seeVt r m.vt
         if ev == .atom then s.editReq r fun g _ q => ((g.seeRead m.rvt).raiseFloor m.granted, { q with ns := m.granted }) else s
     else
       (s.answer r (readAccs op m.data q.accs) (s.replyPoison m ev) m.rvt).editReq r fun g _ q =>
         let g := g.seeRead m.rvt
         (if m.atHome ev then g.raiseFloor m.granted else g, { q with ns := m.granted })) := by
  rw [replyToInstr, h]
  rfl

variable (h : Names s r g op q)
include h

theorem replyToInstr_retry (h5 : m.cls = 5) : (replyToInstr s m ev r).reqOf r = some (op, { q with stat := .todo }) := by
  obtain ⟨g', hn⟩ := again_names h
  rw [replyToInstr_eq h.reqOf]
  by_cases ha : (q.stat == .asked) = true
  · rw [if_pos ha, permissionReply]
    simp only [h5, Nat.reduceBEq, Bool.false_eq_true, if_false, if_true]
    exact hn.reqOf
  · simp only [ha, h5, beq_self_eq_true, Bool.false_eq_true, if_false, if_true]
    exact hn.reqOf

theorem replyToInstr_refused (h6 : m.cls = 6) : (replyToInstr s m ev r).reqOf r =
    some (op, q.answered q.accs (some causeProtection) 0 s.ns) := by
  obtain ⟨g', hn, -⟩ := answer_names h q.accs (some causeProtection) 0
  rw [replyToInstr_eq h.reqOf]
  by_cases ha : (q.stat == .asked) = true
  · rw [if_pos ha, permissionReply]
    simp only [h6, beq_self_eq_true, if_true]
    exact hn.reqOf
  · simp only [ha, h6, Nat.reduceBEq, beq_self_eq_true, Bool.false_eq_true, if_false, if_true]
    exact hn.reqOf

variable (hcls : m.cls < 5)
include hcls

/-- The reply to a write that asked for permission. -/
theorem replyToInstr_permission (ha : q.stat = .asked) : (replyToInstr s m ev r).clusters = s.clusters ∧
    ((m.poison || s.copyPoison m) = true ∧ op.kind ≠ .czero →
      (replyToInstr s m ev r).reqOf r = some (op, q.answered q.accs (some causePoison) 0 s.ns)) ∧
    ((m.poison || s.copyPoison m) = false ∨ op.kind = .czero →
      (replyToInstr s m ev r).reqOf r = some (op, { q with stat := .granted })) := by
  have h6 : (m.cls == 6) = false := beq_false_of_ne (by omega)
  have h5 : (m.cls == 5) = false := beq_false_of_ne (by omega)
  rw [replyToInstr_eq h.reqOf, if_pos (beq_iff_eq.mpr ha), permissionReply, h6, h5, if_neg Bool.false_ne_true,
    if_neg Bool.false_ne_true]
  by_cases hbad : ((m.poison || s.copyPoison m) && op.kind != .czero) = true
  · obtain ⟨hp, hz⟩ := Bool.and_eq_true_iff.mp hbad
    obtain ⟨g', hn, -⟩ := answer_names h q.accs (some causePoison) 0
    rw [if_pos hbad]
    refine ⟨answer_clusters .., fun _ => hn.reqOf, fun hno => ?_⟩
    rcases hno with hno | hno
    · exact absurd (hp.symm.trans hno) (by decide)
    · exact absurd hno (bne_iff_ne.mp hz)
  · obtain ⟨g', hn, -⟩ := editReq_names h (fun g _ q => (g, { q with stat := .granted })) rfl
    rw [if_neg hbad]
    refine ⟨editReq_clusters .., fun ⟨hp, hz⟩ => absurd (Bool.and_eq_true_iff.mpr ⟨hp, bne_iff_ne.mpr hz⟩) hbad, fun _ => hn.reqOf⟩

variable (ha : q.stat ≠ .asked)
include ha

/-- A reply to a read: the values, and the times it carries. -/
theorem replyToInstr_read (hw : op.kind.isWrite = false) : (replyToInstr s m ev r).clusters = s.clusters ∧
    (replyToInstr s m ev r).reqOf r = some (op, q.answered (readAccs op m.data q.accs) (s.replyPoison m ev) m.rvt m.granted) ∧
    ∃ g', (replyToInstr s m ev r).group r.core r.grp = some g' ∧ g'.vtDev = max g.vtDev m.rvt ∧
      g'.vtSys = max g.vtSys m.rvt ∧ g'.floor = if m.atHome ev then max g.floor m.granted else g.floor := by
  have h6 : (m.cls == 6) = false := beq_false_of_ne (by omega)
  have h5 : (m.cls == 5) = false := beq_false_of_ne (by omega)
  rw [replyToInstr_eq h.reqOf, beq_false_of_ne ha, h6, h5, hw]
  simp only [Bool.false_eq_true, if_false]
  obtain ⟨g1, hn1, hg1⟩ := answer_names h (readAccs op m.data q.accs) (s.replyPoison m ev) m.rvt
  have hrob : ∀ g : Group, (if m.atHome ev then (g.seeRead m.rvt).raiseFloor m.granted else g.seeRead m.rvt).rob = g.rob :=
    fun g => by split <;> rfl
  obtain ⟨g2, hn2, hg2⟩ := editReq_names hn1 (fun g _ q =>
    let g := g.seeRead m.rvt
    (if m.atHome ev then g.raiseFloor m.granted else g, { q with ns := m.granted })) (hrob g1)
  refine ⟨(editReq_clusters ..).trans (answer_clusters ..), hn2.reqOf, g2, hn2.group, ?_⟩
  rw [hg2, hg1]
  dsimp only
  split <;> exact ⟨rfl, rfl, rfl⟩

/-- A reply to a write or an atomic that was done at its home, or that brings no permission. -/
theorem replyToInstr_written (hw : op.kind.isWrite = true) (hx : (m.excl && !m.atHome ev) = false) :
    (replyToInstr s m ev r).clusters = s.clusters ∧
    (replyToInstr s m ev r).reqOf r = some (op, q.answered (if ev = .atom then m.accs else q.accs) (s.replyPoison m ev) m.rvt
      (if ev = .atom then m.granted else s.ns)) ∧
    (ev = .atom → ∃ g', (replyToInstr s m ev r).group r.core r.grp = some g' ∧ g'.floor = max g.floor m.granted) := by
  have h6 : (m.cls == 6) = false := beq_false_of_ne (by omega)
  have h5 : (m.cls == 5) = false := beq_false_of_ne (by omega)
  rw [replyToInstr_eq h.reqOf, beq_false_of_ne ha, h6, h5, hw, hx]
  simp only [Bool.false_eq_true, if_false, if_true, beq_iff_eq]
  obtain ⟨g1, hn1, hg1⟩ := answer_names h (if ev = .atom then m.accs else q.accs) (s.replyPoison m ev) m.rvt
  obtain ⟨g2, hn2, hfloor⟩ := seeVt_names hn1 m.vt
  have hclusters := (seeVt_clusters (s.answer r (if ev = .atom then m.accs else q.accs) (s.replyPoison m ev) m.rvt) r m.vt).trans
    (answer_clusters ..)
  by_cases hat : ev = .atom
  · obtain ⟨g3, hn3, hg3⟩ := editReq_names hn2
      (fun g _ q => ((g.seeRead m.rvt).raiseFloor m.granted, { q with ns := m.granted })) rfl
    simp only [hat, if_true] at *
    refine ⟨(editReq_clusters ..).trans hclusters, hn3.reqOf, fun _ => ⟨g3, hn3.group, ?_⟩⟩
    rw [hg3]
    show max g2.floor m.granted = _
    rw [hfloor, hg1]
  · simp only [hat, if_false] at *
    exact ⟨hclusters, hn2.reqOf, fun h => h.elim⟩

/-- A write with permission performs on the cluster's copy. -/
theorem replyToInstr_performs (hw : op.kind.isWrite = true) (hx : m.excl = true) (hh : m.atHome ev = false) {l : CLine}
    (hl : (s.cluster m.peer).lines.find m.line = some l) (hp : l.poison = false ∨ op.kind = .czero) :
    (replyToInstr s m ev r).reqOf r = some (op, q.answered (performAccs op l.data q.accs).2 none 0 s.ns) ∧
    ∃ k, ((replyToInstr s m ev r).cluster m.peer).lines.find m.line = some k ∧ k.st = .m ∧
      k.data = (performAccs op l.data q.accs).1 ∧ k.poison = false := by
  have h6 : (m.cls == 6) = false := beq_false_of_ne (by omega)
  have h5 : (m.cls == 5) = false := beq_false_of_ne (by omega)
  have hok : (l.poison && op.kind != .czero) = false := by
    rcases hp with hp | hp
    · rw [hp, Bool.false_and]
    · rw [hp, bne_self_eq_false, Bool.and_false]
  rw [replyToInstr_eq h.reqOf, beq_false_of_ne ha, h6, h5, hw, hx, hh]
  simp only [Bool.false_eq_true, if_false, if_true, Bool.not_false, Bool.and_self]
  rw [State.performHere, hl, h.reqOf]
  simp only [hok, Bool.false_eq_true, if_false, editLine_some hl]
  generalize hk : ({ l with st := .m, data := (performAccs op l.data q.accs).1, poison := false, used := s.clk,
                             vi := ((s.group r.core r.grp).map (·.vi)).getD 0 } : CLine) = k
  generalize hu : s.setCluster m.peer { s.cluster m.peer with lines := (s.cluster m.peer).lines.put m.line k } = u
  have hku : Names u r g op q := h.kept (by rw [← hu]; rfl)
  have hns : u.ns = s.ns := by rw [← hu]; rfl
  obtain ⟨g1, hn1, -⟩ := answer_names hku (performAccs op l.data q.accs).2 none 0
  obtain ⟨g2, hn2, -⟩ := seeVt_names hn1 (some (m.vt.getD (u.ns, u.ns, u.ns)))
  refine ⟨hns ▸ hn2.reqOf, k, ?_, ?_⟩
  · rw [State.cluster, seeVt_clusters, answer_clusters, ← State.cluster, ← hu, cluster_setCluster]
    exact Table.find_put_same ..
  · rw [← hk]
    exact ⟨rfl, rfl, rfl⟩

end reply

end Sys2Proof.Machine
end

section
/-!
The whole of a reply: its cluster and its instruction (05 R113, R121, R123, R125, R140; 12 R300).
-/
namespace Sys2Proof.Machine

open Sys2Proof.Safety

theorem cluster_congr {s t : State} (h : t.clusters = s.clusters) (c : Nat) : t.cluster c = s.cluster c := by
  rw [State.cluster, h]
  rfl

theorem performHere_mshr (s : State) (c line : Nat) (r : Ref) (vt : Option (Nat × Nat × Nat)) :
    ((s.performHere c line r vt).cluster c).mshr = (s.cluster c).mshr := by
  unfold State.performHere
  split
  · split
    · rw [cluster_congr (answer_clusters ..)]
    · dsimp only
      rw [cluster_congr (seeVt_clusters ..), cluster_congr (answer_clusters ..)]
      exact (editLine_cacheOnly ..).mshr
  · rw [cluster_congr (editReq_clusters ..)]
  · rfl

theorem permissionReply_clusters (s : State) (m : Msg) (r : Ref) (op : MemOp) (q : LineReq) :
    (permissionReply s m r op q).clusters = s.clusters := by
  unfold permissionReply
  split
  · exact answer_clusters ..
  · split
    · exact editReq_clusters ..
    · split
      · exact answer_clusters ..
      · exact editReq_clusters ..

/-- What a reply does for its instruction ends no wait of a cluster, and begins none. -/
theorem replyToInstr_mshr (s : State) (m : Msg) (ev : Event) (r : Ref) :
    ((replyToInstr s m ev r).cluster m.peer).mshr = (s.cluster m.peer).mshr := by
  cases hr : s.reqOf r with
  | none => rw [replyToInstr, hr]
  | some x =>
    obtain ⟨op, q⟩ := x
    rw [replyToInstr_eq hr]
    dsimp only
    split
    · rw [cluster_congr (permissionReply_clusters ..)]
    · split
      · rw [cluster_congr (editReq_clusters ..)]
      · split
        · rw [cluster_congr (answer_clusters ..)]
        · split
          · split
            · exact performHere_mshr ..
            · split
              · rw [cluster_congr (editReq_clusters ..), cluster_congr (seeVt_clusters ..), cluster_congr (answer_clusters ..)]
              · rw [cluster_congr (seeVt_clusters ..), cluster_congr (answer_clusters ..)]
          · rw [cluster_congr (editReq_clusters ..), cluster_congr (answer_clusters ..)]

theorem answerPeer_clusters (s : State) (m : Msg) (ev : Event) : (s.answerPeer m ev).clusters = s.clusters := by
  unfold State.answerPeer
  split <;> rfl

/-- The machine when the cluster has taken a reply, before the instruction does. -/
def State.replyTaken (s : State) (m : Msg) (ev : Event) : State := (s.replyAwaited m ev).replyCached m ev

section taken
variable (s : State) (m : Msg) (ev : Event)

theorem replyTaken_groups : (s.replyTaken m ev).groups = s.groups := by
  rw [State.replyTaken, (replyCached_cacheOnly ..).groups, replyAwaited_rest]

theorem replyTaken_ns : (s.replyTaken m ev).ns = s.ns := by
  rw [State.replyTaken, (replyCached_cacheOnly ..).ns, replyAwaited_rest]
  rfl

theorem replyAwaited_lines : ((s.replyAwaited m ev).cluster m.peer).lines = (s.cluster m.peer).lines := by
  rw [replyAwaited_cluster]

theorem replyAwaited_roomFor (h : (s.cluster m.peer).roomFor m.line) : ((s.replyAwaited m ev).cluster m.peer).roomFor m.line := by
  rw [replyAwaited_cluster]
  exact h

theorem replyAwaited_grantOf : (s.replyAwaited m ev).grantOf m = s.grantOf m := by
  rw [replyAwaited_rest]
  rfl

theorem replyMsg_ref {r : Ref} (hr : m.ref = some r) : replyMsg s m ev = replyToInstr (s.replyTaken m ev) m ev r := by
  rw [replyMsg_eq, hr]
  rfl

theorem replyMsg_noRef (hr : m.ref = none) : (replyMsg s m ev).clusters = (s.replyTaken m ev).clusters := by
  rw [replyMsg_eq, hr]
  dsimp only
  split
  · exact answerPeer_clusters ..
  · rfl

/-- A reply ends the cluster's wait. -/
theorem replyMsg_mshr (hc : m.peer < 72) (hev : ev = .gets ∨ ev = .getm ∨ ev = .getu) :
    ∀ q ∈ ((replyMsg s m ev).cluster m.peer).mshr, q.line ≠ m.line := by
  have htaken : ((replyMsg s m ev).cluster m.peer).mshr = ((s.replyAwaited m ev).cluster m.peer).mshr := by
    refine Eq.trans ?_ (replyCached_cacheOnly (s.replyAwaited m ev) m ev).mshr
    cases hr : m.ref with
    | none => rw [cluster_congr (replyMsg_noRef s m ev hr)]; rfl
    | some r => rw [replyMsg_ref s m ev hr]; exact replyToInstr_mshr ..
  rw [htaken]
  exact replyAwaited_mshr s hc hev

variable {s m ev}

theorem replyTaken_uncached (hc : m.peer < 72) (h4 : m.cls = 4) :
    ((s.replyTaken m ev).cluster m.peer).lines.find m.line = none := replyCached_uncached _ ev hc h4

section caching
variable {st : CState} (hc : m.peer < 72) (hev : ev = .gets ∨ ev = .getm ∨ ev = .getu) (hcls : m.cls < 4)
  (hgrant : s.grantOf m = some st)
include hc hev hcls hgrant

theorem replyTaken_installs (hfull : m.full = true) (hroom : (s.cluster m.peer).roomFor m.line) : ∃ l,
    ((s.replyTaken m ev).cluster m.peer).lines.find m.line = some l ∧ l.st = st ∧ l.data = m.data ∧ l.poison = m.poison ∧
      l.expiry = m.expiry ∧ l.granted = m.granted ∧ l.rvt = m.rvt :=
  replyCached_installs hc hev hcls ((replyAwaited_grantOf s m ev).trans hgrant) hfull (replyAwaited_roomFor s m ev hroom)

/-- After an exclusive grant the cluster holds the line: as it came, or as it was held. -/
theorem replyTaken_holds (hexcl : m.excl = true) (hroom : (s.cluster m.peer).roomFor m.line) {v : Line} {p : Bool}
    (hv : if m.full then v = m.data ∧ p = m.poison
      else ∃ l, (s.cluster m.peer).lines.find m.line = some l ∧ v = l.data ∧ p = l.poison) : ∃ l,
    ((s.replyTaken m ev).cluster m.peer).lines.find m.line = some l ∧ l.data = v ∧ l.poison = p := by
  by_cases hfull : m.full = true
  · rw [if_pos hfull] at hv
    obtain ⟨rfl, rfl⟩ := hv
    obtain ⟨l, hl, -, hd, hp, -⟩ := replyTaken_installs hc hev hcls hgrant hfull hroom
    exact ⟨l, hl, hd, hp⟩
  · rw [if_neg hfull] at hv
    obtain ⟨l, hl, rfl, rfl⟩ := hv
    exact replyCached_keeps hc hev hcls ((replyAwaited_grantOf s m ev).trans hgrant) (Bool.eq_false_iff.mpr hfull) hexcl
      (by rw [replyAwaited_lines]; exact hl)

end caching

/-- The poison of the answer, as the cluster's copy shows it when the instruction has its answer. -/
theorem replyPoison_iff {t : State} (ht : t.clusters = s.clusters) {asked : Prop} (ha : ¬ asked) :
    let bad := m.poison = true ∨ ((ev = .getu ∨ asked) ∧ ∃ l, (t.cluster m.peer).lines.find m.line = some l ∧ l.poison = true)
    (bad → s.replyPoison m ev = some causePoison) ∧ (¬ bad → s.replyPoison m ev = none) := by
  rw [cluster_congr ht, ← copyPoison_iff, or_iff_left ha]
  have hiff : (m.poison || (ev == .getu && s.copyPoison m)) = true ↔ m.poison = true ∨ (ev = .getu ∧ s.copyPoison m = true) := by simp
  rw [State.replyPoison]
  exact ⟨fun hb => if_pos (hiff.mpr hb), fun hb => if_neg fun h => hb (hiff.mp h)⟩

theorem atHome_iff (m : Msg) (ev : Event) : m.atHome ev = true ↔ ev = .ncr ∨ ev = .ncw ∨ ev = .atom ∨ m.cls = 4 := by
  simp [Msg.atHome, or_assoc]

end taken
end Sys2Proof.Machine
end

section
/-!
What a home does by itself: a lease that ends (05 R471) and an eviction (R111, R472).
-/
namespace Sys2Proof.Machine

open Sys2Proof.Safety

/-! ### Leases (05 R471) -/

/-- LEASEX that a home raises. -/
def leasexMsg (s : State) (part line : Nat) : Msg := Msg.blank (.home .leasex) part line (s.homeAgent part line)

/-- An event of no transaction that the image does not define, on a line whose records are sound. -/
theorem homeLookup_undefined {s : State} {m : Msg} {ev : Event} (ha : ev.isAnswer = false) (hputs : ev ≠ .puts) (hgetu : ev ≠ .getu)
    (hsound : dirRead (s.home m.part m.line).dir = .clean (s.home m.part m.line).dir)
    (hwhole : (s.home m.part m.line).ueData = none)
    (hdef : (s.imageOf m.line).defined (Dir.ofBits (s.home m.part m.line).dir).state ev = false) :
    homeLookup s ev m = undefinedEntry s ev m (Dir.ofBits (s.home m.part m.line).dir).state := by
  have hstale : (s.home m.part m.line).stale ev m = false := by rw [HomeLine.stale, ha, Bool.false_and]
  have hcount : s.countData ev m = (s, m) := by simp only [State.countData, hwhole]
  have hsame : soundLookup s ev m = applyEntry 4 s ev m := by simp [soundLookup, hputs, hgetu]
  rw [← applyEntry_undefined (withDir_self s m) 3 rfl rfl hdef, ← hsame]
  simp only [homeLookup, hstale, Bool.false_eq_true, if_false, hsound, hcount]

def leasexOwn (e : Event) : Bool := e == .leasex

section lease
variable {s : State} {part line : Nat}

theorem leasex_waited {j : Nat} (h : s.homeOwn part line leasexOwn = some j) : s.leasex part line = s.deliverAt j := by
  rw [State.leasex, show s.homeOwn part line (fun e => e == .leasex) = some j from h]

variable (hown : s.homeOwn part line leasexOwn = none)
include hown

theorem leasex_early (h : ∀ e, (s.home part line).lease = some e → s.ns ≤ e) : s.leasex part line = s := by
  have hover : s.leaseOver part line = false := by
    rw [State.leaseOver]
    cases hl : (s.home part line).lease with
    | none => rfl
    | some e => simpa using h e hl
  rw [State.leasex, show s.homeOwn part line (fun e => e == .leasex) = none from hown]
  simp only [hover, Bool.not_false, if_true]

/-- A lease that is over: LEASEX is looked up and the record cleared. -/
theorem leasex_over {e : Nat} (h : (s.home part line).lease = some e) (he : e < s.ns) : s.leasex part line =
    (homeLookup s .leasex (leasexMsg s part line)).setHome part line
      { (homeLookup s .leasex (leasexMsg s part line)).home part line with lease := none } := by
  have hover : s.leaseOver part line = true := by
    rw [State.leaseOver, h]
    exact decide_eq_true he
  rw [State.leasex, show s.homeOwn part line (fun e => e == .leasex) = none from hown]
  simp only [hover, Bool.not_true, Bool.false_eq_true, if_false]
  rfl

theorem leasex_homeOnly {e : Nat} (h : (s.home part line).lease = some e) (he : e < s.ns) :
    HomeOnly s (s.leasex part line) part line ∧ ((s.leasex part line).home part line).lease = none := by
  rw [leasex_over hown h he]
  exact ⟨(homeLookup_homeOnly s .leasex (leasexMsg s part line)).trans (setHome_homeOnly ..), by rw [home_setHome]⟩

/-- Under an image that leaves LEASEX undefined the line is poisoned with an event (R125; log 55). -/
theorem leasex_undefined {e : Nat} (h : (s.home part line).lease = some e) (he : e < s.ns)
    (hsound : dirRead (s.home part line).dir = .clean (s.home part line).dir) (hwhole : (s.home part line).ueData = none)
    (hdef : (s.imageOf line).defined (Dir.ofBits (s.home part line).dir).state .leasex = false) :
    let t := s.leasex part line
    let slice := s.homeSlice part line
    (t.home part line).poison = true ∧ (t.home part line).dir = (s.home part line).dir ∧ t.net = s.net ∧
      (t.mgmt.evWait.get (slice / 48) []).getLast? = some (eventRecord 2 (slice / 48)
        (slice + s.imageSlot line * 256 + (Dir.ofBits (s.home part line).dir).state * 2048) (BitVec.ofNat 64 line) 9 s.ns) := by
  have hlook : homeLookup s .leasex (leasexMsg s part line) =
      undefinedEntry s .leasex (leasexMsg s part line) (Dir.ofBits (s.home part line).dir).state :=
    homeLookup_undefined (m := leasexMsg s part line) (by decide) (by decide) (by decide) hsound hwhole hdef
  obtain ⟨hp, hdir, hnet, hev⟩ := undefinedEntry_spec s .leasex (leasexMsg s part line) (Dir.ofBits (s.home part line).dir).state
  rw [← hlook] at hp hdir hnet hev
  intro t slice
  have ht : t = _ := leasex_over hown h he
  rw [ht, home_setHome]
  exact ⟨hp, hdir, hnet.trans (List.append_nil _), hev⟩

end lease

/-! ### Evictions (05 R111, R472) -/

/-- A fold that keeps one of what it has seen ends with one of the list. -/
theorem foldl_pick_mem {α : Type} {f : Option α → α → Option α} (hf : ∀ b x, f b x = b ∨ f b x = some x) (xs : List α)
    (b : Option α) {a : α} (h : xs.foldl f b = some a) : a ∈ xs ∨ b = some a := by
  induction xs generalizing b with
  | nil => exact .inr h
  | cons x r ih =>
    rcases ih _ h with hr | hr
    · exact .inl (List.mem_cons_of_mem _ hr)
    · rcases hf b x with hb | hb
      · exact .inr (hb.symm.trans hr)
      · exact .inl (by cases hb.symm.trans hr; exact List.mem_cons_self)

section evict
variable {s : State} {part line : Nat}

/-- The victim is another line of the set, one that is not passed over. -/
theorem victim_spec {j : Nat} (h : s.victim part line = some j) :
    j ≠ line ∧ s.passedOver part j = false ∧ j ∈ s.setLines part line := by
  have hmem : j ∈ (s.setLines part line).filter fun l => l != line && !s.passedOver part l := by
    unfold State.victim at h
    generalize ((s.setLines part line).filter fun l => l != line && !s.passedOver part l) = can at h ⊢
    dsimp only at h
    cases hf : can.find? fun l => (s.home part l).evict with
    | some k =>
      rw [hf] at h
      cases h
      exact List.mem_of_find?_eq_some hf
    | none =>
      rw [hf] at h
      refine List.mem_of_mem_filter ((foldl_pick_mem (fun b l => ?_) _ none h).resolve_right nofun)
      cases b with
      | none => exact .inr rfl
      | some k => dsimp only; split <;> simp
  obtain ⟨hin, hok⟩ := List.mem_filter.mp hmem
  simp only [Bool.and_eq_true, bne_iff_ne, Bool.not_eq_true'] at hok
  exact ⟨hok.1, hok.2, hin⟩

theorem passedOver_leased {e : Nat} (h : (s.home part line).lease = some e) (he : s.ns ≤ e) : s.passedOver part line = true := by
  rw [State.passedOver, h]
  simp only [he, decide_true, Bool.true_or]

section passes
variable (h : s.passedOver part line = true)
include h

theorem sliceEvict_waits (hv : s.victim part line = none) : s.sliceEvict part line = s := by
  rw [State.sliceEvict, if_pos h, hv]

theorem sliceEvict_passes {j : Nat} (hv : s.victim part line = some j) : s.sliceEvict part line = s.evictLine part j := by
  rw [State.sliceEvict, if_pos h, hv]

end passes

theorem sliceEvict_evicts (h : s.passedOver part line = false) : s.sliceEvict part line = s.evictLine part line := by
  rw [State.sliceEvict, h, if_neg Bool.false_ne_true]

/-- Something about the line is in progress at its home. -/
theorem homeQuiet_iff : s.homeQuiet part line = false ↔ (s.home part line).queue ≠ [] ∨ (s.home part line).held ≠ [] ∨
    (s.home part line).ueWait ≠ [] ∨ (s.imageOf line).inTransient (Dir.ofBits (s.home part line).dir).state = true := by
  rw [State.homeQuiet]
  simp
  tauto

variable (hpass : s.passedOver part line = false)
include hpass

theorem evictLine_busy (h : s.homeQuiet part line = false) : s.evictLine part line = s := by
  rw [State.evictLine]
  simp only [hpass, h, Bool.not_false, Bool.false_eq_true, if_false, if_true]

variable (hquiet : s.homeQuiet part line = true)
include hquiet

theorem evictLine_recalls (h : (s.imageOf line).inNocopy (Dir.ofBits (s.home part line).dir).state = false ∨
    (Dir.ofBits (s.home part line).dir).h = true) :
    s.evictLine part line = (s.setHome part line { s.home part line with evict := true }).recallLine part line := by
  have hgo : (!(s.imageOf line).inNocopy (Dir.ofBits (s.home part line).dir).state || (Dir.ofBits (s.home part line).dir).h) = true := by
    simpa using h
  rw [State.evictLine]
  simp only [hpass, hquiet, hgo, Bool.not_true, Bool.false_eq_true, if_false, if_true]

/-- The line that no agent holds goes: its copy, its records, and the read-only mark with an event. -/
theorem evictLine_empties (hno : (s.imageOf line).inNocopy (Dir.ofBits (s.home part line).dir).state = true)
    (hh : (Dir.ofBits (s.home part line).dir).h = false) : s.evictLine part line =
    (let t := (s.dropHomeCopy part line (s.home part line)).1.setHome part line
       { HomeLine.zero with lease := (s.home part line).lease }
     if s.readOnly part line then t.event (t.homeSlice part line / 48) 0x0A 0 (BitVec.ofNat 64 line) 0 else t) := by
  rw [State.evictLine]
  simp only [hpass, hquiet, hno, hh, Bool.not_true, Bool.or_self, Bool.false_eq_true, if_false]
  rfl

end evict

/-- Beside DRAM, its marks, and what goes with a write of it nothing has changed. -/
structure MemOnly (s t : State) : Prop where
  rest : t = { s with mem := t.mem, poison := t.poison, ue := t.ue, ce := t.ce, units := t.units, acct := t.acct,
                      corrected := t.corrected,
                      mgmt := { s.mgmt with evWait := t.mgmt.evWait } }

theorem MemOnly.trans {s t u : State} (h : MemOnly s t) (k : MemOnly t u) : MemOnly s u := ⟨by rw [k.rest, h.rest]⟩

theorem FillOnly.memOnly {s t : State} {line : Nat} (h : FillOnly s t line) : MemOnly s t := ⟨by rw [h.rest]⟩

theorem openFor_rest (s : State) (a : Nat) : s.openFor a = { s with units := (s.openFor a).units } := by
  unfold State.openFor
  split
  · rfl
  · dsimp only; split <;> rfl

theorem writeBytes_memOnly (s : State) (c : Nat) (bs : List Byte) : MemOnly s (s.writeBytes c bs) := ⟨rfl⟩

theorem writeBytes_openFor (s : State) (c : Nat) (bs : List Byte) (line : Nat) :
    ∃ mem units, (s.writeBytes c bs).openFor line = { s with mem := mem, units := units } :=
  ⟨_, _, openFor_rest (s.writeBytes c bs) line⟩

theorem writeMemLine_memOnly (s : State) (part line : Nat) (l : Line) (p : Bool) : MemOnly s (s.writeMemLine part line l p) := by
  unfold State.writeMemLine
  cases s.dpaKind part line with
  | dram c =>
    dsimp only
    generalize Line.toBytes l = bs
    obtain ⟨mem, units, hw⟩ := writeBytes_openFor s c bs line
    rw [hw]
    exact ⟨rfl⟩
  | host a => exact writeBytes_memOnly ..
  | view _ => exact ⟨rfl⟩
  | unbacked => exact ⟨rfl⟩

theorem writeMemLine_mem {s : State} {part line c : Nat} (h : s.dpaKind part line = .dram c) (l : Line) (p : Bool) :
    (s.writeMemLine part line l p).mem = Memory.setBytes s.mem c (Line.toBytes l) := by
  rw [State.writeMemLine, h]
  dsimp only
  generalize Line.toBytes l = bs
  rw [openFor_rest]
  rfl

theorem dropHomeCopy_memOnly (s : State) (part line : Nat) (h : HomeLine) : MemOnly s (s.dropHomeCopy part line h).1 := by
  unfold State.dropHomeCopy
  dsimp only
  split
  · exact (writeMemLine_memOnly ..).trans (count_fillOnly _ _ _ _ line).memOnly
  · exact ⟨rfl⟩

/-- Dirty data goes back to DRAM; clean data is dropped. -/
theorem dropHomeCopy_mem (s : State) (part line : Nat) (h : HomeLine) :
    (∀ x, h.here = true → h.dirty = true → s.dpaKind part line = .dram x →
      (s.dropHomeCopy part line h).1.mem = Memory.setBytes s.mem x (Line.toBytes h.data)) ∧
    (h.here = false ∨ h.dirty = false → (s.dropHomeCopy part line h).1.mem = s.mem) := by
  unfold State.dropHomeCopy
  refine ⟨fun x hh hd hk => ?_, fun hno => ?_⟩
  · simp only [hh, hd, Bool.and_self, if_true]
    rw [count_mem, writeMemLine_mem hk]
  · have hb : (h.here && h.dirty) = false := by
      rcases hno with hno | hno
      · rw [hno, Bool.false_and]
      · rw [hno, Bool.and_false]
    simp only [hb, Bool.false_eq_true, if_false]

/-- An eviction of a line that nobody holds. -/
theorem evictLine_spec {s : State} {part line : Nat} (hpass : s.passedOver part line = false)
    (hquiet : s.homeQuiet part line = true) (hno : (s.imageOf line).inNocopy (Dir.ofBits (s.home part line).dir).state = true)
    (hh : (Dir.ofBits (s.home part line).dir).h = false) :
    let t := s.evictLine part line
    let h := s.home part line
    t.home part line = { HomeLine.zero with lease := h.lease } ∧
    (∀ n, n ≠ homeKey part line → t.homes.find n = s.homes.find n) ∧
    (∀ x, h.here = true → h.dirty = true → s.dpaKind part line = .dram x →
      t.mem = Memory.setBytes s.mem x (Line.toBytes h.data)) ∧
    (h.here = false ∨ h.dirty = false → t.mem = s.mem) ∧
    (s.readOnly part line = true → (t.mgmt.evWait.get (s.homeSlice part line / 48) []).getLast? =
      some (eventRecord 0x0A (s.homeSlice part line / 48) 0 (BitVec.ofNat 64 line) 0 s.ns)) := by
  intro t h
  obtain ⟨hdram, hclean⟩ := dropHomeCopy_mem s part line h
  have hrest := (dropHomeCopy_memOnly s part line h).rest
  have ht : t = _ := evictLine_empties hpass hquiet hno hh
  generalize hu : (s.dropHomeCopy part line (s.home part line)).1 = u at ht hdram hclean hrest
  have hhomes : u.homes = s.homes := by rw [hrest]
  have hslice : u.homeSlice part line = s.homeSlice part line := by rw [hrest]; rfl
  have hns : u.ns = s.ns := by rw [hrest]; rfl
  generalize hw : u.setHome part line { HomeLine.zero with lease := h.lease } = w at ht
  have hhome : w.home part line = { HomeLine.zero with lease := h.lease } := by rw [← hw]; exact home_setHome ..
  have hothers : ∀ n, n ≠ homeKey part line → w.homes.find n = s.homes.find n := fun n hn => by
    rw [← hw, ← hhomes]
    exact Table.find_put_other _ _ hn
  have hmem : w.mem = u.mem := by rw [← hw]; rfl
  have hwslice : w.homeSlice part line = s.homeSlice part line := by rw [← hslice, ← hw]; rfl
  have hwns : w.ns = s.ns := by rw [← hns, ← hw]; rfl
  rw [← hmem] at hdram hclean
  dsimp only at ht
  cases hmark : s.readOnly part line with
  | false =>
    rw [hmark, if_neg Bool.false_ne_true] at ht
    rw [ht]
    exact ⟨hhome, hothers, hdram, hclean, fun h => absurd h Bool.false_ne_true⟩
  | true =>
    rw [hmark, if_pos rfl] at ht
    rw [ht]
    refine ⟨hhome, hothers, hdram, hclean, fun _ => ?_⟩
    rw [State.event, hwslice, hwns]
    dsimp only
    rw [Table.get_put_same, List.getLast?_concat]

end Sys2Proof.Machine
end

section
/-!
O55: messages at agents, and what a home does by itself.
-/
namespace Sys2Proof.Machine

open Sys2Proof.Safety

section arrival
variable {s : State} {k : Nat} {m : Msg} (hm : s.net[k]? = some m) (hmay : s.mayDeliver k = true)
include hm hmay

theorem exec_invalidation (hk : m.kind = .inv) :
    exec (.invalidation k) s = .next (clusterMsg { s with net := s.net.eraseIdx k } m) := by
  refine (show execInvalidation k s = _ from arrives_agent hm hmay (by rw [hk]; rfl) (by rw [hk]; exact nofun)).trans ?_
  rw [deliver, hk]

theorem exec_update (hk : m.kind = .upd) : exec (.update k) s = .next (clusterMsg { s with net := s.net.eraseIdx k } m) := by
  refine (show execUpdate k s = _ from arrives_agent hm hmay (by rw [hk]; rfl) (by rw [hk]; exact nofun)).trans ?_
  rw [deliver, hk]

theorem exec_forward {e : Event} (hk : m.kind = .fwd e) :
    exec (.forward k) s = .next (clusterMsg { s with net := s.net.eraseIdx k } m) := by
  refine (show execForward k s = _ from arrives_agent hm hmay (by rw [hk]) (by rw [hk]; exact nofun)).trans ?_
  rw [deliver, hk]

theorem exec_reply {e : Event} (hk : m.kind = .reply e) :
    exec (.reply k) s = .next (replyMsg { s with net := s.net.eraseIdx k } m e) := by
  refine (show execReply k s = _ from arrives_agent hm hmay (by rw [hk]) (by rw [hk]; exact nofun)).trans ?_
  rw [deliver, hk]

theorem exec_replicaFill {e : Event} (hk : m.kind = .fill e) :
    exec (.replicaFill k) s = .next (replicaMsg { s with net := s.net.eraseIdx k } m) := by
  refine (show execReplicaFill k s = _ from arrives_agent hm hmay (by rw [hk]) (by rw [hk]; exact nofun)).trans ?_
  rw [deliver, hk]

theorem exec_backInvalidation (hk : m.kind = .bisnp) :
    exec (.backInvalidation k) s = .next (deliver { s with net := s.net.eraseIdx k } m) :=
  show execBackInvalidation k s = _ from arrives_agent hm hmay (by rw [hk]; rfl) (by rw [hk]; exact nofun)

end arrival

section cluster
variable {u : State} {m : Msg}

/-- The machine with other lines in the message's cluster. -/
def State.withLines (u : State) (m : Msg) (ls : Table CLine) : State := u.setCluster m.peer { u.cluster m.peer with lines := ls }

theorem clusterMsg_inv_none (hk : m.kind = .inv) (h : u.copyFor m = none) : clusterMsg u m = u.send (ackTo m) := by
  rw [clusterMsg_eq, hk, h]

theorem clusterMsg_inv_some (hk : m.kind = .inv) {l : CLine} (h : u.copyFor m = some l) : clusterMsg u m =
    (u.withLines m ((u.cluster m.peer).lines.drop m.line)).send (if l.st = .m then dataTo m l else ackTo m) := by
  rw [clusterMsg_eq, hk, h]
  simp only [beq_iff_eq]
  rfl

theorem clusterMsg_upd_other (hk : m.kind = .upd) (h : ∀ l, u.copyFor m = some l → l.st ≠ .s ∧ l.st ≠ .u) :
    clusterMsg u m = u.send (ackTo m) := by
  rw [clusterMsg_eq, hk]
  cases hl : u.copyFor m with
  | none => rfl
  | some l =>
    obtain ⟨hs, hu⟩ := h l hl
    simp [hs, hu]

theorem clusterMsg_upd_copy (hk : m.kind = .upd) {l : CLine} (h : u.copyFor m = some l) (hst : l.st = .s ∨ l.st = .u) :
    clusterMsg u m = (u.withLines m ((u.cluster m.peer).lines.put m.line
      { l with data := Line.merge l.data m.data m.mask, poison := l.poison && !(m.mask == BitVec.allOnes 128) })).send (ackTo m) := by
  have hgo : (l.st == .s || l.st == .u) = true := by simpa using hst
  rw [clusterMsg_eq, hk, h]
  dsimp only
  rw [if_pos hgo, editLine_some (copyFor_find h)]
  rfl

theorem clusterMsg_fwd_other {e : Event} (hk : m.kind = .fwd e) (h : ∀ l, u.copyFor m = some l → l.st ≠ .m ∧ l.st ≠ .e) :
    clusterMsg u m = u.send (ackTo m) := by
  rw [clusterMsg_eq, hk]
  cases hl : u.copyFor m with
  | none => rfl
  | some l =>
    obtain ⟨hs, hu⟩ := h l hl
    simp [hs, hu]

theorem clusterMsg_fwd_owner {e : Event} (hk : m.kind = .fwd e) {l : CLine} (h : u.copyFor m = some l)
    (hst : l.st = .m ∨ l.st = .e) : clusterMsg u m =
    (if e = .gets ∨ e = .ncr then u.withLines m ((u.cluster m.peer).lines.put m.line { l with st := .s })
      else u.withLines m ((u.cluster m.peer).lines.drop m.line)).send (dataTo m l) := by
  have hgo : (l.st == .m || l.st == .e) = true := by simpa using hst
  rw [clusterMsg_eq, hk, h]
  dsimp only
  rw [if_pos hgo, editLine_some (copyFor_find h)]
  simp only [Bool.or_eq_true, beq_iff_eq]
  rfl

end cluster

/-! ### A reply that serves no instruction -/

section noRef
variable {u : State} {m : Msg} (e : Event) (hr : m.ref = none) (hc : m.peer < 72)
include hr hc

theorem replyMsg_uncached (h4 : m.cls = 4) : ((replyMsg u m e).cluster m.peer).lines.find m.line = none := by
  rw [cluster_congr (replyMsg_noRef u m e hr)]
  exact replyTaken_uncached hc h4

theorem replyMsg_installs (hev : e = .gets ∨ e = .getm ∨ e = .getu) (hcls : m.cls < 4) {st : CState}
    (hgrant : u.grantOf m = some st) (hfull : m.full = true) (hroom : (u.cluster m.peer).roomFor m.line) : ∃ l,
    ((replyMsg u m e).cluster m.peer).lines.find m.line = some l ∧ l.st = st ∧ l.data = m.data ∧ l.poison = m.poison ∧
      l.expiry = m.expiry ∧ l.granted = m.granted ∧ l.rvt = m.rvt := by
  rw [cluster_congr (replyMsg_noRef u m e hr)]
  exact replyTaken_installs hc hev hcls hgrant hfull hroom

end noRef

/-! ### The request that a reply serves -/

/-- The reply brings poison, or the cluster's own copy is poisoned where it counts (07 R173, R183). -/
def ReplyBad (t : State) (m : Msg) (e : Event) (q : LineReq) : Prop :=
  m.poison = true ∨ ((e = .getu ∨ q.stat = .asked) ∧ ∃ l, (t.cluster m.peer).lines.find m.line = some l ∧ l.poison = true)

/-- The poison that the answer reports. -/
def ReportsPoison (t : State) (m : Msg) (e : Event) (q : LineReq) (p : Option (BitVec 8)) : Prop :=
  (ReplyBad t m e q → p = some causePoison) ∧ (¬ ReplyBad t m e q → p = none)

def AnsweredAtHome (m : Msg) (e : Event) : Prop := e = .ncr ∨ e = .ncw ∨ e = .atom ∨ m.cls = 4

/-- What a reply does for the request q of op that r names: u is the machine before it, t after. -/
structure ReplyServes (u t : State) (m : Msg) (e : Event) (r : Ref) (op : MemOp) (q : LineReq) : Prop where
  retry : m.cls = 5 → t.reqOf r = some (op, { q with stat := .todo })
  refused : m.cls = 6 → t.reqOf r = some (op, q.answered q.accs (some causeProtection) 0 u.ns)
  permission : q.stat = .asked → m.cls < 5 →
    (ReplyBad t m e q ∧ op.kind ≠ .czero → t.reqOf r = some (op, q.answered q.accs (some causePoison) 0 u.ns)) ∧
    (¬ ReplyBad t m e q ∨ op.kind = .czero → t.reqOf r = some (op, { q with stat := .granted }))
  read : q.stat ≠ .asked → m.cls < 5 → op.kind.isWrite = false →
    (∃ p, ReportsPoison t m e q p ∧ t.reqOf r = some (op, q.answered (readAccs op m.data q.accs) p m.rvt m.granted)) ∧
    (∀ g, u.group r.core r.grp = some g → ∃ g', t.group r.core r.grp = some g' ∧ g'.vtDev = max g.vtDev m.rvt ∧
      g'.vtSys = max g.vtSys m.rvt ∧
      (AnsweredAtHome m e → g'.floor = max g.floor m.granted) ∧ (¬ AnsweredAtHome m e → g'.floor = g.floor))
  written : q.stat ≠ .asked → m.cls < 5 → op.kind.isWrite = true → m.excl = false ∨ AnsweredAtHome m e →
    (∃ p, ReportsPoison t m e q p ∧ t.reqOf r = some (op, q.answered (if e = .atom then m.accs else q.accs) p m.rvt
      (if e = .atom then m.granted else u.ns))) ∧
    (∀ g, u.group r.core r.grp = some g → e = .atom → ∃ g', t.group r.core r.grp = some g' ∧ g'.floor = max g.floor m.granted)
  performed : ∀ st v p, q.stat ≠ .asked → m.peer < 72 ∧ (e = .gets ∨ e = .getm ∨ e = .getu) ∧ m.cls < 4 →
    u.grantOf m = some st → m.excl = true → op.kind.isWrite = true → (u.cluster m.peer).roomFor m.line →
    (if m.full then v = m.data ∧ p = m.poison
      else ∃ l, (u.cluster m.peer).lines.find m.line = some l ∧ v = l.data ∧ p = l.poison) →
    p = false ∨ op.kind = .czero →
    t.reqOf r = some (op, q.answered (performAccs op v q.accs).2 none 0 u.ns) ∧
    ∃ l, (t.cluster m.peer).lines.find m.line = some l ∧ l.st = .m ∧ l.data = (performAccs op v q.accs).1 ∧ l.poison = false

theorem replyServes {u : State} {m : Msg} {r : Ref} {op : MemOp} {q : LineReq} (e : Event) (hr : m.ref = some r)
    (hq : u.reqOf r = some (op, q)) : ReplyServes u (replyMsg u m e) m e r op q := by
  obtain ⟨g, hu⟩ := exists_names hq
  have hn : Names (u.replyTaken m e) r g op q := hu.kept (replyTaken_groups u m e)
  have hns := replyTaken_ns u m e
  have hgroup : ∀ g', u.group r.core r.grp = some g' → g' = g := fun g' h => Option.some.inj (h.symm.trans hu.group)
  rw [replyMsg_ref u m e hr]
  constructor
  case retry => exact replyToInstr_retry hn
  case refused => exact fun h6 => hns ▸ replyToInstr_refused hn h6
  case permission =>
    intro ha hcls
    obtain ⟨hcl, hbad, hok⟩ := replyToInstr_permission (ev := e) hn hcls ha
    have hiff : ReplyBad (replyToInstr (u.replyTaken m e) m e r) m e q ↔
        (m.poison || (u.replyTaken m e).copyPoison m) = true := by
      rw [ReplyBad, cluster_congr hcl, ← copyPoison_iff, Bool.or_eq_true, and_iff_right (.inr ha)]
    rw [hiff, Bool.not_eq_true, ← hns]
    exact ⟨hbad, hok⟩
  case read =>
    intro ha hcls hw
    obtain ⟨hcl, hreq, g', hg', hdev, hsys, hfloor⟩ := replyToInstr_read (ev := e) hn hcls ha hw
    refine ⟨⟨_, replyPoison_iff hcl ha, hreq⟩, fun g0 h0 => ?_⟩
    rw [hgroup g0 h0]
    refine ⟨g', hg', hdev, hsys, fun h => ?_, fun h => ?_⟩
    · rw [hfloor, if_pos ((atHome_iff m e).mpr h)]
    · rw [hfloor, if_neg fun hh => h ((atHome_iff m e).mp hh)]
  case written =>
    intro ha hcls hw hx
    have hx : (m.excl && !m.atHome e) = false := by
      rcases hx with hx | hx
      · rw [hx, Bool.false_and]
      · rw [(atHome_iff m e).mpr hx, Bool.not_true, Bool.and_false]
    obtain ⟨hcl, hreq, hfloor⟩ := replyToInstr_written (ev := e) hn hcls ha hw hx
    rw [hns] at hreq
    refine ⟨⟨_, replyPoison_iff hcl ha, hreq⟩, fun g0 h0 hat => ?_⟩
    rw [hgroup g0 h0]
    exact hfloor hat
  case performed =>
    rintro st v p ha ⟨hc, hev, hcls⟩ hgrant hx hw hroom hv hp
    obtain ⟨l, hl, rfl, rfl⟩ := replyTaken_holds hc hev hcls hgrant hx hroom hv
    have hhome : m.atHome e = false := by
      rw [← Bool.not_eq_true, atHome_iff]
      rcases hev with rfl | rfl | rfl <;> simp <;> omega
    rw [← hns]
    exact replyToInstr_performs hn (by omega) ha hw hx hhome hl hp

end Sys2Proof.Machine

namespace Sys2Proof

open Machine Safety

/-- Settles O55: messages at agents by their kinds, a reply by the line it leaves and the request it serves, and the home's own
leases and evictions by their cases. -/
theorem agentsAnswer : Obligations.AgentsAnswer := by
  unfold Obligations.AgentsAnswer
  intro s k
  refine ⟨fun hnone i hi => ?_, fun j m x hm hjk hx hfm hfx hp hl hq i hi => ?_, fun m hm hmay => ?_, fun part a => ?_⟩
  · obtain ⟨p, hp⟩ := exec_agentArrival hi s
    rw [hp, arrives_none p hnone]
  · obtain ⟨p, hexec⟩ := exec_agentArrival hi s
    rw [hexec, arrives_held p (mayDeliver_overtaking hm hjk hx hfm hfx hp hl hq)]
  · refine ⟨fun hk => ⟨fun h => ?_, fun l h => ?_⟩, fun hk => ⟨fun h => ?_, fun l h hst => ?_⟩,
      fun e hk => ⟨fun h => ?_, fun l h hst => ?_⟩, fun e hk => ?_, fun hk => ?_, fun e hk => ?_⟩
    · exact (exec_invalidation hm hmay hk).trans (congrArg _ (clusterMsg_inv_none hk h))
    · exact (exec_invalidation hm hmay hk).trans (congrArg _ (clusterMsg_inv_some hk h))
    · exact (exec_update hm hmay hk).trans (congrArg _ (clusterMsg_upd_other hk h))
    · exact (exec_update hm hmay hk).trans (congrArg _ (clusterMsg_upd_copy hk h hst))
    · exact (exec_forward hm hmay hk).trans (congrArg _ (clusterMsg_fwd_other hk h))
    · exact (exec_forward hm hmay hk).trans (congrArg _ (clusterMsg_fwd_owner hk h hst))
    · exact ⟨_, rfl, rfl, rfl, rfl, rfl, exec_replicaFill hm hmay hk⟩
    · exact (exec_backInvalidation hm hmay hk).trans (by rw [deliver, hk])
    · refine ⟨_, exec_reply hm hmay hk, replyMsg_mshr _ m e, fun hr hc h4 => ?_, fun st hcach hgrant hfull hroom hr => ?_,
        fun r op q hr hq => ?_⟩
      · exact replyMsg_uncached e hr hc h4
      · obtain ⟨hc, hev, hcls⟩ := hcach
        exact replyMsg_installs e hr hc hev hcls hgrant hfull hroom
      · have hserves := replyServes (u := { s with net := s.net.eraseIdx k }) e hr hq
        refine ⟨hserves.retry, hserves.refused, hserves.permission, fun ha hcls hw => ?_, hserves.written, hserves.performed⟩
        obtain ⟨hreq, hgroup⟩ := hserves.read ha hcls hw
        refine ⟨hreq, fun g hg => ?_⟩
        obtain ⟨g', hg', hdev, hsys, hhome, haway⟩ := hgroup g hg
        refine ⟨g', hg', hdev, hsys, ?_⟩
        split
        next h => exact hhome h
        next h => exact haway h
  · refine ⟨fun j h => ?_, fun hown h => ?_, fun e hown h he => ?_, fun hpass => ⟨fun hv => ?_, fun j hv => ?_⟩, fun hpass hbusy => ?_,
      fun e h he => passedOver_leased h he, fun hpass hidle => ⟨fun h => ?_, fun hno hh => ?_⟩⟩
    · exact congrArg _ (leasex_waited h)
    · exact congrArg _ (leasex_early hown h)
    · obtain ⟨honly, hlease⟩ := leasex_homeOnly hown h he
      refine ⟨_, rfl, honly, hlease, fun hsound hwhole hdef => ?_⟩
      obtain ⟨hp, hdir, hnet, hev⟩ := leasex_undefined hown h he hsound hwhole hdef
      exact ⟨hp, by rw [hdir], hnet, hev⟩
    · exact congrArg _ (sliceEvict_waits hpass hv)
    · exact ⟨congrArg _ (sliceEvict_passes hpass hv), victim_spec hv⟩
    · refine congrArg _ ((sliceEvict_evicts hpass).trans (evictLine_busy hpass (homeQuiet_iff.mpr hbusy)))
    · have hquiet : s.homeQuiet part (a / 128 * 128) = true := Decidable.of_not_not fun hq =>
        hidle (homeQuiet_iff.mp (Bool.not_eq_true _ ▸ hq))
      exact congrArg _ ((sliceEvict_evicts hpass).trans (evictLine_recalls hpass hquiet h))
    · have hquiet : s.homeQuiet part (a / 128 * 128) = true := Decidable.of_not_not fun hq =>
        hidle (homeQuiet_iff.mp (Bool.not_eq_true _ ▸ hq))
      exact ⟨_, congrArg Host.Outcome.next (sliceEvict_evicts hpass), evictLine_spec hpass hquiet hno hh⟩

end Sys2Proof
end

section
/-!
Forms that act once for their group (09 R228): what each outcome of the body makes of the machine.
-/
namespace Sys2Proof.Machine

open Sys2Proof.Safety

/-! ### The outcomes of a body -/

/-- What the machine answers to the outcome of a body that moves its stream on itself. -/
def Ctx.outcome (c : Ctx) (s : State) : Except Stop State → Host.Outcome State Fault Refusal
  | .ok t => .next t
  | .error (.wait w) => .next (c.block s w)
  | .error (.trap f) => .next (c.trapPath s f)

/-- What it answers to the outcome of a body after which the stream moves on. -/
def Ctx.answer (c : Ctx) (s : State) (r : Except Stop State) : Host.Outcome State Fault Refusal := c.outcome s (r.map c.finish)

theorem run_outcome {s : State} {c : Ctx} (hi : Issues s c) (body : Ctx → State → Except Stop State) :
    run s body = c.outcome s (body c s) := by
  cases h : body c s with
  | ok t => exact runWith_ok hi (allowed_all s c) h
  | error e =>
    cases e with
    | wait w => exact runWith_wait hi (allowed_all s c) h
    | trap f => exact runWith_trap hi (allowed_all s c) h

theorem runThen_answer {s : State} {c : Ctx} (hi : Issues s c) (body : Ctx → State → Except Stop State) :
    runThen s body = c.answer s (body c s) := run_outcome hi fun c s => (body c s).map c.finish

section once
variable {s : State} {c : Ctx} {q : Quals} {i : Instr} {body : Ctx → State → Except Stop State} (hi : Issues s c)
  (hrun : exec i s = runThen s (once q body))
include hi hrun

theorem exec_once (hq : c.active q ≠ 0) : exec i s = c.answer s (body c s) := by
  rw [hrun, runThen_answer hi, once_active hq]

theorem once_idles (hq : c.active q = 0) : Idles i s c :=
  ⟨_, by rw [hrun, runThen_answer hi, once_inactive hq]; rfl, finish_same hi⟩

end once

/-- The end of an instruction that left the issuing group as it was. -/
theorem finish_kept {u : State} {c : Ctx} (h : u.group c.iss.core c.iss.grp = some c.g) :
    GroupOnly c u (c.finish u) (groupAfter c c.g.arch []) := by
  rw [finish_eq h]
  simpa [groupAfter] using sweep_only u c _

section answers
variable {i : Instr} {s u : State} {c : Ctx}

theorem endsIn_kept (hu : u.group c.iss.core c.iss.grp = some c.g) (h : exec i s = c.answer s (.ok u)) :
    EndsIn i s u c c.g.arch [] := ⟨_, h, finish_kept hu⟩

theorem endsIn_putArch {a : Arch} (h : exec i s = c.answer s (.ok (c.putArch u a))) : EndsIn i s u c a [] :=
  ⟨_, h, finish_putArch a⟩

theorem setsP_of_setP {d : BitVec 6} {m x : Mask} (h : exec i s = c.answer s (.ok (c.putArch s (c.g.arch.setP d m x)))) :
    SetsP i s c d m x := ⟨_, writesP_setP _ d m x, endsIn_putArch h⟩

end answers

/-! ### Checks and waits -/

@[simp] theorem require_true (f : FaultInfo) : require true f = .ok () := rfl

@[simp] theorem require_false (f : FaultInfo) : require false f = .error (.trap f) := rfl

@[simp] theorem except_ok_bind {ε α β : Type} (a : α) (f : α → Except ε β) : ((.ok a : Except ε α) >>= f) = f a := rfl

@[simp] theorem except_error_bind {ε α β : Type} (e : ε) (f : α → Except ε β) :
    ((.error e : Except ε α) >>= f) = .error e := rfl

/-- Release at team scope (07 R181), which a push and a copy make first. -/
theorem releaseFirst_ok {c : Ctx} {s : State} {ord : BitVec 2} {sc : BitVec 3} (h : s.released c.g (scopeClass sc) = true) :
    c.releaseFirst s ord sc = .ok () := by simp [Ctx.releaseFirst, h]

theorem releaseFirst_wait {c : Ctx} {s : State} {ord : BitVec 2} {sc : BitVec 3} (ho : 2 ≤ ord.toNat)
    (h : s.released c.g (scopeClass sc) = false) : c.releaseFirst s ord sc = .error (.wait (.release (scopeClass sc))) := by
  simp [Ctx.releaseFirst, h, ho]

end Sys2Proof.Machine
end

section
/-!
Couplings (06 R159 to R161): what each form checks, and what it does once its checks pass.
-/
namespace Sys2Proof.Machine

open Sys2Proof.Safety

/-! ### The coupling that is named -/

theorem coupling_outside {s : State} {c : Ctx} {d : BitVec 6} (h : ∀ l, s.launch c.g = some l → l.hdr.nq ≤ d.toNat) :
    c.coupling s d = .error (.trap (FaultInfo.ofCause causeProtection)) := by
  unfold Ctx.coupling
  split
  next t l ht hl => rw [if_pos (h l hl)]
  next => rfl

theorem coupling_named {s : State} {c : Ctx} {d : BitVec 6} {t : Team} {l : Launch} (ht : s.team c.g = some t)
    (hl : s.launch c.g = some l) (hd : d.toNat < l.hdr.nq) :
    c.coupling s d = .ok (t, t.qs.getD d.toNat Coupling.zero) := by
  simp only [Ctx.coupling, ht, hl, if_neg (Nat.not_le.mpr hd)]

/-- An edit of the team of a group. -/
theorem editTeam_set {s : State} {g : Group} {t : Team} (ht : s.team g = some t) (f : Team → Team) :
    ∃ k, g.team = some k ∧ s.editTeam g f = { s with teams := s.teams.put k (f t) } := by
  unfold State.team at ht
  split at ht
  next k hk => exact ⟨k, hk, by simp only [State.editTeam, hk, ht]⟩
  next => cases ht

theorem editTeam_teamSet {s : State} {c : Ctx} {t : Team} (ht : s.team c.g = some t) (f : Team → Team) :
    TeamSet c s (s.editTeam c.g f) (f t) := by
  obtain ⟨k, hk, h⟩ := editTeam_set ht f
  rw [h]
  exact ⟨by simp [State.team, hk], fun j hj => Table.find_put_other _ _ fun e => hj (by rw [hk, e]), rfl⟩

theorem editTeam_group {s : State} {g : Group} (f : Team → Team) (core grp : Nat) :
    (s.editTeam g f).group core grp = s.group core grp := by
  unfold State.editTeam
  split
  · split <;> rfl
  · rfl

section sets
variable {i : Instr} {s : State} {c : Ctx} {t : Team} {d : BitVec 6} {x : Coupling} (hi : Issues s c) (ht : s.team c.g = some t)
include ht

include hi in
theorem setsCoupling (h : exec i s = c.answer s (.ok (c.setCoupling s d x))) : SetsCoupling i s c t d.toNat x c.g.arch :=
  ⟨_, editTeam_teamSet ht _, endsIn_kept ((editTeam_group _ _ _).trans (issues_group hi)) h⟩

theorem setsCoupling_putArch {a : Arch} (h : exec i s = c.answer s (.ok (c.putArch (c.setCoupling s d x) a))) :
    SetsCoupling i s c t d.toNat x a :=
  ⟨_, editTeam_teamSet ht _, endsIn_putArch h⟩

end sets

/-! ### The checks come first, then older work -/

/-- A coupling form traps QUEUE unless its checks pass, then waits for older work, and then acts. -/
def Ctx.checked (c : Ctx) (good : Bool) (act : Except Stop State) : Except Stop State :=
  if good then if c.g.rob = [] then act else .error (.wait .drained) else .error (.trap queueFault)

section checked
variable {i : Instr} {s : State} {c : Ctx} {good : Bool} {act : Except Stop State}
  (h : exec i s = c.answer s (c.checked good act))
include h

theorem checked_traps (hg : good = false) : Traps i s c (FaultInfo.ofCause causeQueue) := by
  rw [Ctx.checked, hg] at h
  exact h

theorem checked_waits (hg : good = true) (hr : c.g.rob ≠ []) : Waits i s c .drained := by
  rw [Ctx.checked, if_pos hg, if_neg hr] at h
  exact h

theorem checked_acts (hg : good = true) (hr : c.g.rob = []) : exec i s = c.answer s act := by
  rw [h, Ctx.checked, if_pos hg, if_pos hr]

end checked

/-- The last check of a form, after which it waits for older work. -/
theorem checked_last (c : Ctx) (b : Bool) (k : Unit → Except Stop State) :
    (require b queueFault >>= fun _ => c.needIdle >>= k) = c.checked b (k ()) := by
  by_cases h : c.g.rob = []
  · cases b <;> simp [Ctx.checked, h, needIdle_ok]
  · cases b <;> simp [Ctx.checked, h, needIdle_wait]

/-- A check before others. -/
theorem checked_first (c : Ctx) (a b : Bool) (act : Except Stop State) :
    (require a queueFault >>= fun _ => c.checked b act) = c.checked (a && b) act := by
  cases a <;> simp [Ctx.checked]

/-! ### The seven forms -/

/-- Each form acts once, and looks for its coupling before anything else. -/
theorem couplingForms_once (q : Quals) (d a b : BitVec 6) :
    ∀ i ∈ [Instr.qpush q d a, .qpushTry q d a b, .qinit q d a b, .qallow q d a, .qclose q d] ++ [.qpop q a d, .qpopTry q a d b],
      ∃ rest : Team × Coupling → Ctx → State → Except Stop State,
        ∀ s, exec i s = runThen s (once q fun c s => c.coupling s d >>= fun x => rest x c s) := by
  simp only [List.cons_append, List.nil_append, List.forall_mem_cons]
  exact ⟨⟨_, fun s => rfl⟩, ⟨_, fun s => rfl⟩, ⟨_, fun s => rfl⟩, ⟨_, fun s => rfl⟩, ⟨_, fun s => rfl⟩, ⟨_, fun s => rfl⟩,
    ⟨_, fun s => rfl⟩, fun _ h => absurd h List.not_mem_nil⟩

section forms
variable {s : State} {c : Ctx} {q : Quals} {d a b : BitVec 6} {t : Team} {x : Coupling} (hi : Issues s c) (hq : c.active q ≠ 0)
  (hx : c.coupling s d = .ok (t, x))
include hi hq hx

/-- The checks of QINIT (R161): no coupling is open there, or one that is closed and empty; its operands are in range; and there is
FIFO storage for it. -/
def Coupling.canOpen (x : Coupling) (t : Team) (n w : DWord) : Bool :=
  (!x.opened || (x.closed && x.occ == 0)) &&
    ((1 ≤ n.toNat && n.toNat ≤ 1024 && bitsOf w 15 0 < t.groups.length && bitsOf w 31 16 < t.groups.length) &&
      (bitsOf w 63 33 == 0 && (x.stored || (t.qs.filter (·.stored)).length < 24 * t.fifo.length)))

theorem exec_qinit {n w : DWord} (hn : ReadsS c a n) (hw : ReadsS c b w) : exec (.qinit q d a b) s =
    c.answer s (c.checked (x.canOpen t n w) (.ok (c.setCoupling s d
      ⟨true, false, w.getLsbD 32, n.toNat, bitsOf w 15 0, bitsOf w 31 16, n.toNat, 0, [], true⟩))) := by
  rw [exec_once hi (body := _) rfl hq]
  congr 1
  simp only [hx, readsS_ok hn, readsS_ok hw, except_ok_bind, checked_last, checked_first, Coupling.canOpen]

theorem exec_qallow {n : DWord} (hn : ReadsS c a n) : exec (.qallow q d a) s =
    c.answer s (c.checked ((x.opened && x.cons == c.g.gidx && x.defer) && decide (n.toNat ≤ x.ret))
      (.ok (c.setCoupling s d { x with allow := x.allow + n.toNat, ret := x.ret - n.toNat }))) := by
  rw [exec_once hi (body := _) rfl hq]
  congr 1
  simp only [hx, readsS_ok hn, except_ok_bind, checked_last, checked_first]

theorem exec_qclose : exec (.qclose q d) s =
    c.answer s (c.checked (x.opened && x.prod == c.g.gidx) (.ok (c.setCoupling s d { x with closed := true }))) := by
  rw [exec_once hi (body := _) rfl hq]
  congr 1
  simp only [hx, except_ok_bind, checked_last]

/-- The checks of a push (R161). -/
def Coupling.canPush (x : Coupling) (g : Group) : Bool := x.opened && !x.closed && x.prod == g.gidx

theorem exec_qpush {v : DWord} (hv : ReadsS c a v) : exec (.qpush q d a) s =
    c.answer s (c.checked (x.canPush c.g) (c.releaseFirst s 2 2 >>= fun _ =>
      if 0 < x.allow then .ok (c.setCoupling s d (x.push (v.setWidth 32))) else .error (.wait (.qRoom d.toNat)))) := by
  rw [exec_once hi (body := _) rfl hq]
  congr 1
  simp only [Ctx.pushQ, hx, readsS_ok hv, except_ok_bind, checked_last, Coupling.canPush]

theorem exec_qpushTry {v : DWord} (hv : ReadsS c a v) : exec (.qpushTry q d a b) s =
    c.answer s (c.checked (x.canPush c.g) (c.releaseFirst s 2 2 >>= fun _ =>
      if 0 < x.allow then
        .ok (c.putArch (c.setCoupling s d (x.push (v.setWidth 32))) (c.g.arch.setP b (c.active q) 0xFFFFFFFF))
      else .ok (c.putArch s (c.g.arch.setP b (c.active q) 0)))) := by
  rw [exec_once hi (body := _) rfl hq]
  congr 1
  simp only [Ctx.pushQ, hx, readsS_ok hv, except_ok_bind, checked_last, Coupling.canPush]
  by_cases h : 0 < x.allow <;> simp [h]

/-- The checks of a pop (R161). -/
def Coupling.canPop (x : Coupling) (g : Group) : Bool := x.opened && x.cons == g.gidx

/-- A pop from a coupling that has a handle. -/
theorem exec_qpop_some (hh : x.handles ≠ []) : exec (.qpop q a d) s = c.answer s (c.checked (x.canPop c.g)
    (.ok (c.putArch (c.setCoupling s d x.pop) (c.g.arch.setS a x.front)))) := by
  have hocc : 0 < x.occ := List.length_pos_iff.mpr hh
  rw [exec_once hi (body := _) rfl hq]
  congr 1
  simp only [Ctx.popQ, hx, hocc, except_ok_bind, checked_last, decide_true, Bool.true_or, if_true]
  rfl

theorem exec_qpopTry_some (hh : x.handles ≠ []) : exec (.qpopTry q a d b) s = c.answer s (c.checked (x.canPop c.g)
    (.ok (c.putArch (c.setCoupling s d x.pop) ((c.g.arch.setS a x.front).setP b (c.active q) 0xFFFFFFFF)))) := by
  have hocc : 0 < x.occ := List.length_pos_iff.mpr hh
  rw [exec_once hi (body := _) rfl hq]
  congr 1
  simp only [Ctx.popQ, hx, hocc, except_ok_bind, checked_last, decide_true, Bool.true_or, if_true]
  rfl

/-- A pop from an empty coupling: a closed one gives the end marker. -/
theorem exec_qpop_empty (hh : x.handles = []) : exec (.qpop q a d) s = c.answer s (c.checked (x.canPop c.g)
    (if x.closed = true then .ok (c.putArch s (c.g.arch.setS a (BitVec.allOnes 64)))
      else .error (.wait (.qData d.toNat)))) := by
  have hocc : ¬ 0 < x.occ := by simp [Coupling.occ, hh]
  rw [exec_once hi (body := _) rfl hq]
  congr 1
  simp only [Ctx.popQ, hx, hocc, except_ok_bind, checked_last, decide_false, Bool.false_or, if_false,
    Coupling.front, hh]
  cases x.closed <;> rfl

theorem exec_qpopTry_empty (hh : x.handles = []) : exec (.qpopTry q a d b) s = c.answer s (c.checked (x.canPop c.g)
    (if x.closed = true then
        .ok (c.putArch s ((c.g.arch.setS a (BitVec.allOnes 64)).setP b (c.active q) 0xFFFFFFFF))
      else .ok (c.putArch s (c.g.arch.setP b (c.active q) 0)))) := by
  have hocc : ¬ 0 < x.occ := by simp [Coupling.occ, hh]
  rw [exec_once hi (body := _) rfl hq]
  congr 1
  simp only [Ctx.popQ, hx, hocc, except_ok_bind, checked_last, decide_false, Bool.false_or, if_false,
    Coupling.front, hh]
  cases x.closed <;> rfl

end forms

/-! ### What the checks say -/

theorem canOpen_iff (x : Coupling) (t : Team) (n w : DWord) : x.canOpen t n w = true ↔
    (x.opened = false ∨ (x.closed = true ∧ x.handles = [])) ∧ 1 ≤ n.toNat ∧ n.toNat ≤ 1024 ∧ w.toNat % 2 ^ 16 < t.groups.length ∧
      w.toNat / 2 ^ 16 % 2 ^ 16 < t.groups.length ∧ w.toNat < 2 ^ 33 ∧
      (x.stored = true ∨ (t.qs.filter (·.stored)).length < 24 * t.fifo.length) := by
  have hhigh : w.toNat / 2 ^ 33 % 2 ^ 31 = 0 ↔ w.toNat < 2 ^ 33 := by have := w.isLt; omega
  simp only [Coupling.canOpen, Coupling.occ, Bool.and_eq_true, Bool.or_eq_true, Bool.not_eq_true', beq_iff_eq,
    List.length_eq_zero_iff, decide_eq_true_eq, and_assoc]
  simp only [bitsOf, Nat.reduceSub, Nat.reduceAdd, Nat.pow_zero, Nat.div_one, hhigh]

theorem canPush_iff (x : Coupling) (g : Group) :
    x.canPush g = true ↔ x.opened = true ∧ x.closed = false ∧ x.prod = g.gidx := by
  simp [Coupling.canPush, and_assoc]

theorem canPop_iff (x : Coupling) (g : Group) : x.canPop g = true ↔ x.opened = true ∧ x.cons = g.gidx := by
  simp [Coupling.canPop]

/-! ### Each form keeps ALLOW + OCC + RET = DEPTH (R160) -/

theorem pop_cons {x : Coupling} {h : Word} {more : List Word} (hh : x.handles = h :: more) : x.pop =
    if x.defer then { x with handles := more, ret := x.ret + 1 } else { x with handles := more, allow := x.allow + 1 } := by
  simp only [Coupling.pop, hh, List.drop_one, List.tail_cons]

theorem front_cons {x : Coupling} {h : Word} {more : List Word} (hh : x.handles = h :: more) : x.front = h.setWidth 64 := by
  simp only [Coupling.front, hh]

theorem sound_push {x : Coupling} (v : Word) (ha : 0 < x.allow) (h : Safety.Coupling.Sound x) :
    Safety.Coupling.Sound (x.push v) := by
  refine ⟨fun ho => ?_, h.2⟩
  have hsum := h.1 ho
  simp only [Coupling.push, List.length_append, List.length_singleton]
  omega

theorem sound_pop {x : Coupling} (hh : x.handles ≠ []) (h : Safety.Coupling.Sound x) : Safety.Coupling.Sound x.pop := by
  obtain ⟨hsum, hret⟩ := h
  have hpos : 0 < x.handles.length := List.length_pos_iff.mpr hh
  unfold Coupling.pop
  split
  · next hd =>
    refine ⟨fun ho => ?_, fun hf => absurd (hd.symm.trans hf) nofun⟩
    have := hsum ho
    simp only [List.length_drop]
    omega
  · refine ⟨fun ho => ?_, hret⟩
    have := hsum ho
    simp only [List.length_drop]
    omega

theorem sound_allow {x : Coupling} {n : Nat} (hd : x.defer = true) (hn : n ≤ x.ret) (h : Safety.Coupling.Sound x) :
    Safety.Coupling.Sound { x with allow := x.allow + n, ret := x.ret - n } := by
  refine ⟨fun ho => ?_, fun hf => absurd (hd.symm.trans hf) nofun⟩
  have := h.1 ho
  dsimp only at this ⊢
  omega

theorem sound_opened (defer : Bool) (n prod cons : Nat) :
    Safety.Coupling.Sound ⟨true, false, defer, n, prod, cons, n, 0, [], true⟩ := ⟨fun _ => rfl, fun _ => rfl⟩

/-! ### The obligation -/

theorem couplings_idle {s : State} {c : Ctx} {q : Quals} (d a b : BitVec 6) (hi : Issues s c) (hq : c.active q = 0) :
    ∀ i ∈ [Instr.qpush q d a, .qpushTry q d a b, .qinit q d a b, .qallow q d a, .qclose q d] ++ [.qpop q a d, .qpopTry q a d b],
      Idles i s c := by
  intro i hm
  obtain ⟨rest, hrun⟩ := couplingForms_once q d a b i hm
  exact once_idles hi (hrun s) hq

theorem couplings_unnamed {s : State} {c : Ctx} {q : Quals} {d : BitVec 6} (a b : BitVec 6) (hi : Issues s c)
    (hq : c.active q ≠ 0) (hd : ∀ l, s.launch c.g = some l → l.hdr.nq ≤ d.toNat) :
    ∀ i ∈ [Instr.qpush q d a, .qpushTry q d a b, .qinit q d a b, .qallow q d a, .qclose q d] ++ [.qpop q a d, .qpopTry q a d b],
      Traps i s c (FaultInfo.ofCause causeProtection) := by
  intro i hm
  obtain ⟨rest, hrun⟩ := couplingForms_once q d a b i hm
  have h := exec_once hi (hrun s) hq
  rw [coupling_outside hd, except_error_bind] at h
  exact h

/-- Settles O47: the forms that have no lane or no coupling, then form by form the checks, the waits and the effect. -/
theorem couplingsPassHandles : Obligations.CouplingsPassHandles := by
  unfold Obligations.CouplingsPassHandles
  intro s c q d a b hi
  refine ⟨couplings_idle d a b hi, fun hq => couplings_unnamed a b hi hq, fun t l hq ht hl hd => ?_⟩
  have hx := coupling_named ht hl hd
  generalize t.qs.getD d.toNat Coupling.zero = x at hx ⊢
  dsimp only
  refine ⟨fun n w hn hw => ?_, fun v hv => ?_, ?_, fun n hn => ?_, ?_⟩
  · have h := exec_qinit hi hq hx hn hw
    rw [← canOpen_iff]
    refine ⟨fun hg => checked_traps h (Bool.eq_false_iff.mpr hg), checked_waits h, fun hg hr => ⟨?_, sound_opened ..⟩⟩
    have := setsCoupling hi ht (checked_acts h hg hr)
    simpa only [bitsOf, Nat.reduceSub, Nat.reduceAdd, Nat.pow_zero, Nat.div_one] using this
  · have h := exec_qpush hi hq hx hv
    have htry := exec_qpushTry (b := b) hi hq hx hv
    rw [← canPush_iff]
    refine ⟨fun hg => ?_, fun hg hr => ⟨checked_waits h hg hr, checked_waits htry hg hr⟩, fun hg hr hrel => ?_,
      fun hg hr hrel => ⟨fun ha => ?_, fun ha => ?_⟩⟩
    · rw [Bool.not_eq_true] at hg
      exact ⟨checked_traps h hg, checked_traps htry hg⟩
    · have hwait := releaseFirst_wait (ord := 2) (sc := 2) (by decide) hrel
      rw [hwait] at h htry
      exact ⟨checked_acts h hg hr, checked_acts htry hg hr⟩
    all_goals
      have hok := releaseFirst_ok (ord := 2) (sc := 2) hrel
      rw [hok, except_ok_bind] at h htry
    · rw [if_neg (by omega)] at h htry
      exact ⟨checked_acts h hg hr, setsP_of_setP (checked_acts htry hg hr)⟩
    · rw [if_pos ha] at h htry
      exact ⟨setsCoupling hi ht (checked_acts h hg hr), sound_push _ ha,
        _, writesP_setP _ b _ _, setsCoupling_putArch ht (checked_acts htry hg hr)⟩
  · rw [← canPop_iff]
    by_cases hh : x.handles = []
    · have h := exec_qpop_empty (a := a) hi hq hx hh
      have htry := exec_qpopTry_empty (a := a) (b := b) hi hq hx hh
      refine ⟨fun hg => ?_, fun hg hr => ⟨checked_waits h hg hr, checked_waits htry hg hr⟩,
        fun hg hr _ => ⟨fun hc => ?_, fun hc => ?_⟩, fun _ _ _ _ hc => absurd (hh.symm.trans hc) nofun⟩
      · rw [Bool.not_eq_true] at hg
        exact ⟨checked_traps h hg, checked_traps htry hg⟩
      · rw [if_neg (by simp [hc])] at h htry
        exact ⟨checked_acts h hg hr, setsP_of_setP (checked_acts htry hg hr)⟩
      · rw [if_pos hc] at h htry
        exact ⟨⟨_, writesS_setS _ a _, endsIn_putArch (checked_acts h hg hr)⟩,
          _, _, writesS_setS _ a _, writesP_setP _ b _ _, endsIn_putArch (checked_acts htry hg hr)⟩
    · have h := exec_qpop_some (a := a) hi hq hx hh
      have htry := exec_qpopTry_some (a := a) (b := b) hi hq hx hh
      refine ⟨fun hg => ?_, fun hg hr => ⟨checked_waits h hg hr, checked_waits htry hg hr⟩,
        fun _ _ hc => absurd hc hh, fun f more hg hr hf => ?_⟩
      · rw [Bool.not_eq_true] at hg
        exact ⟨checked_traps h hg, checked_traps htry hg⟩
      · have hsound := sound_pop hh
        rw [front_cons hf] at h htry
        rw [pop_cons hf] at h htry hsound
        exact ⟨hsound, _, _, writesS_setS _ a _, writesP_setP _ b _ _, setsCoupling_putArch ht (checked_acts h hg hr),
          setsCoupling_putArch ht (checked_acts htry hg hr)⟩
  · have h := exec_qallow hi hq hx hn
    have hgood : ((x.opened && x.cons == c.g.gidx && x.defer) && decide (n.toNat ≤ x.ret)) = true ↔
        x.opened = true ∧ x.cons = c.g.gidx ∧ x.defer = true ∧ n.toNat ≤ x.ret := by simp [and_assoc]
    refine ⟨fun hg => checked_traps h (Bool.eq_false_iff.mpr fun e => hg (hgood.mp e)),
      fun hg => checked_waits h (hgood.mpr hg), fun hg hr => ⟨setsCoupling hi ht (checked_acts h (hgood.mpr hg) hr), ?_⟩⟩
    obtain ⟨-, -, hdefer, hret⟩ := hg
    exact sound_allow hdefer hret
  · have h := exec_qclose hi hq hx
    have hgood : (x.opened && x.prod == c.g.gidx) = true ↔ x.opened = true ∧ x.prod = c.g.gidx := by simp
    exact ⟨fun hg => checked_traps h (Bool.eq_false_iff.mpr fun e => hg (hgood.mp e)), fun hg => checked_waits h (hgood.mpr hg),
      fun hg hr => setsCoupling hi ht (checked_acts h (hgood.mpr hg) hr)⟩

end Sys2Proof.Machine
end

section
/-!
B-slots (06 R163 to R168): one slot that changes, the word of SLOTQ, the dispatch of an LDO and its end.
-/
namespace Sys2Proof.Machine

open Sys2Proof.Safety

/-! ### One slot changes -/

theorem setSlot_slotSet (s : State) (core part o : Nat) (x : Slot) : SlotSet s (s.setSlot core part o x) core part o x := by
  have hpart : (s.setSlot core part o x).part core part =
      { s.part core part with slots := (s.part core part).slots.put o x } := Table.get_put_same ..
  refine ⟨?_, fun n hn => ?_, ?_, fun k hk => Table.find_put_other _ _ hk, rfl⟩
  · rw [State.slot, hpart]; exact Table.get_put_same ..
  · rw [State.slot, hpart]; exact Table.get_put_other _ _ _ hn
  · rw [hpart]

/-- A slot form of the group: it completes and leaves the slot as x. -/
theorem setSlot_ends {i : Instr} {s : State} {c : Ctx} (hi : Issues s c) {core part o : Nat} {x : Slot}
    (h : exec i s = c.answer s (.ok (s.setSlot core part o x))) :
    ∃ u, EndsIn i s u c c.g.arch [] ∧ SlotSet s u core part o x :=
  ⟨_, endsIn_kept (u := s.setSlot core part o x) (issues_group hi) h, setSlot_slotSet ..⟩

/-! ### CLAIM and RELS (R163, R165) -/

section forms
variable {s : State} {c : Ctx} {q : Quals} {d a : BitVec 6} (hi : Issues s c) (hq : c.active q ≠ 0)
include hi hq

/-- A slot that CLAIM may give: nobody owns it, nothing of the group is unretired, and it is the path's turn. -/
def Ctx.claims (c : Ctx) (s : State) (d : BitVec 6) : Bool :=
  (c.slot s d).owner.isNone && c.g.idle && ((c.g.arch.path c.iss.ent).wait == some (.slotFree d.toNat) ||
    !s.slotWaited c.iss.core (partOf c.iss.core c.iss.grp) d.toNat)

theorem exec_claim : exec (.claim q d) s = c.answer s (
    if (c.slot s d).owner = some c.iss.grp then .ok s
    else if c.claims s d = true then .ok (s.grantSlot c.iss.core c.iss.grp d.toNat)
    else .error (.wait (.slotFree d.toNat))) := by
  rw [exec_once hi (body := _) rfl hq, Ctx.claims]
  simp only [beq_iff_eq]

theorem exec_rels : exec (.rels q d) s = c.answer s (do
    require ((c.slot s d).owner == some c.iss.grp) (FaultInfo.ofCause causeSlotOwner)
    c.needIdle
    c.needSlot s d.toNat true
    .ok (s.setSlot c.iss.core (partOf c.iss.core c.iss.grp) d.toNat { c.slot s d with owner := none })) := by
  rw [exec_once hi (body := _) rfl hq]

theorem exec_slotq : exec (.slotq q d a) s =
    c.answer s (.ok (c.writeS s d (slotWord s c.iss.core c.iss.grp c.g (c.slot s a)))) := by
  rw [exec_once hi (body := _) rfl hq]

end forms

theorem needSlot_ok {c : Ctx} {s : State} {o : Nat} {copies : Bool}
    (h : s.slotIdle c.iss.core (partOf c.iss.core c.iss.grp) o copies = true) : c.needSlot s o copies = .ok () := if_pos h

theorem needSlot_wait {c : Ctx} {s : State} {o : Nat} {copies : Bool}
    (h : s.slotIdle c.iss.core (partOf c.iss.core c.iss.grp) o copies = false) :
    c.needSlot s o copies = .error (.wait (.slotIdle o copies)) := if_neg (by simp [h])

theorem claims_iff (c : Ctx) (s : State) (d : BitVec 6) : c.claims s d = true ↔ (c.slot s d).owner = none ∧ c.g.rob = [] ∧
    ((c.g.arch.path c.iss.ent).wait = some (.slotFree d.toNat) ∨
      s.slotWaited c.iss.core (partOf c.iss.core c.iss.grp) d.toNat = false) := by
  simp [Ctx.claims, Group.idle, and_assoc]

/-! ### SLOTQ (Table 06-11) -/

theorem bitNat_eq (b : Bool) (i : Nat) : bitNat b i = b.toNat * 2 ^ i := by cases b <;> simp [bitNat]

theorem getLsbD_ofNat_eq {N i : Nat} {b : Bool} (hi : i < 64) (h : N / 2 ^ i % 2 = b.toNat) :
    (BitVec.ofNat 64 N).getLsbD i = b := by
  rw [BitVec.getLsbD_ofNat, Nat.testBit_eq_decide_div_mod_eq, h]
  cases b <;> simp [hi]

/-- The fields of the word of SLOTQ. -/
theorem slotWord_fields (tag : BitVec 2) (p h t m o : Bool) {n : Nat} (hn : n < 256) :
    let w := BitVec.ofNat 64 (tag.toNat * 2 ^ 14 + bitNat p 13 + bitNat h 12 + bitNat t 11 + bitNat m 10 + bitNat o 9 + n)
    w.extractLsb' 14 2 = tag ∧ w.getLsbD 13 = p ∧ w.getLsbD 12 = h ∧ w.getLsbD 11 = t ∧ w.getLsbD 10 = m ∧ w.getLsbD 9 = o ∧
      (w.extractLsb' 0 9).toNat = n := by
  simp only [bitNat_eq]
  have htag := tag.isLt
  have hp := p.toNat_le
  have hh := h.toNat_le
  have ht := t.toNat_le
  have hm := m.toNat_le
  have ho := o.toNat_le
  refine ⟨BitVec.eq_of_toNat_eq ?_, getLsbD_ofNat_eq (by decide) (by omega), getLsbD_ofNat_eq (by decide) (by omega),
    getLsbD_ofNat_eq (by decide) (by omega), getLsbD_ofNat_eq (by decide) (by omega), getLsbD_ofNat_eq (by decide) (by omega), ?_⟩
  all_goals
    simp only [BitVec.extractLsb'_toNat, BitVec.toNat_ofNat, Nat.shiftRight_eq_div_pow]
    omega

/-- The group whose slot it is belongs to the team of g. -/
def slotMate (s : State) (core : Nat) (g : Group) (x : Slot) : Prop :=
  ∃ n h, x.owner = some n ∧ s.group core n = some h ∧ h.team = g.team ∧ g.team ≠ none

/-- What SLOTQ tells of a slot. -/
theorem slotWord_tells (s : State) (core grp : Nat) (g : Group) (x : Slot) :
    let w := slotWord s core grp g x
    w.extractLsb' 14 2 = x.tag ∧ w.getLsbD 13 = (x.pend != 0) ∧ w.getLsbD 12 = x.present ∧
      (w.getLsbD 11 = true ↔ slotMate s core g x) ∧ (w.getLsbD 10 = true ↔ x.owner = some grp) ∧
      w.getLsbD 9 = x.owner.isSome ∧ (w.getLsbD 11 = false → w.extractLsb' 0 9 = 0) ∧
      (∀ n, slotMate s core g x → x.owner = some n → n < 256 → (w.extractLsb' 0 9).toNat = n) := by
  intro w
  let team : Bool := match x.owner with
    | some k => g.team.isSome && ((s.group core k).map fun h => h.team == g.team) == some true
    | none => false
  have hmate : team = true ↔ slotMate s core g x := by
    simp only [team, slotMate]
    cases hx : x.owner with
    | none => simp
    | some k => cases hk : s.group core k <;> simp [hk, Option.isSome_iff_ne_none, and_comm]
  have hlow : (if team then x.owner.getD 0 % 256 else 0) < 256 := by split <;> omega
  obtain ⟨htag, hpend, hpres, hteam, hmine, hsome, hlast⟩ := slotWord_fields x.tag (x.pend != 0) x.present team
    (x.owner == some grp) x.owner.isSome hlow
  have hnum : (w.extractLsb' 0 9).toNat = if team then x.owner.getD 0 % 256 else 0 := hlast
  refine ⟨htag, hpend, hpres, (iff_of_eq (congrArg (· = true) hteam)).trans hmate,
    (iff_of_eq (congrArg (· = true) hmine)).trans beq_iff_eq, hsome, fun h => ?_, fun n hm hn hlt => ?_⟩
  · have hno : team = false := hteam.symm.trans h
    rw [hno] at hnum
    exact BitVec.eq_of_toNat_eq hnum
  · rw [hmate.mpr hm, hn, if_pos rfl] at hnum
    exact hnum.trans (Nat.mod_eq_of_lt hlt)

end Sys2Proof.Machine
end

section
/-!
LDO (06 R166): its dispatch, and the end of one whose bytes have all arrived.
-/
namespace Sys2Proof.Machine

open Sys2Proof.Safety

/-! ### An access that need not wait -/

theorem accessWait_ok {c : Ctx} {s : State} (op : MemOp) {ps : List (Place × Target)}
    (hc : ∀ home, c.g.conflict (ps.map (·.2)) home = false)
    (hp : ∀ t ∈ ps.map (·.2), ∀ core part n b, t = .slot core part n b → (s.slot core part n).present = true) :
    c.accessWait s op ps = .ok () := by
  have hfind : ps.find? (fun p => match p.2 with
      | .slot core part n _ => !(s.slot core part n).present
      | _ => false) = none := by
    refine List.find?_eq_none.mpr fun p hm => ?_
    split
    next core part n b ht => simp [hp p.2 (List.mem_map_of_mem hm) core part n b ht]
    next => simp
  simp only [Ctx.accessWait, hc, Bool.false_eq_true, if_false]
  split
  next p core part n b h => exact absurd (hfind.symm.trans h) nofun
  next => rfl

/-! ### Dispatch -/

def ldoOp (f : Nat) (q : Quals) : MemOp := ⟨.ldo, 16, false, f, 0, 0, (Quals.memx q).hint⟩

/-- The lines of a slot, which an LDO writes. -/
def slotLines (core part o : Nat) : List Target := [0, 128, 256].map fun x => .slot core part o x

/-- The retire window's entry of an LDO. -/
def Ctx.ldoPost (c : Ctx) (s : State) (f : Nat) (q : Quals) (d : BitVec 6) (ea : DWord) (side : Option DWord)
    (rs : List LineReq) : Entry :=
  c.entry .l (.mem (ldoOp f q) [⟨c.iss.ent, 1, d.toNat, (c.slot s d).tag.toNat, 0, 0, none, 0, .l⟩]
    ([(0, ea), (8, ea + 128)] ++ (side.map fun a => (16, a)).toList) rs)

/-- The slot while an LDO of format f loads it. -/
def Slot.loading (o : Slot) (f : Nat) : Slot := { o with present := false, tag := BitVec.ofNat 2 f }

/-- An LDO whose addresses are read: it traps at the first that fails, waits for what is in its way, and is dispatched. -/
def Ctx.ldoGoes (c : Ctx) (s : State) (f : Nat) (q : Quals) (d : BitVec 6) (ea : DWord) (side : Option DWord) : Except Stop State :=
  match c.ldoReqs s ea side with
  | .error e => .error (.trap e)
  | .ok rs => do
    c.acquireOver
    c.needSlot s d.toNat false
    c.accessWait s (ldoOp f q) (rs.map (fun r => (Place.l, r.tgt)) ++
      (slotLines c.iss.core (partOf c.iss.core c.iss.grp) d.toNat).map fun t => (Place.l, t))
    .ok (c.launchMem (s.setSlot c.iss.core (partOf c.iss.core c.iss.grp) d.toNat ((c.slot s d).loading f)) (ldoOp f q)
      [c.ldoPost s f q d ea side rs])

/-- The sidecar's address, which the format Q4N has. -/
def Ctx.sideOf (c : Ctx) (f : Nat) (b : BitVec 6) : Except Stop (Option DWord) :=
  if f == 2 then (c.s (b + 1)).map some else .ok none

theorem ldo_eq (f : Nat) (feat : Option Nat) (q : Quals) (d b : BitVec 6) (s : State) : ldo f feat q d b s =
    runWith feat false s fun c s => if c.active q == 0 then .ok (c.finish s) else (do
      require ((c.slot s d).owner == some c.iss.grp) (FaultInfo.ofCause causeSlotOwner)
      let base ← c.s b
      let side ← c.sideOf f b
      c.ldoGoes s f q d (base + (Quals.memx q).ofs.signExtend 64) side) := by
  unfold ldo Ctx.sideOf
  cases (f == 2) <;> rfl

section ldo
variable {s : State} {c : Ctx} {f : Nat} {feat : Option Nat} {q : Quals} {d b : BitVec 6} (hi : Issues s c)
  (ha : Allowed s c feat false) (hq : c.active q ≠ 0)
include hi ha hq

theorem ldo_notOwner (ho : (c.slot s d).owner ≠ some c.iss.grp) :
    ldo f feat q d b s = .next (c.trapPath s (FaultInfo.ofCause causeSlotOwner)) := by
  rw [ldo_eq]
  refine runWith_trap hi ha ?_
  rw [if_neg (by simpa using hq), beq_false_of_ne ho]
  rfl

variable (ho : (c.slot s d).owner = some c.iss.grp) {base : DWord} (hb : ReadsS c b base) {side : Option DWord}
  (hside : c.sideOf f b = .ok side)
include ho hb hside

theorem ldo_fails {e : FaultInfo} (he : c.ldoReqs s (base + (Quals.memx q).ofs.signExtend 64) side = .error e) :
    ldo f feat q d b s = .next (c.trapPath s e) := by
  rw [ldo_eq]
  refine runWith_trap hi ha ?_
  rw [if_neg (by simpa using hq), beq_iff_eq.mpr ho, readsS_ok hb, hside]
  simp only [require_true, except_ok_bind, Ctx.ldoGoes, he]

theorem ldo_dispatches {rs : List LineReq} (hrs : c.ldoReqs s (base + (Quals.memx q).ofs.signExtend 64) side = .ok rs)
    (hacq : c.g.acq = none) (hidle : s.slotIdle c.iss.core (partOf c.iss.core c.iss.grp) d.toNat false = true)
    (hc : ∀ home, c.g.conflict (rs.map (·.tgt) ++ slotLines c.iss.core (partOf c.iss.core c.iss.grp) d.toNat) home = false)
    (hp : ∀ r ∈ rs, ∀ core part n o, r.tgt = .slot core part n o → (s.slot core part n).present = true) :
    ldo f feat q d b s = .next (c.launchMem
      (s.setSlot c.iss.core (partOf c.iss.core c.iss.grp) d.toNat ((c.slot s d).loading f)) (ldoOp f q)
      [c.ldoPost s f q d (base + (Quals.memx q).ofs.signExtend 64) side rs]) := by
  have hmine : (s.slot c.iss.core (partOf c.iss.core c.iss.grp) d.toNat).present = true := by
    simp only [State.slotIdle, Bool.and_eq_true] at hidle
    obtain ⟨⟨-, hpresent⟩, -⟩ := hidle
    exact hpresent
  have hlines : (rs.map (fun r => (Place.l, r.tgt)) ++
      (slotLines c.iss.core (partOf c.iss.core c.iss.grp) d.toNat).map fun t => (Place.l, t)).map (·.2) =
      rs.map (·.tgt) ++ slotLines c.iss.core (partOf c.iss.core c.iss.grp) d.toNat := by
    simp [slotLines]
  have hwait := accessWait_ok (s := s) (ldoOp f q) (c := c) (hlines ▸ hc) (by
    rw [hlines]
    intro t ht core part n o hto
    rcases List.mem_append.mp ht with ht | ht
    · obtain ⟨r, hr, rfl⟩ := List.mem_map.mp ht
      exact hp r hr core part n o hto
    · obtain ⟨x, -, rfl⟩ := List.mem_map.mp ht
      cases hto
      exact hmine)
  rw [ldo_eq]
  refine runWith_ok hi ha ?_
  rw [if_neg (by simpa using hq), beq_iff_eq.mpr ho, readsS_ok hb, hside]
  simp only [require_true, except_ok_bind, Ctx.ldoGoes, hrs, Ctx.acquireOver, hacq, Option.isSome_none, Bool.false_eq_true,
    if_false, needSlot_ok hidle, hwait]

end ldo

/-- One load of a whole instruction is dispatched: it joins the window, its addresses are translated, and its requests are sent. -/
theorem launchMem_ldo {i : Instr} {s v : State} {c : Ctx} (f : Nat) (q : Quals) {e : Entry}
    {hs : List Half} {ea : List (Nat × DWord)} {rs : List LineReq} (he : e.op = .mem (ldoOp f q) hs ea rs)
    (h : exec i s = .next (c.launchMem v (ldoOp f q) [e])) : PostsIn i s v c (ldoOp f q) c.g.arch [e] := by
  refine ⟨v.touchAll c.iss.core c.g e.addresses, _, touchAll_touches .., finish_put
    { c.g with rob := c.g.rob ++ [e], acq := if acquires (ldoOp f q) [e] then some c.g.seq else c.g.acq }, h.trans ?_⟩
  have hkind : MKind.returns .ldo = false := rfl
  simp [Ctx.launchMem, sendPosted, he, ldoOp, acquires, hkind, Ctx.pos]

end Sys2Proof.Machine
end

section
/-!
The end of an LDO and what holds of slots as a whole (06 R163 to R166).
-/
namespace Sys2Proof.Machine

open Sys2Proof.Safety

/-! ### The end of an LDO (R166) -/

/-- The slot once every byte of an LDO has arrived. -/
def Slot.loaded (x : Slot) (op : MemOp) (rs : List LineReq) : Slot :=
  { x with tile := BitVec.ofNat 2048 (unitsOf rs 0 16), present := true,
           side := if op.f = 2 then BitVec.ofNat 512 (unitsOf rs 16 4) else x.side }

theorem slotPresent_idle {s : State} {core part slot : Nat}
    (h : ∀ n g, (s.slot core part slot).owner = some n → s.group core n = some g → g.ldoDone slot = none) :
    exec (.slotPresent core part slot) s = .next s := by
  show Host.Outcome.next _ = _
  congr 1
  split
  next => rfl
  next n ho =>
    split
    next => rfl
    next g hg => simp only [h n g ho hg]

theorem endLdo_sound {s : State} {core n o : Nat} {g : Group} {e : Entry} {op : MemOp} {h : Half} {hs : List Half}
    {ea : List (Nat × DWord)} {rs : List LineReq} (he : e.op = .mem op (h :: hs) ea rs) (hf : e.memFaults = []) :
    ∃ g' : Group, g'.arch = g.arch ∧ s.endLdo core n o g e =
      ((s.setSlot core (partOf core n) o ((s.slot core (partOf core n) o).loaded op rs)).setGroup core n g').advance core n := by
  refine ⟨g.editEntry e.pos .l fun x => if x.isMem then { x with stage := .reported, fault := [] } else x, rfl, ?_⟩
  rw [State.endLdo, he]
  simp only [hf, List.isEmpty_nil, if_true, beq_iff_eq, Slot.loaded]

theorem slotPresent_loads {s : State} {core slot n : Nat} {g : Group} {e : Entry} {op : MemOp} {h : Half} {hs : List Half}
    {ea : List (Nat × DWord)} {rs : List LineReq} (ho : (s.slot core (partOf core n) slot).owner = some n)
    (hg : s.group core n = some g) (hd : g.ldoDone slot = some e) (he : e.op = .mem op (h :: hs) ea rs) (hf : e.memFaults = []) :
    ∃ g' : Group, g'.arch = g.arch ∧ exec (.slotPresent core (partOf core n) slot) s = .next
      (((s.setSlot core (partOf core n) slot ((s.slot core (partOf core n) slot).loaded op rs)).setGroup core n g').advance
        core n) := by
  obtain ⟨g', harch, hend⟩ := endLdo_sound (s := s) (core := core) (n := n) (o := slot) (g := g) he hf
  refine ⟨g', harch, ?_⟩
  show Host.Outcome.next _ = _
  simp only [ho, hg, hd, hend]

/-! ### The obligation -/

/-- The three forms of LDO, each with its format, its feature bit and its sidecar's address. -/
theorem exec_ldoForm {s : State} {c : Ctx} {q : Quals} {d a : BitVec 6} {i : Instr} {f : Nat} {side : Option DWord}
    (h : (i = .ldoF8 q d a ∧ f = 0 ∧ side = none) ∨ (i = .ldoBf16 q d a ∧ f = 1 ∧ side = none) ∨
      (i = .ldoQ4n q d a ∧ f = 2 ∧ Allowed s c (some 5) false ∧ ∃ y, side = some y ∧ ReadsS c (a + 1) y)) :
    ∃ feat, Allowed s c feat false ∧ exec i s = ldo f feat q d a s ∧ c.sideOf f a = .ok side := by
  obtain ⟨rfl, rfl, rfl⟩ | ⟨rfl, rfl, rfl⟩ | ⟨rfl, rfl, hallowed, y, rfl, hy⟩ := h
  · exact ⟨none, allowed_all s c, rfl, rfl⟩
  · exact ⟨none, allowed_all s c, rfl, rfl⟩
  · exact ⟨some 5, hallowed, rfl, by show (c.s (a + 1)).map some = _; rw [readsS_ok hy]; rfl⟩

section slots
variable {s : State} {c : Ctx} {q : Quals} {d a : BitVec 6} (hi : Issues s c) (hq : c.active q ≠ 0)
include hi hq

theorem claim_owned (h : (c.slot s d).owner = some c.iss.grp) : Idles (.claim q d) s c := by
  have hrun := exec_claim (d := d) hi hq
  rw [if_pos h] at hrun
  exact endsIn_kept (issues_group hi) hrun

theorem claim_gets (hc : c.claims s d = true) : ∃ u, EndsIn (.claim q d) s u c c.g.arch [] ∧
    SlotSet s u c.iss.core (partOf c.iss.core c.iss.grp) d.toNat
      { c.slot s d with owner := some c.iss.grp, tile := 0, side := 0, present := true, tag := 3 } := by
  have hrun := exec_claim (d := d) hi hq
  rw [if_neg (by rw [((claims_iff c s d).mp hc).1]; exact nofun), if_pos hc] at hrun
  exact setSlot_ends hi hrun

theorem claim_waits (h : (c.slot s d).owner ≠ some c.iss.grp) (hc : c.claims s d ≠ true) :
    Waits (.claim q d) s c (.slotFree d.toNat) := by
  have hrun := exec_claim (d := d) hi hq
  rw [if_neg h, if_neg hc] at hrun
  exact hrun

theorem rels_notOwner (h : (c.slot s d).owner ≠ some c.iss.grp) :
    Traps (.rels q d) s c (FaultInfo.ofCause causeSlotOwner) := by
  have hrun := exec_rels (d := d) hi hq
  rw [beq_false_of_ne h] at hrun
  exact hrun

/-- RELS of an owned slot: it waits for older work, then for the slot, and leaves the slot without owner. -/
theorem rels_owned (h : (c.slot s d).owner = some c.iss.grp) :
    (c.g.rob ≠ [] → Waits (.rels q d) s c .drained) ∧
    (c.g.rob = [] → s.slotIdle c.iss.core (partOf c.iss.core c.iss.grp) d.toNat true = false →
      Waits (.rels q d) s c (.slotIdle d.toNat true)) ∧
    (c.g.rob = [] → s.slotIdle c.iss.core (partOf c.iss.core c.iss.grp) d.toNat true = true →
      ∃ u, EndsIn (.rels q d) s u c c.g.arch [] ∧
        SlotSet s u c.iss.core (partOf c.iss.core c.iss.grp) d.toNat { c.slot s d with owner := none }) := by
  have hrun := exec_rels (d := d) hi hq
  rw [beq_iff_eq.mpr h, require_true, except_ok_bind] at hrun
  refine ⟨fun hr => ?_, fun hr hidle => ?_, fun hr hidle => ?_⟩
  · rw [needIdle_wait hr] at hrun
    exact hrun
  · rw [needIdle_ok hr, except_ok_bind, needSlot_wait hidle] at hrun
    exact hrun
  · rw [needIdle_ok hr, except_ok_bind, needSlot_ok hidle] at hrun
    exact setSlot_ends hi hrun

end slots

/-- Settles O43: CLAIM, RELS and SLOTQ by their outcomes, the three forms of LDO as one, and the end of an LDO. -/
theorem slotsAct : Obligations.SlotsAct := by
  unfold Obligations.SlotsAct
  intro s c q d a hi hq k o
  refine ⟨claim_owned hi hq, fun ho hr ht => claim_gets hi hq ((claims_iff c s d).mpr ⟨ho, hr, ht⟩), fun ho hw => ?_,
    fun ho => ⟨rels_notOwner hi hq ho, ldo_notOwner hi (allowed_all s c) hq ho, ldo_notOwner hi (allowed_all s c) hq ho,
      fun hallowed => ldo_notOwner hi hallowed hq ho⟩, rels_owned hi hq,
    ⟨_, setsS_of_writeS (exec_slotq hi hq), slotWord_tells s c.iss.core c.iss.grp c.g _⟩,
    fun i f base side ho hb hform => ?_, fun core part slot => ⟨slotPresent_idle, ?_⟩⟩
  · refine claim_waits hi hq ho fun hc => ?_
    obtain ⟨hnone, hrob, hturn⟩ := (claims_iff c s d).mp hc
    rcases hw with hw | hw | ⟨hnot, hwaited⟩
    · exact hw hnone
    · exact hw hrob
    · exact hturn.elim hnot fun h => absurd (h.symm.trans hwaited) nofun
  · obtain ⟨feat, hallowed, hexec, hside⟩ := exec_ldoForm hform
    refine ⟨fun e he => hexec.trans (ldo_fails hi hallowed hq ho hb hside he), fun rs hrs hacq hidle hc hp => ?_⟩
    have hrun := hexec.trans (ldo_dispatches hi hallowed hq ho hb hside hrs hacq hidle hc hp)
    exact ⟨_, _, _, launchMem_ldo f q rfl hrun, rfl, rfl, rfl, rfl, rfl, rfl, setSlot_slotSet ..⟩
  · rintro n g e op h hs ea rs ho rfl hg hd he hf
    obtain ⟨g', harch, hrun⟩ := slotPresent_loads ho hg hd he hf
    exact ⟨_, ⟨_, g', hrun, rfl, harch⟩, setSlot_slotSet ..⟩

end Sys2Proof.Machine
end

section
/-!
Bytes of a line: as a list, merged under a mask, and set one at a time (00 R2).
-/
namespace Sys2Proof.Machine

open Sys2Proof.Safety

/-! ### A byte by its bits -/

theorem Line.getLsbD_byte (l : Line) (i : Nat) {j : Nat} (hj : j < 8) : (Line.byte l i).getLsbD j = l.getLsbD (8 * i + j) := by
  simp [Line.byte, hj]

/-! ### A line as a list of bytes -/

theorem getElem_bytesOfNat {n x i : Nat} (h : i < (bytesOfNat n x).length) :
    (bytesOfNat n x)[i] = BitVec.ofNat 8 (x / 256 ^ i) := by
  induction n generalizing x i with
  | zero => exact absurd h (Nat.not_lt_zero i)
  | succ n ih =>
    cases i with
    | zero => simp [bytesOfNat]
    | succ i => simp [bytesOfNat, ih, Nat.div_div_eq_div_mul, Nat.pow_succ, Nat.mul_comm]

theorem length_toBytes (l : Line) : (Line.toBytes l).length = 128 := length_bytesOfNat 128 _

theorem getElem_toBytes (l : Line) {i : Nat} (h : i < (Line.toBytes l).length) : (Line.toBytes l)[i] = Line.byte l i := by
  refine (getElem_bytesOfNat h).trans (BitVec.eq_of_getLsbD_eq fun j hj => ?_)
  rw [Line.getLsbD_byte l i hj, show (256 : Nat) = 2 ^ 8 from rfl, ← Nat.pow_mul, BitVec.getLsbD_ofNat, Nat.testBit_div_two_pow,
    Nat.add_comm j, BitVec.getLsbD]
  simp [hj]

theorem testBit_natOfBytes (bs : List Byte) {i j : Nat} (hi : i < bs.length) (hj : j < 8) :
    (natOfBytes bs).testBit (8 * i + j) = bs[i].getLsbD j := by
  induction bs generalizing i with
  | nil => exact absurd hi (Nat.not_lt_zero i)
  | cons b r ih =>
    have hsplit : natOfBytes (b :: r) = 2 ^ 8 * natOfBytes r + b.toNat := Nat.add_comm ..
    rw [hsplit, Nat.testBit_two_pow_mul_add _ b.isLt]
    cases i with
    | zero => simp [hj, BitVec.getLsbD]
    | succ i =>
      rw [if_neg (by omega), show 8 * (i + 1) + j - 8 = 8 * i + j by omega]
      simpa using ih (by simpa using hi)

theorem byte_ofBytes {bs : List Byte} {i : Nat} (hi : i < bs.length) (h : i < 128) : Line.byte (Line.ofBytes bs) i = bs[i] := by
  refine BitVec.eq_of_getLsbD_eq fun j hj => ?_
  rw [Line.getLsbD_byte _ _ hj, Line.ofBytes, BitVec.getLsbD_ofNat, testBit_natOfBytes bs hi hj,
    decide_eq_true (by omega : 8 * i + j < 1024), Bool.true_and]

/-! ### Merging under a mask -/

theorem getLsbD_wide (m : BitVec 128) {k : Nat} (hk : k < 1024) : (Line.wide m).getLsbD k = m.getLsbD (k / 8) := by
  have hstep : (fun (a : Line) i => if m.getLsbD i then a ||| ((0xFF : Line) <<< (8 * i)) else a) =
      fun a i => a ||| (if m.getLsbD i then (0xFF : Line) <<< (8 * i) else 0) := by
    funext a i; split <;> simp
  have hbyte : ∀ i, ((0xFF : Line) <<< (8 * i)).getLsbD k = true ↔ i = k / 8 := by
    intro i
    have hFF : ∀ n, (0xFF : Line).getLsbD n = decide (n < 8) := fun n => by
      rw [show (0xFF : Line) = BitVec.ofNat 1024 (2 ^ 8 - 1) from rfl, BitVec.getLsbD_ofNat, Nat.testBit_two_pow_sub_one]
      by_cases h : n < 8 <;> simp [h]; omega
    simp only [BitVec.getLsbD_shiftLeft, hFF, Bool.and_eq_true, decide_eq_true_eq, Bool.not_eq_true', decide_eq_false_iff_not]
    omega
  have hzero : (0 : Line).getLsbD k = false := BitVec.getLsbD_zero
  rw [Bool.eq_iff_iff, Line.wide, hstep, getLsbD_foldl_or, hzero]
  simp only [Bool.false_eq_true, false_or, List.mem_range]
  constructor
  · rintro ⟨i, -, h⟩
    split at h
    next hm => rw [← (hbyte i).mp h]; exact hm
    next => exact absurd (hzero.symm.trans h) nofun
  · exact fun h => ⟨k / 8, by omega, by rw [if_pos h]; exact (hbyte _).mpr rfl⟩

theorem byte_merge (old new : Line) (m : BitVec 128) {i : Nat} (hi : i < 128) :
    Line.byte (Line.merge old new m) i = if m.getLsbD i then Line.byte new i else Line.byte old i := by
  refine BitVec.eq_of_getLsbD_eq fun j hj => ?_
  have hwide : (Line.wide m).getLsbD (8 * i + j) = m.getLsbD i := by
    rw [getLsbD_wide m (by omega)]
    congr 1
    omega
  rw [Line.getLsbD_byte _ _ hj, Line.merge]
  simp only [BitVec.getLsbD_or, BitVec.getLsbD_and, BitVec.getLsbD_not, hwide]
  split
  next h => simp [h, Line.getLsbD_byte _ _ hj]
  next h => simp [h, Line.getLsbD_byte _ _ hj, (by omega : 8 * i + j < 1024)]

theorem getLsbD_byteMask (off n : Nat) {i : Nat} (hi : i < 128) :
    (byteMask off n).getLsbD i = decide (off ≤ i ∧ i < off + n) := by
  rw [byteMask, BitVec.getLsbD_ofNat, Nat.testBit_mul_two_pow, Nat.testBit_two_pow_sub_one]
  by_cases h : off ≤ i
  · simp only [hi, h, decide_true, Bool.true_and, true_and, decide_eq_decide]
    omega
  · simp [h]

/-! ### One byte of a line -/

theorem field_byte (l : Line) (i : Nat) : Line.field l i 1 = (Line.byte l i).toNat := by
  simp [Line.field, Line.byte, BitVec.extractLsb'_toNat, Nat.shiftRight_eq_div_pow]

theorem byte_setField (l : Line) {off i : Nat} (x : Nat) (ho : off < 128) (hi : i < 128) :
    Line.byte (Line.setField l off 1 x) i = if i = off then BitVec.ofNat 8 x else Line.byte l i := by
  refine BitVec.eq_of_getLsbD_eq fun j hj => ?_
  have hlow : (BitVec.ofNat 1024 ((2 ^ (8 * 1) - 1) * 2 ^ (8 * off))).getLsbD (8 * i + j) = decide (i = off) := by
    rw [BitVec.getLsbD_ofNat, Nat.testBit_mul_two_pow, Nat.testBit_two_pow_sub_one]
    by_cases h : i = off
    · subst h
      simp [hj]
      omega
    · simp only [h, decide_false, Bool.and_eq_false_iff, decide_eq_false_iff_not]
      omega
  have hval : (BitVec.ofNat 1024 (x % 2 ^ (8 * 1) * 2 ^ (8 * off))).getLsbD (8 * i + j) =
      (decide (i = off) && (BitVec.ofNat 8 x).getLsbD j) := by
    rw [BitVec.getLsbD_ofNat, Nat.testBit_mul_two_pow, Nat.testBit_mod_two_pow]
    by_cases h : i = off
    · subst h
      simp only [BitVec.getLsbD_ofNat, Nat.add_sub_cancel_left, hj, (by omega : 8 * i + j < 1024)]
      simp
    · simp only [h, decide_false, Bool.false_and, Bool.and_eq_false_iff, decide_eq_false_iff_not]
      omega
  rw [Line.getLsbD_byte _ _ hj, Line.setField]
  simp only [BitVec.getLsbD_or, BitVec.getLsbD_and, BitVec.getLsbD_not, hlow, hval]
  by_cases h : i = off
  · simp [h]
  · simp [h, Line.getLsbD_byte _ _ hj, (by omega : 8 * i + j < 1024)]

end Sys2Proof.Machine
end

section
/-!
Copy channels (06 R150 to R155): what begins and ends an operation, and the bytes of a piece.
-/
namespace Sys2Proof.Machine

open Sys2Proof.Safety

/-! ### One channel changes -/

@[simp] theorem setChan_chan (s : State) (core n : Nat) (x : Channel) : (s.setChan core n x).chan core n = x :=
  Table.get_put_same ..

theorem pendSlot_only (s : State) (core grp : Nat) (dst : DWord) (total : Nat) (f : Nat → Nat) :
    s.pendSlot core grp dst total f = { s with parts := (s.pendSlot core grp dst total f).parts } := by
  unfold State.pendSlot
  split <;> rfl

/-- An operation of no bytes touches no slot. -/
theorem pendSlot_none (s : State) (core grp : Nat) (dst : DWord) (f : Nat → Nat) : s.pendSlot core grp dst 0 f = s := by
  simp [State.pendSlot, slotOfDst]

/-- The channel once its first operation, if it has one, is under way. -/
def Channel.started (x : Channel) : Channel :=
  match x.ops with
  | o :: r => if o.begun then x else { x with ops := { o with begun := true } :: r, wp := o.dst }
  | [] => x

/-- An operation that is under way already begins no more; one that begins changes its channel only. -/
theorem beginCopy_eq (s : State) (core n : Nat) : s.beginCopy core n = s ∧ (s.chan core n).started = s.chan core n ∨
    s.beginCopy core n = s.setChan core n (s.chan core n).started := by
  unfold State.beginCopy Channel.started
  dsimp only
  cases (s.chan core n).ops with
  | nil => exact .inl ⟨rfl, rfl⟩
  | cons o r =>
    by_cases hb : o.begun = true
    · exact .inl ⟨if_pos hb, if_pos hb⟩
    · exact .inr (by simp only [hb]; rfl)

theorem beginCopy_chan (s : State) (core n : Nat) : (s.beginCopy core n).chan core n = (s.chan core n).started := by
  rcases beginCopy_eq s core n with ⟨h, hs⟩ | h
  · rw [h, hs]
  · rw [h, setChan_chan]

theorem beginCopy_only (s : State) (core n : Nat) : s.beginCopy core n = { s with chans := (s.beginCopy core n).chans } := by
  rcases beginCopy_eq s core n with ⟨h, -⟩ | h
  · rw [h]
  · rw [h]; rfl

/-- The start of an operation changes the queue and WP only. -/
theorem started_only (x : Channel) : x.started = { x with ops := x.started.ops, wp := x.started.wp } := by
  unfold Channel.started
  split
  · split <;> rfl
  · rfl

theorem started_queue (x : Channel) : QueueIs x.started x.ops x.wp := by
  refine ⟨fun h => ?_, fun o r h => ?_⟩
  · simp [Channel.started, h]
  · by_cases hb : o.begun = true
    · have ho : { o with begun := true } = o := by rw [← hb]
      simp [Channel.started, h, hb, ho]
    · simp [Channel.started, h, hb]

/-! ### The end of an operation (R151, R154) -/

/-- The channel after its first operation has ended. -/
def Channel.ended (x : Channel) (o : CopyOp) : Channel :=
  { x with ops := x.ops.drop 1, completed := x.completed + 1, asked := [], got := [], out := false,
           past := (o.dst, o.total, o.num) :: x.past.filter fun p => !(p.1 == o.dst && p.2.1 == o.total) }

theorem endCopy_eq (s : State) (core n : Nat) (o : CopyOp) : s.endCopy core n o =
    ((s.setChan core n ((s.chan core n).ended o)).pendSlot core o.grp o.dst o.total (· - 1)).beginCopy core n := rfl

theorem endCopy_chan (s : State) (core n : Nat) (o : CopyOp) :
    (s.endCopy core n o).chan core n = ((s.chan core n).ended o).started := by
  rw [endCopy_eq, beginCopy_chan, pendSlot_only]
  exact congrArg Channel.started (setChan_chan s core n _)

theorem endCopy_only (s : State) (core n : Nat) (o : CopyOp) :
    s.endCopy core n o = { s with chans := (s.endCopy core n o).chans, parts := (s.endCopy core n o).parts } := by
  rw [endCopy_eq, beginCopy_only, pendSlot_only]
  rfl

theorem endCopy_empty {s : State} {core n : Nat} {o : CopyOp} (h : o.rows * o.len = 0) :
    s.endCopy core n o = { s with chans := (s.endCopy core n o).chans } := by
  rw [endCopy_eq, CopyOp.total, h, pendSlot_none, beginCopy_only]
  rfl

/-- What the end of the first operation leaves of a channel. -/
theorem ended_spec (x : Channel) (o : CopyOp) : let y := (x.ended o).started
    QueueIs y (x.ops.drop 1) x.wp ∧ y.completed = x.completed + 1 ∧ y.stopped = x.stopped ∧ y.latch = x.latch := by
  refine ⟨started_queue (x.ended o), ?_⟩
  rw [started_only]
  exact ⟨rfl, rfl, rfl⟩

/-! ### The source lines of a piece -/

/-- Values collected without repetition are all there. -/
theorem mem_foldl_collect {α : Type} [BEq α] [LawfulBEq α] (f : Nat → α) (is : List Nat) (ls : List α) {x : α}
    (h : x ∈ ls ∨ ∃ i ∈ is, f i = x) :
    x ∈ is.foldl (fun ls i => if ls.contains (f i) then ls else ls ++ [f i]) ls := by
  induction is generalizing ls with
  | nil => simpa using h
  | cons k r ih =>
    refine ih _ ?_
    dsimp only
    rcases h with h | ⟨i, hi, rfl⟩
    · left; split <;> simp [h]
    · rcases List.mem_cons.mp hi with rfl | hi
      · left
        split
        next hc => exact List.contains_iff_mem.mp hc
        next => simp
      · exact .inr ⟨i, hi, rfl⟩

/-- The line that holds an address. -/
def lineOf (a : DWord) : DWord := a - BitVec.ofNat 64 (a.toNat % 128)

theorem srcLines_mem (o : CopyOp) {i : Nat} (h : i < o.piece) : lineOf (o.srcAt (o.done + i)) ∈ o.srcLines :=
  mem_foldl_collect (fun i => lineOf (o.srcAt (o.done + i))) _ _ (.inr ⟨i, List.mem_range.mpr h, rfl⟩)

/-! ### The bytes of a piece -/

/-- Where the destination line of the next piece has its first byte. -/
def CopyOp.first (o : CopyOp) : Nat := (o.dst.toNat + o.done) % 128

theorem piece_fits (o : CopyOp) : o.first + o.piece ≤ 128 := by
  unfold CopyOp.first CopyOp.piece
  omega

theorem piece_place {o : CopyOp} {i : Nat} (h : i < o.piece) : (o.dst.toNat + o.done + i) % 128 = o.first + i := by
  have := piece_fits o
  unfold CopyOp.first at *
  omega

/-- Bytes set one after another from a place on. -/
theorem byte_foldl_setField (p : Nat → Nat) (x : Nat → Byte) {lo n : Nat} (hp : ∀ i, i < n → p i = lo + i) (h : lo + n ≤ 128)
    (l : Line) {i : Nat} (hi : i < n) :
    Line.byte ((List.range n).foldl (fun l i => Line.setField l (p i) 1 (x i).toNat) l) (lo + i) = x i := by
  induction n with
  | zero => exact absurd hi (Nat.not_lt_zero i)
  | succ n ih =>
    rw [List.range_succ, List.foldl_append, List.foldl_cons, List.foldl_nil,
      byte_setField _ _ (by rw [hp n n.lt_succ_self]; omega) (by omega), hp n n.lt_succ_self]
    split
    next he => rw [show i = n by omega, BitVec.ofNat_toNat, BitVec.setWidth_eq]
    next he => exact ih (fun i hi => hp i (by omega)) (by omega) (by omega)

/-- A piece from one line has its bytes in their places of the destination line. -/
theorem byte_pieceLine {o : CopyOp} {line : DWord} (hl : o.srcLines = [line]) (l : Line) {i : Nat} (hi : i < o.piece) :
    Line.byte (o.pieceLine [(line, l)]) (o.first + i) = Line.byte l ((o.srcAt (o.done + i)).toNat % 128) := by
  have hbyte : ∀ i ∈ List.range o.piece, ∀ acc : Line,
      Line.setField acc ((o.dst.toNat + o.done + i) % 128) 1
        ((([(line, l)].find? fun p => p.1 == lineOf (o.srcAt (o.done + i))).map fun p =>
          Line.field p.2 ((o.srcAt (o.done + i)).toNat % 128) 1).getD 0) =
      Line.setField acc ((o.dst.toNat + o.done + i) % 128) 1 (Line.byte l ((o.srcAt (o.done + i)).toNat % 128)).toNat := by
    intro i hi acc
    have hin := srcLines_mem o (List.mem_range.mp hi)
    rw [hl, List.mem_singleton] at hin
    simp [hin, field_byte]
  have hfold : o.pieceLine [(line, l)] = (List.range o.piece).foldl (fun acc i =>
      Line.setField acc ((o.dst.toNat + o.done + i) % 128) 1 (Line.byte l ((o.srcAt (o.done + i)).toNat % 128)).toNat) 0 :=
    List.foldl_ext _ _ _ fun acc i hi => hbyte i hi acc
  rw [hfold]
  exact byte_foldl_setField _ (fun i => Line.byte l ((o.srcAt (o.done + i)).toNat % 128)) (fun i hi => piece_place hi)
    (piece_fits o) 0 hi

/-! ### A scratch line that is written in part -/

theorem byte_localLine (s : State) (c b off : Nat) {i : Nat} (hi : i < 128) :
    Line.byte (s.localLine (.scratch c b off)).1 i = Memory.byte s.mem (scratchCell c b off + i) := by
  have hlen : (s.readBytes (scratchCell c b off) 128).length = 128 := by simp [State.readBytes, Memory.bytes]
  refine (byte_ofBytes (by omega) hi).trans ?_
  simp [State.readBytes, Memory.bytes]

/-- A line that is written is read back byte by byte, and nothing else changes. -/
theorem byte_setLine {m : List Host.Cell} (hw : Memory.wf m = true) (a : Nat) (l : Line) {i : Nat} (hi : i < 128) :
    Memory.byte (Memory.setBytes m a (Line.toBytes l)) (a + i) = Line.byte l i := by
  have hlen : i < (Line.toBytes l).length := by rw [length_toBytes]; exact hi
  exact (Memory.byte_setBytes_same hw hlen).trans (getElem_toBytes l hlen)

theorem byte_setLine_other (m : List Host.Cell) (a : Nat) (l : Line) {k : Nat} (hk : k < a ∨ a + 128 ≤ k) :
    Memory.byte (Memory.setBytes m a (Line.toBytes l)) k = Memory.byte m k := by
  refine Memory.byte_setBytes_other ?_
  rw [length_toBytes]
  exact hk

theorem setLocalLine_scratch (s : State) (c b off : Nat) (l : Line) :
    (s.setLocalLine (.scratch c b off) l).mem = Memory.setBytes s.mem (scratchCell c b off) (Line.toBytes l) := by
  rw [State.setLocalLine, State.writeBytes_mem]

/-- n bytes from a place of a scratch line on are written: they hold the new line's bytes, and no other byte changes. -/
theorem scratch_written {s : State} (hm : Memory.wf s.mem = true) (c b off : Nat) (l : Line) {lo n : Nat} (h : lo + n ≤ 128) :
    let u := s.setLocalLine (.scratch c b off) (Line.merge (s.localLine (.scratch c b off)).1 l (byteMask lo n))
    (∀ i, i < n → Memory.byte u.mem (scratchCell c b off + (lo + i)) = Line.byte l (lo + i)) ∧
    (∀ m, (∀ i, i < n → m ≠ scratchCell c b off + (lo + i)) → Memory.byte u.mem m = Memory.byte s.mem m) := by
  intro u
  have hu : u.mem = Memory.setBytes s.mem (scratchCell c b off)
    (Line.toBytes (Line.merge (s.localLine (.scratch c b off)).1 l (byteMask lo n))) := setLocalLine_scratch ..
  have hin : ∀ i, i < 128 → Memory.byte u.mem (scratchCell c b off + i) =
      if lo ≤ i ∧ i < lo + n then Line.byte l i else Memory.byte s.mem (scratchCell c b off + i) := by
    intro i hi
    rw [hu, byte_setLine hm _ _ hi, byte_merge _ _ _ hi, getLsbD_byteMask _ _ hi, byte_localLine _ _ _ _ hi]
    simp only [decide_eq_true_eq]
  clear_value u
  generalize scratchCell c b off = cell at *
  refine ⟨fun i hi => ?_, fun m hout => ?_⟩
  · rw [hin _ (by omega), if_pos (by omega)]
  · by_cases hline : cell ≤ m ∧ m < cell + 128
    · obtain ⟨k, rfl⟩ := Nat.exists_eq_add_of_le hline.1
      rw [hin k (by omega), if_neg fun hw => hout (k - lo) (by omega) (by omega)]
    · rw [hu, byte_setLine_other _ _ _ (by omega)]

end Sys2Proof.Machine
end

section
/-!
CPY, TWAIT, WPWAIT and TREAD (06 R156 to R158).
-/
namespace Sys2Proof.Machine

open Sys2Proof.Safety

/-! ### The channel that is named (R150) -/

theorem channel_none {c : Ctx} {s : State} {x : BitVec 3} (h : ((s.team c.g).bind fun t => t.chans[x.toNat]?) = none) :
    c.channel s x = .error (.trap (FaultInfo.ofCause causeProtection)) := by rw [Ctx.channel, h]

theorem channel_some {c : Ctx} {s : State} {x : BitVec 3} {k : Nat}
    (h : ((s.team c.g).bind fun t => t.chans[x.toNat]?) = some k) : c.channel s x = .ok k := by rw [Ctx.channel, h]

/-! ### CPY (R156) -/

/-- The machine once an operation of CPY is queued. -/
def State.queueCopy (s : State) (core grp k : Nat) (o : CopyOp) : State :=
  ((s.setChan core k { s.chan core k with issued := o.num, ops := (s.chan core k).ops ++ [o] }).beginCopy core k).pendSlot
    core grp o.dst o.total (· + 1)

theorem queueCopy_chan (s : State) (core grp k : Nat) (o : CopyOp) : (s.queueCopy core grp k o).chan core k =
    ({ s.chan core k with issued := o.num, ops := (s.chan core k).ops ++ [o] } : Channel).started := by
  rw [State.queueCopy, pendSlot_only]
  exact (beginCopy_chan ..).trans (congrArg _ (setChan_chan ..))

theorem queueCopy_only (s : State) (core grp k : Nat) (o : CopyOp) : s.queueCopy core grp k o =
    { s with chans := (s.queueCopy core grp k o).chans, parts := (s.queueCopy core grp k o).parts } := by
  rw [State.queueCopy, pendSlot_only, beginCopy_only]
  rfl

/-- The operation that a CPY queues. -/
def Ctx.copyOp (c : Ctx) (num : Nat) (dst src n : DWord) (shape : Option (Nat × Nat)) : CopyOp :=
  ⟨num, dst, src, n.toNat, (shape.getD (1, n.toNat)).1, (shape.getD (1, n.toNat)).2, c.iss.core, c.iss.grp, c.g.vi, false, 0⟩

/-- A CPY whose checks have passed, with no older work. -/
def Ctx.queuesCopy (c : Ctx) (s : State) (k : Nat) (d : BitVec 6) (dst src n : DWord) (shape : Option (Nat × Nat)) :
    Except Stop State :=
  if 16 ≤ (s.chan c.iss.core k).ops.length then .error (.wait (.chanRoom k))
  else .ok (c.finish (c.writeS (s.queueCopy c.iss.core c.iss.grp k
    (c.copyOp ((s.chan c.iss.core k).issued + 1) dst src n shape)) d (BitVec.ofNat 64 ((s.chan c.iss.core k).issued + 1))))

section copy
variable {s : State} {c : Ctx} {act : Mask} {d a b : BitVec 6} {x : BitVec 3} {shape : Option (Nat × Nat)}

theorem copy_inactive (h : act = 0) : c.copy s act d a b x shape = .ok (c.finish s) := if_pos (by simpa using h)

variable (hact : act ≠ 0)
include hact

theorem copy_noChannel (h : ((s.team c.g).bind fun t => t.chans[x.toNat]?) = none) :
    c.copy s act d a b x shape = .error (.trap (FaultInfo.ofCause causeProtection)) := by
  rw [Ctx.copy, if_neg (by simpa using hact), channel_none h]
  rfl

variable {k : Nat} (hk : ((s.team c.g).bind fun t => t.chans[x.toNat]?) = some k) {dst src n : DWord} (hdst : ReadsS c a dst)
  (hsrc : ReadsS c b src) (hn : ReadsS c (b + 1) n)
include hk hdst hsrc hn

theorem copy_refused (h0 : n ≠ 0) {f : BitVec 8} (hf : c.copyFault s dst src n.toNat (shape.getD (1, n.toNat)).1
    (shape.getD (1, n.toNat)).2 shape.isSome = some f) :
    c.copy s act d a b x shape = .error (.trap (FaultInfo.ofCause f)) := by
  have hlen : (n.toNat != 0) = true := by
    rw [bne_iff_ne]
    exact fun h => h0 (BitVec.eq_of_toNat_eq h)
  rw [Ctx.copy, if_neg (by simpa using hact), channel_some hk, readsS_ok hdst, readsS_ok hsrc, readsS_ok hn]
  simp only [except_ok_bind, hlen, hf, if_true]
  rfl

theorem copy_goes (h : n = 0 ∨ c.copyFault s dst src n.toNat (shape.getD (1, n.toNat)).1 (shape.getD (1, n.toNat)).2
    shape.isSome = none) : c.copy s act d a b x shape =
      (c.needIdle >>= fun _ => c.releaseFirst s 2 3 >>= fun _ => c.queuesCopy s k d dst src n shape) := by
  rw [Ctx.copy, if_neg (by simpa using hact), channel_some hk, readsS_ok hdst, readsS_ok hsrc, readsS_ok hn]
  simp only [except_ok_bind]
  rcases h with rfl | h
  · rfl
  · rw [h]
    split <;> rfl

end copy

theorem copyFault_large {c : Ctx} {s : State} {dst src : DWord} {len rows pitch : Nat} {twoD : Bool} (h : 2 ^ 40 ≤ rows * len) :
    c.copyFault s dst src len rows pitch twoD = some causeProtection := by
  unfold Ctx.copyFault
  exact if_pos (by simp only [ge_iff_le, h, decide_true, Bool.true_or])

end Sys2Proof.Machine
end

section
/-!
What the instructions on copy channels answer (06 R156, R158).
-/
namespace Sys2Proof.Machine

open Sys2Proof.Safety

/-! ### The two forms of CPY -/

section forms
variable {s : State} {c : Ctx} {i : Instr} {act : Mask} {d a b : BitVec 6} {x : BitVec 3} {shape : Option (Nat × Nat)}

/-- CPY and CPY2D, with their active lanes and their shape. -/
def copyForm (c : Ctx) (d a b : BitVec 6) (x : BitVec 3) (i : Instr) (act : Mask) (shape : Option (Nat × Nat)) : Prop :=
  (∃ q, i = .cpy q d a b x ∧ act = c.active q ∧ shape = none) ∨
    ∃ g rows pitch, i = .cpy2d g d a b x rows pitch ∧ act = c.active (quals g) ∧ shape = some (rows.toNat + 1, 16 * pitch.toNat)

theorem exec_copyForm (hi : Issues s c) (hform : copyForm c d a b x i act shape) :
    exec i s = c.outcome s (c.copy s act d a b x shape) := by
  obtain ⟨q, rfl, rfl, rfl⟩ | ⟨g, rows, pitch, rfl, rfl, rfl⟩ := hform
  · exact run_outcome hi fun c s => c.copy s (c.active q) d a b x none
  · rw [Nat.mul_comm]
    exact run_outcome hi fun c s => c.copy s (c.active (quals g)) d a b x (some (rows.toNat + 1, pitch.toNat * 16))

theorem copyForm_idles (hi : Issues s c) (hform : copyForm c d a b x i act shape) (h : act = 0) : Idles i s c :=
  ⟨_, (exec_copyForm hi hform).trans (by rw [copy_inactive h]; rfl), finish_same hi⟩

theorem copyForm_noChannel (hi : Issues s c) (hform : copyForm c d a b x i act shape) (hact : act ≠ 0)
    (h : ((s.team c.g).bind fun t => t.chans[x.toNat]?) = none) : Traps i s c (FaultInfo.ofCause causeProtection) :=
  (exec_copyForm hi hform).trans (by rw [copy_noChannel hact h]; rfl)

/-- A CPY whose channel is the team's channel k and whose operands are read. -/
structure CopyRuns (s : State) (c : Ctx) (i : Instr) (act : Mask) (d a b : BitVec 6) (x : BitVec 3) (shape : Option (Nat × Nat))
    (k : Nat) (dst src n : DWord) : Prop where
  issues : Issues s c
  form : copyForm c d a b x i act shape
  active : act ≠ 0
  channel : ((s.team c.g).bind fun t => t.chans[x.toNat]?) = some k
  dst : ReadsS c a dst
  src : ReadsS c b src
  len : ReadsS c (b + 1) n

variable {k : Nat} {dst src n : DWord} (H : CopyRuns s c i act d a b x shape k dst src n)
include H

/-- 2^40 bytes or more are refused (log 58). -/
theorem CopyRuns.large (h0 : n ≠ 0) (h : 2 ^ 40 ≤ (shape.getD (1, n.toNat)).1 * n.toNat) :
    Traps i s c (FaultInfo.ofCause causeProtection) :=
  (exec_copyForm H.issues H.form).trans
    (by rw [copy_refused H.active H.channel H.dst H.src H.len h0 (copyFault_large h)]; rfl)

variable (hok : n = 0 ∨ c.copyFault s dst src n.toNat (shape.getD (1, n.toNat)).1 (shape.getD (1, n.toNat)).2 shape.isSome = none)
include hok

theorem CopyRuns.goes : exec i s = c.outcome s (c.needIdle >>= fun _ => c.releaseFirst s 2 3 >>= fun _ =>
    c.queuesCopy s k d dst src n shape) :=
  (exec_copyForm H.issues H.form).trans (by rw [copy_goes H.active H.channel H.dst H.src H.len hok])

theorem CopyRuns.drains (hr : c.g.rob ≠ []) : Waits i s c .drained := by
  have h := H.goes hok
  rwa [needIdle_wait hr] at h

variable (hr : c.g.rob = [])
include hr

theorem CopyRuns.releases (hrel : s.released c.g 0 = false) : Waits i s c (.release 0) := by
  have h := H.goes hok
  rwa [needIdle_ok hr, releaseFirst_wait (by decide) hrel] at h

variable (hrel : s.released c.g 0 = true)
include hrel

theorem CopyRuns.acts : exec i s = c.outcome s (c.queuesCopy s k d dst src n shape) := by
  have h := H.goes hok
  rwa [needIdle_ok hr, releaseFirst_ok hrel] at h

theorem CopyRuns.full (hroom : 16 ≤ (s.chan c.iss.core k).ops.length) : Waits i s c (.chanRoom k) := by
  have h := H.acts hok hr hrel
  rwa [Ctx.queuesCopy, if_pos hroom] at h

theorem CopyRuns.queues (hroom : (s.chan c.iss.core k).ops.length < 16) :
    ∃ v u, WritesS c.g.arch v d (BitVec.ofNat 64 ((s.chan c.iss.core k).issued + 1)) ∧ EndsIn i s u c v [] ∧
      QueueIs (u.chan c.iss.core k) ((s.chan c.iss.core k).ops ++ [c.copyOp ((s.chan c.iss.core k).issued + 1) dst src n shape])
        (s.chan c.iss.core k).wp ∧
      u.chan c.iss.core k = { s.chan c.iss.core k with
        issued := (s.chan c.iss.core k).issued + 1, ops := (u.chan c.iss.core k).ops, wp := (u.chan c.iss.core k).wp } ∧
      u = { s with chans := u.chans, parts := u.parts } := by
  have h := H.acts hok hr hrel
  rw [Ctx.queuesCopy, if_neg (Nat.not_le.mpr hroom)] at h
  refine ⟨_, _, writesS_setS _ d _, ⟨_, h, finish_putArch _⟩, ?_, ?_, queueCopy_only ..⟩
  · rw [queueCopy_chan]
    exact started_queue _
  · rw [queueCopy_chan]
    exact started_only _

end forms

/-! ### TWAIT and WPWAIT (R158) -/

/-- A wait on channel k. -/
def Wait.onChan (k : Nat) (w : Wait) : Prop := (∃ n, w = .copied k n) ∨ ∃ n a, w = .wrote k n a

/-- A path that waits for nothing yet waits for what the instruction names. -/
theorem keptWait_fresh {c : Ctx} {w : Wait} (h : (c.g.arch.path c.iss.ent).wait = none) : c.keptWait w = w := by
  simp only [Ctx.keptWait, h]

/-- A latched abort that a wait covers (R154). -/
theorem latched_iff {s : State} {core k : Nat} {w : Wait} (hw : w.onChan k) : s.latched core w = true ↔
    ∃ op cause more, (s.chan core k).latch = some (op, cause, more) ∧ op ≤ w.covers := by
  obtain ⟨n, rfl⟩ | ⟨n, a, rfl⟩ := hw
  all_goals
    simp only [State.latched, Wait.covers]
    cases (s.chan core k).latch with
    | none => simp
    | some l => obtain ⟨op, cause, more⟩ := l; simp

/-- The group has observed the channel it calls `name` (07 R192). -/
def Group.observes (g : Group) (name : Nat) : Group := { g with seen := name :: g.seen.filter (· != name) }

section waits
variable {s : State} {c : Ctx} {k name : Nat} {w : Wait} (hfresh : (c.g.arch.path c.iss.ent).wait = none)
include hfresh

theorem copyWait_early (h : s.copyOver c.iss.core w = false) : c.copyWait s k name w = .error (.wait w) := by
  rw [Ctx.copyWait, keptWait_fresh hfresh, h]
  rfl

variable (hw : w.onChan k) (hover : s.copyOver c.iss.core w = true)
include hw hover

theorem copyWait_passes (h : ∀ op cause more, (s.chan c.iss.core k).latch = some (op, cause, more) → w.covers < op) :
    c.copyWait s k name w = .ok (c.finish (c.put s (c.g.observes name))) := by
  have hlatched : s.latched c.iss.core w = false := Bool.eq_false_iff.mpr fun hl => by
    obtain ⟨op, cause, more, hlatch, hle⟩ := (latched_iff hw).mp hl
    exact absurd (h op cause more hlatch) (Nat.not_lt.mpr hle)
  rw [Ctx.copyWait, keptWait_fresh hfresh, hover, hlatched]
  cases hlatch : (s.chan c.iss.core k).latch with
  | none => simp only [hlatch]; rfl
  | some l =>
    obtain ⟨op, cause, more⟩ := l
    simp only [hlatch, if_neg (Nat.not_le.mpr (h op cause more hlatch))]
    rfl

variable {op : Nat} {cause : BitVec 8} {more : Bool} (hlatch : (s.chan c.iss.core k).latch = some (op, cause, more))
  (hle : op ≤ w.covers)
include hlatch hle

theorem copyWait_drains (hr : c.g.rob ≠ []) : c.copyWait s k name w = .error (.wait w) := by
  have hlatched := (latched_iff hw).mpr ⟨op, cause, more, hlatch, hle⟩
  have hidle : c.g.idle = false := by simp [Group.idle, hr]
  rw [Ctx.copyWait, keptWait_fresh hfresh, hover, hlatched, hidle]
  rfl

omit hw in
theorem copyWait_aborted (hr : c.g.rob = []) : c.copyWait s k name w =
    .ok (c.trapPath (s.setChan c.iss.core k { s.chan c.iss.core k with latch := none })
      (FaultInfo.withOperand cause (BitVec.ofNat 64 (op % 2 ^ 48 + bitNat more 48)))) := by
  have hidle : c.g.idle = true := by simp [Group.idle, hr]
  rw [Ctx.copyWait, keptWait_fresh hfresh, hover, hidle]
  simp only [hlatch, if_pos hle]
  simp

end waits

/-- OPERAND of the trap of an aborted operation: its number, and whether others were aborted (15 Table 15-3). -/
theorem abortOperand_number {op : Nat} (h : op < 2 ^ 48) (more : Bool) :
    ((BitVec.ofNat 64 (op % 2 ^ 48 + bitNat more 48)).extractLsb' 0 48).toNat = op := by
  rw [bitNat_eq, BitVec.extractLsb'_toNat, BitVec.toNat_ofNat, Nat.shiftRight_zero]
  omega

theorem abortOperand_more (op : Nat) (more : Bool) :
    (BitVec.ofNat 64 (op % 2 ^ 48 + bitNat more 48)).getLsbD 48 = more := by
  have hmore := more.toNat_le
  rw [bitNat_eq]
  exact getLsbD_ofNat_eq (by decide) (by omega)

end Sys2Proof.Machine
end

section
/-!
The waits and reads of a channel, form by form (06 R158), and the commands of CH_CTL (06 R155).
-/
namespace Sys2Proof.Machine

open Sys2Proof.Safety

section forms
variable {s : State} {c : Ctx} {q : Quals} {a d : BitVec 6} {x : BitVec 3} (hi : Issues s c)
include hi

/-! ### Which wait each form makes -/

theorem exec_twait (hq : c.active q ≠ 0) {k : Nat} {n : DWord} (hk : ((s.team c.g).bind fun t => t.chans[x.toNat]?) = some k)
    (hn : ReadsS c a n) : exec (.twait q a x) s =
      c.outcome s (c.copyWait s k x.toNat (.copied k (min n.toNat (s.chan c.iss.core k).issued))) := by
  show execTwait q a x s = _
  rw [execTwait, run_outcome hi, if_neg (by simpa using hq), channel_some hk, readsS_ok hn]
  rfl

/-- WPWAIT for an operation that is queued. -/
theorem exec_wpwait_queued (hq : c.active q ≠ 0) {k : Nat} {n : DWord} {o : CopyOp}
    (hk : ((s.team c.g).bind fun t => t.chans[x.toNat]?) = some k) (hn : ReadsS c a n)
    (ho : (s.chan c.iss.core k).opAt n = some o) :
    exec (.wpwait q a x) s = c.outcome s (c.copyWait s k x.toNat (.wrote k o.num n)) := by
  show execWpwait q a x s = _
  rw [execWpwait, run_outcome hi, if_neg (by simpa using hq), channel_some hk, readsS_ok hn]
  simp only [except_ok_bind, ho]

/-- WPWAIT for an address that no operation, queued or completed, has written or will write. -/
theorem exec_wpwait_nowhere (hq : c.active q ≠ 0) {k : Nat} {n : DWord}
    (hk : ((s.team c.g).bind fun t => t.chans[x.toNat]?) = some k) (hn : ReadsS c a n)
    (ho : (s.chan c.iss.core k).opAt n = none)
    (hp : ∀ p ∈ (s.chan c.iss.core k).past, ¬ (p.1.toNat ≤ n.toNat ∧ n.toNat < p.1.toNat + p.2.1)) :
    exec (.wpwait q a x) s = c.outcome s (c.copyWait s k x.toNat (.copied k (s.chan c.iss.core k).issued)) := by
  have hfind : (s.chan c.iss.core k).past.find? (fun p => p.1.toNat ≤ n.toNat && n.toNat < p.1.toNat + p.2.1) = none :=
    List.find?_eq_none.mpr fun p hm => by simpa using hp p hm
  show execWpwait q a x s = _
  rw [execWpwait, run_outcome hi, if_neg (by simpa using hq), channel_some hk, readsS_ok hn]
  simp only [except_ok_bind, ho, hfind]

/-- The wait that TWAIT or WPWAIT of the value n makes on channel k. -/
def copyWaitForm (s : State) (c : Ctx) (q : Quals) (a : BitVec 6) (x : BitVec 3) (k : Nat) (n : DWord) (i : Instr)
    (w : Wait) : Prop :=
  (i = .twait q a x ∧ w = .copied k (min n.toNat (s.chan c.iss.core k).issued)) ∨
  (∃ o, i = .wpwait q a x ∧ (s.chan c.iss.core k).opAt n = some o ∧ w = .wrote k o.num n) ∨
  (i = .wpwait q a x ∧ (s.chan c.iss.core k).opAt n = none ∧
    (∀ p ∈ (s.chan c.iss.core k).past, ¬ (p.1.toNat ≤ n.toNat ∧ n.toNat < p.1.toNat + p.2.1)) ∧
    w = .copied k (s.chan c.iss.core k).issued)

theorem exec_copyWaitForm (hq : c.active q ≠ 0) {k : Nat} {n : DWord} {i : Instr} {w : Wait}
    (hk : ((s.team c.g).bind fun t => t.chans[x.toNat]?) = some k) (hn : ReadsS c a n)
    (h : copyWaitForm s c q a x k n i w) : exec i s = c.outcome s (c.copyWait s k x.toNat w) ∧ w.onChan k := by
  obtain ⟨rfl, rfl⟩ | ⟨o, rfl, ho, rfl⟩ | ⟨rfl, ho, hp, rfl⟩ := h
  · exact ⟨exec_twait hi hq hk hn, .inl ⟨_, rfl⟩⟩
  · exact ⟨exec_wpwait_queued hi hq hk hn ho, .inr ⟨_, _, rfl⟩⟩
  · exact ⟨exec_wpwait_nowhere hi hq hk hn ho hp, .inl ⟨_, rfl⟩⟩

/-- What a wait on a channel makes of the machine: it waits, passes and is observed, or reports an abort that it covers. -/
theorem copyWaitForm_answers (hq : c.active q ≠ 0) {k : Nat} {n : DWord} {i : Instr} {w : Wait}
    (hk : ((s.team c.g).bind fun t => t.chans[x.toNat]?) = some k) (hn : ReadsS c a n)
    (hfresh : (c.g.arch.path c.iss.ent).wait = none) (hform : copyWaitForm s c q a x k n i w) :
    (s.copyOver c.iss.core w = false → Waits i s c w) ∧
    (s.copyOver c.iss.core w = true → (∀ op cause more, (s.chan c.iss.core k).latch = some (op, cause, more) → w.covers < op) →
      ∃ t, exec i s = .next t ∧
        GroupOnly c s t { groupAfter c c.g.arch [] with seen := x.toNat :: c.g.seen.filter (· != x.toNat) }) ∧
    (∀ op cause more, s.copyOver c.iss.core w = true → (s.chan c.iss.core k).latch = some (op, cause, more) → op ≤ w.covers →
      c.g.rob ≠ [] → Waits i s c w) ∧
    (∀ op cause more, s.copyOver c.iss.core w = true → (s.chan c.iss.core k).latch = some (op, cause, more) → op ≤ w.covers →
      op < 2 ^ 48 → c.g.rob = [] → ∃ v x, exec i s = .next (c.trapPath v (FaultInfo.withOperand cause x)) ∧
        v = s.setChan c.iss.core k { s.chan c.iss.core k with latch := none } ∧ (x.extractLsb' 0 48).toNat = op ∧
        x.getLsbD 48 = more) := by
  obtain ⟨hexec, hw⟩ := exec_copyWaitForm hi hq hk hn hform
  refine ⟨fun hover => ?_, fun hover hl => ⟨c.finish (c.put s (c.g.observes x.toNat)), ?_, ?_⟩,
    fun op cause more hover hl hle hr => ?_,
    fun op cause more hover hl hle hop hr => ⟨_, _, ?_, rfl, abortOperand_number hop more, abortOperand_more op more⟩⟩
  · exact hexec.trans (by rw [copyWait_early hfresh hover]; rfl)
  · exact hexec.trans (by rw [copyWait_passes hfresh hw hover hl]; rfl)
  · simpa [groupAfter, Group.observes] using finish_put (s := s) (c := c) (c.g.observes x.toNat)
  · exact hexec.trans (by rw [copyWait_drains hfresh hw hover hl hle hr]; rfl)
  · exact hexec.trans (by rw [copyWait_aborted hfresh hover hl hle hr]; rfl)

/-! ### TREAD -/

/-- The context once its group has observed a channel. -/
def Ctx.observes (c : Ctx) (name : Nat) : Ctx := { c with g := c.g.observes name }

theorem tread_reads (hq : c.active q ≠ 0) {k : Nat} (hk : ((s.team c.g).bind fun t => t.chans[x.toNat]?) = some k)
    {f : Channel → DWord} {i : Instr} (hexec : exec i s = tread f q d x s) :
    ∃ b t, WritesS c.g.arch b d (f (s.chan c.iss.core k)) ∧ exec i s = .next t ∧
      GroupOnly c s t { groupAfter c b [] with seen := x.toNat :: c.g.seen.filter (· != x.toNat) } := by
  have hbody : exec i s = c.answer s (c.channel s x >>= fun k =>
      .ok ((c.observes x.toNat).writeS s d (f (s.chan c.iss.core k)))) := exec_once hi hexec hq
  rw [channel_some hk, except_ok_bind] at hbody
  refine ⟨_, _, writesS_setS _ d _, hbody, ?_⟩
  simpa [groupAfter, Ctx.observes, Group.observes, Ctx.writeS, Ctx.putArch, Ctx.put] using finish_put (s := s) (c := c)
    { c.g.observes x.toNat with arch := c.g.arch.setS d (f (s.chan c.iss.core k)) }

theorem tread_noChannel (hq : c.active q ≠ 0) (hk : ((s.team c.g).bind fun t => t.chans[x.toNat]?) = none)
    {f : Channel → DWord} {i : Instr} (hexec : exec i s = tread f q d x s) : Traps i s c (FaultInfo.ofCause causeProtection) := by
  have hbody : exec i s = c.answer s (c.channel s x >>= fun k =>
      .ok ((c.observes x.toNat).writeS s d (f (s.chan c.iss.core k)))) := exec_once hi hexec hq
  rw [channel_none hk] at hbody
  exact hbody

/-- With no lane active the five forms only move on. -/
theorem chanForms_idle (hq : c.active q = 0) : Idles (.twait q a x) s c ∧ Idles (.wpwait q a x) s c ∧
    Idles (.treadIss q d x) s c ∧ Idles (.treadDone q d x) s c ∧ Idles (.treadWp q d x) s c := by
  refine ⟨⟨_, ?_, finish_same hi⟩, ⟨_, ?_, finish_same hi⟩, once_idles hi rfl hq, once_idles hi rfl hq, once_idles hi rfl hq⟩
  · show execTwait q a x s = _
    rw [execTwait, run_outcome hi, if_pos (by simpa using hq)]
    rfl
  · show execWpwait q a x s = _
    rw [execWpwait, run_outcome hi, if_pos (by simpa using hq)]
    rfl

/-- A channel that the team does not have traps PROTECTION (R150). -/
theorem chanForms_noChannel (hq : c.active q ≠ 0) (hk : ((s.team c.g).bind fun t => t.chans[x.toNat]?) = none) :
    let f := FaultInfo.ofCause causeProtection
    Traps (.twait q a x) s c f ∧ Traps (.wpwait q a x) s c f ∧ Traps (.treadIss q d x) s c f ∧ Traps (.treadDone q d x) s c f ∧
      Traps (.treadWp q d x) s c f := by
  have hiss : exec (.treadIss q d x) s = tread (fun k => BitVec.ofNat 64 k.issued) q d x s := rfl
  have hdone : exec (.treadDone q d x) s = tread (fun k => BitVec.ofNat 64 k.completed) q d x s := rfl
  have hwp : exec (.treadWp q d x) s = tread (·.wp) q d x s := rfl
  refine ⟨?_, ?_, tread_noChannel hi hq hk hiss, tread_noChannel hi hq hk hdone, tread_noChannel hi hq hk hwp⟩
  · show execTwait q a x s = _
    rw [execTwait, run_outcome hi, if_neg (by simpa using hq), channel_none hk]
    rfl
  · show execWpwait q a x s = _
    rw [execWpwait, run_outcome hi, if_neg (by simpa using hq), channel_none hk]
    rfl

end forms

/-! ### CH_CTL (R155) -/

/-- With nothing stopped a command is ignored, with event 0x05. -/
theorem chanCmd_ignored {s : State} {core k : Nat} (h : (s.chan core k).stopped = none) :
    let off := 0x170000 + 0x40 * core + 8 * k
    exec (.chCtlResume core k) s = .next (s.event (dieOfCore core) 0x05 off (BitVec.ofNat 64 off) 1) ∧
      exec (.chCtlAbort core k) s = .next (s.event (dieOfCore core) 0x05 off (BitVec.ofNat 64 off) 2) := by
  have hcmd : ∀ cmd, cmd = 1 ∨ cmd = 2 → s.chanCmd core k cmd = s.event (dieOfCore core) 0x05 (0x170000 + 0x40 * core + 8 * k)
      (BitVec.ofNat 64 (0x170000 + 0x40 * core + 8 * k)) (BitVec.ofNat 64 cmd) := by
    rintro cmd (rfl | rfl) <;> simp only [State.chanCmd, h]
  exact ⟨congrArg Host.Outcome.next (hcmd 1 (.inl rfl)), congrArg Host.Outcome.next (hcmd 2 (.inr rfl))⟩

/-- What is dropped from the translations of a core and its die. -/
theorem mem_forget (s : State) (core vi : Nat) (as : List DWord) (t : Tlb) : t ∈ (s.forget core vi as).tlb ↔
    t ∈ s.tlb ∧ ¬ ((t.place = core ∨ t.place = 256 + dieOfCore core) ∧ t.vi = vi ∧
      ∃ a ∈ as, t.va ≤ a.toNat ∧ a.toNat < t.va + t.size) := by
  simp only [State.forget, List.mem_filter, Bool.not_eq_true', Bool.eq_false_iff, ne_eq, Bool.and_eq_true, Bool.or_eq_true,
    List.any_eq_true, beq_iff_eq, decide_eq_true_eq, and_assoc]

/-- CH_CTL retries the operation that is stopped (R155). -/
theorem chanCmd_resumes {s : State} {core k : Nat} {cause : BitVec 8} (h : (s.chan core k).stopped = some cause) :
    ∃ u, exec (.chCtlResume core k) s = .next u ∧ u.chan core k = { s.chan core k with stopped := none } ∧
      u = { s with chans := u.chans, tlb := u.tlb } ∧
      ∀ o r, (s.chan core k).ops = o :: r → ∀ t, t ∈ u.tlb ↔ t ∈ s.tlb ∧
        ¬ ((t.place = core ∨ t.place = 256 + dieOfCore core) ∧ t.vi = o.vi ∧
          ∃ a ∈ o.pieceAddrs, t.va ≤ a.toNat ∧ a.toNat < t.va + t.size) := by
  cases hops : (s.chan core k).ops with
  | nil =>
    have hcmd : s.chanCmd core k 1 = s.setChan core k { s.chan core k with stopped := none } := by
      simp only [State.chanCmd, h, hops]
    exact ⟨_, congrArg Host.Outcome.next hcmd, setChan_chan .., rfl, fun o r he => absurd he nofun⟩
  | cons o r =>
    have hcmd : s.chanCmd core k 1 =
        (s.setChan core k { s.chan core k with stopped := none }).forget core o.vi o.pieceAddrs := by
      simp only [State.chanCmd, h, hops]
    refine ⟨_, congrArg Host.Outcome.next hcmd, setChan_chan .., rfl, fun o' r' he t => ?_⟩
    cases he
    exact mem_forget _ core o.vi _ t

/-- The channel whose first operation is aborted: the lowest operation aborted and not reported stays latched (R154). -/
def Channel.aborted (x : Channel) (o : CopyOp) (cause : BitVec 8) : Channel :=
  { x with stopped := none, wp := o.dst + BitVec.ofNat 64 o.done,
           latch := match x.latch with
             | some (op, c, _) => some (op, c, true)
             | none => some (o.num, cause, false) }

theorem abortCopy_eq {s : State} {core k : Nat} {o : CopyOp} {r : List CopyOp} (ho : (s.chan core k).ops = o :: r)
    (cause : BitVec 8) :
    s.abortCopy core k cause = (s.setChan core k ((s.chan core k).aborted o cause)).endCopy core k o := by
  unfold State.abortCopy
  dsimp only
  split
  next h => exact absurd (h.symm.trans ho) nofun
  next o' r' h =>
    cases h.symm.trans ho
    rfl

/-- CH_CTL aborts the operation that is stopped (R154, R155). -/
theorem chanCmd_aborts {s : State} {core k : Nat} {cause : BitVec 8} (h : (s.chan core k).stopped = some cause) {o : CopyOp}
    {r : List CopyOp} (ho : (s.chan core k).ops = o :: r) : ∃ u, exec (.chCtlAbort core k) s = .next u ∧
      QueueIs (u.chan core k) r (o.dst + BitVec.ofNat 64 o.done) ∧ (u.chan core k).stopped = none ∧
      (u.chan core k).completed = (s.chan core k).completed + 1 ∧
      (u.chan core k).latch = ((s.chan core k).aborted o cause).latch ∧ u.mem = s.mem := by
  have hcmd : s.chanCmd core k 2 = s.abortCopy core k cause := by simp only [State.chanCmd, h]
  refine ⟨_, congrArg Host.Outcome.next (hcmd.trans (abortCopy_eq ho cause)), ?_⟩
  rw [endCopy_chan, endCopy_only, setChan_chan]
  obtain ⟨hq, hdone, hstop, hlatch⟩ := ended_spec ((s.chan core k).aborted o cause) o
  have hops : ((s.chan core k).aborted o cause).ops.drop 1 = r := by simp [Channel.aborted, ho]
  exact ⟨hops ▸ hq, hstop, hdone, hlatch, rfl⟩

end Sys2Proof.Machine
end

section
/-!
The pieces of an operation (06 R151 to R153), and what holds of copies as a whole.
-/
namespace Sys2Proof.Machine

open Sys2Proof.Safety

/-! ### The engine at a line of the core's own memories -/

theorem engineRead_local {s : State} {core n : Nat} {o : CopyOp} {a : DWord} {g : Group} {t : Target} {off : Nat}
    (hu : isUser a = false) (hp : inClass a 0xFF2 = false) (hg : s.group core o.grp = some g)
    (hl : s.locate core o.grp g false false 1 .l 0 a = .ok (t, off)) :
    s.engineRead core n o a = (s, .line (s.localLine t).1) := by
  rw [State.engineRead, if_neg (by simp [hu]), if_neg (by simp [hp])]
  simp only [hg, hl]

theorem engineWrite_local {s : State} {core k n : Nat} {o : CopyOp} {a : DWord} {l : Line} {g : Group} {t : Target} {off : Nat}
    (hu : isUser a = false) (hp : inClass a 0xFF2 = false) (hg : s.group core o.grp = some g)
    (hl : s.locate core o.grp g true false 1 .l 0 a = .ok (t, off)) : s.engineWrite core k o a n l =
      (s.setLocalLine t (Line.merge (s.localLine t).1 l (byteMask (a.toNat % 128) n)), .line 0) := by
  rw [State.engineWrite]
  simp only [hu, hp, hg, hl, Bool.false_eq_true, if_false]

/-! ### A piece has been written -/

theorem count_only (s : State) (vi i n : Nat) : s.count vi i n = { s with acct := (s.count vi i n).acct } := by
  unfold State.count
  split <;> rfl

/-- The channel once n more bytes of its first operation o are written. -/
def Channel.moved (x : Channel) (o : CopyOp) (r : List CopyOp) (n : Nat) : Channel :=
  { x with ops := { o with done := o.done + n } :: r, wp := o.dst + BitVec.ofNat 64 (o.done + n), asked := [], got := [],
           out := false }

/-- A written piece moves WP; the last one ends the operation. -/
theorem wrotePiece_spec {s : State} {core k : Nat} {o : CopyOp} {r : List CopyOp} (ho : (s.chan core k).ops = o :: r) (n : Nat) :
    let u := s.wrotePiece core k n
    u.mem = s.mem ∧ u.chan core k = if o.rows * o.len ≤ o.done + n then
        (((s.chan core k).moved o r n).ended { o with done := o.done + n }).started
      else (s.chan core k).moved o r n := by
  let v := s.setChan core k ((s.chan core k).moved o r n)
  let w := if inClass o.dst 0xFF2 || inClass o.src 0xFF2 then v.count o.vi 6 n else v
  have hw : w = { v with acct := w.acct } := by
    simp only [w]
    split
    · exact count_only ..
    · rfl
  have hchan : w.chan core k = (s.chan core k).moved o r n := by rw [hw]; exact setChan_chan ..
  have hmem : w.mem = s.mem := by rw [hw]; rfl
  have hwrote : s.wrotePiece core k n =
      if o.rows * o.len ≤ o.done + n then w.endCopy core k { o with done := o.done + n } else w := by
    simp only [State.wrotePiece, ho, w, v, CopyOp.total, Channel.moved]
  intro u
  rw [show u = _ from hwrote]
  split
  · rw [endCopy_chan, endCopy_only, hchan]
    exact ⟨hmem, rfl⟩
  · exact ⟨hmem, hchan⟩

/-! ### The next piece -/

section piece
variable {s : State} {core k : Nat} {o : CopyOp} {r : List CopyOp} (ho : (s.chan core k).ops = o :: r)
  (hstop : (s.chan core k).stopped = none) (hout : (s.chan core k).out = false)
include ho hstop hout

theorem copyPiece_begins (hb : o.begun = false) : s.copyPiece core k =
    s.setChan core k { s.chan core k with ops := { o with begun := true } :: r, wp := o.dst } := by
  simp only [State.copyPiece, State.beginCopy, ho, hstop, hout, hb, Option.isSome_none, Bool.or_self, Bool.false_eq_true,
    if_false, Bool.not_false, if_true]

theorem copyPiece_empty (hb : o.begun = true) (h : o.rows * o.len = 0) : s.copyPiece core k = s.endCopy core k o := by
  simp only [State.copyPiece, ho, hstop, hout, hb, h, CopyOp.total, Option.isSome_none, Bool.or_self, Bool.false_eq_true,
    if_false, Bool.not_true, BEq.rfl, if_true]

end piece

/-- The next piece of channel k goes from one line of the core's own memories to another. -/
structure LocalPiece (s : State) (core k : Nat) (o : CopyOp) (r : List CopyOp) (line : DWord) (t0 t1 : Target) : Prop where
  ops : (s.chan core k).ops = o :: r
  stopped : (s.chan core k).stopped = none
  out : (s.chan core k).out = false
  begun : o.begun = true
  left : o.done < o.rows * o.len
  source : o.srcLines = [line]
  fromHere : isUser line = false ∧ inClass line 0xFF2 = false
  toHere : isUser (o.dst + BitVec.ofNat 64 o.done) = false ∧ inClass (o.dst + BitVec.ofNat 64 o.done) 0xFF2 = false
  lines : ∃ g o0 o1, s.group core o.grp = some g ∧ s.locate core o.grp g false false 1 .l 0 line = .ok (t0, o0) ∧
    s.locate core o.grp g true false 1 .l 0 (o.dst + BitVec.ofNat 64 o.done) = .ok (t1, o1)

/-- A piece between two local lines is written at once. -/
theorem LocalPiece.moves {s : State} {core k : Nat} {o : CopyOp} {r : List CopyOp} {line : DWord} {t0 t1 : Target}
    (H : LocalPiece s core k o r line t0 t1) :
    s.copyPiece core k = (s.setLocalLine t1 (Line.merge (s.localLine t1).1 (o.pieceLine [(line, (s.localLine t0).1)])
      (byteMask ((o.dst + BitVec.ofNat 64 o.done).toNat % 128) o.piece))).wrotePiece core k o.piece := by
  obtain ⟨hops, hstop, hout, hb, hleft, hsource, ⟨hu, hp⟩, ⟨hu1, hp1⟩, g, o0, o1, hg, hread, hwrite⟩ := H
  have htotal : (o.rows * o.len == 0) = false := beq_false_of_ne (by omega)
  simp only [State.copyPiece, hops, hstop, hout, hb, CopyOp.total, htotal, hsource, Option.isSome_none, Bool.or_self,
    Bool.false_eq_true, if_false, Bool.not_true, State.readLines, engineRead_local hu hp hg hread, List.nil_append,
    engineWrite_local hu1 hp1 hg hwrite]

/-- A channel without an operation, one that is stopped, or one whose write is out does nothing. -/
theorem copyPiece_rests {s : State} {core k : Nat}
    (h : (s.chan core k).ops = [] ∨ (s.chan core k).stopped ≠ none ∨ (s.chan core k).out = true) : s.copyPiece core k = s := by
  cases hops : (s.chan core k).ops with
  | nil => simp only [State.copyPiece, hops]
  | cons o r =>
    have hrest : ((s.chan core k).stopped.isSome || (s.chan core k).out) = true := by
      rcases h with h | h | h
      · exact absurd (hops.symm.trans h) nofun
      · rw [Option.isSome_iff_ne_none.mpr h, Bool.true_or]
      · rw [h, Bool.or_true]
    simp only [State.copyPiece, hops, hrest, if_true]

theorem setLocalLine_chan (s : State) (cl bank off : Nat) (l : Line) (core k : Nat) :
    (s.setLocalLine (.scratch cl bank off) l).chan core k = s.chan core k := by
  rw [State.setLocalLine, State.chan, State.writeBytes_chans, State.chan]

/-- A piece from one local line to a scratch line: exactly its bytes are copied, and WP moves behind them. -/
theorem LocalPiece.copies {s : State} {core k : Nat} {o : CopyOp} {r : List CopyOp} {line : DWord} {t0 : Target}
    {cl bank off : Nat} (H : LocalPiece s core k o r line t0 (.scratch cl bank off)) (hm : Memory.wf s.mem = true)
    (hat : (o.dst + BitVec.ofNat 64 o.done).toNat = o.dst.toNat + o.done) :
    let u := s.copyPiece core k
    (∀ i, i < o.piece → Memory.byte u.mem (scratchCell cl bank off + (o.dst.toNat + o.done + i) % 128) =
      Line.byte (s.localLine t0).1 ((o.srcAt (o.done + i)).toNat % 128)) ∧
    (∀ m, (∀ i, i < o.piece → m ≠ scratchCell cl bank off + (o.dst.toNat + o.done + i) % 128) →
      Memory.byte u.mem m = Memory.byte s.mem m) ∧
    (o.done + o.piece < o.rows * o.len → (u.chan core k).ops = { o with done := o.done + o.piece } :: r ∧
      (u.chan core k).completed = (s.chan core k).completed ∧ (u.chan core k).wp = o.dst + BitVec.ofNat 64 (o.done + o.piece)) ∧
    (o.rows * o.len ≤ o.done + o.piece → QueueIs (u.chan core k) r (o.dst + BitVec.ofNat 64 (o.done + o.piece)) ∧
      (u.chan core k).completed = (s.chan core k).completed + 1) := by
  intro u
  obtain ⟨hbytes, hkept⟩ := scratch_written hm cl bank off (o.pieceLine [(line, (s.localLine t0).1)]) (piece_fits o)
  have hmoves := H.moves
  rw [hat] at hmoves
  change s.copyPiece core k = State.wrotePiece (s.setLocalLine (.scratch cl bank off) (Line.merge
    (s.localLine (.scratch cl bank off)).1 (o.pieceLine [(line, (s.localLine t0).1)]) (byteMask o.first o.piece))) core k o.piece
    at hmoves
  generalize hv : s.setLocalLine (.scratch cl bank off) _ = v at hmoves hbytes hkept
  have hchan : v.chan core k = s.chan core k := hv ▸ setLocalLine_chan ..
  obtain ⟨hmem, hafter⟩ := wrotePiece_spec (hchan ▸ H.ops) (s := v) o.piece
  rw [← hmoves, hchan] at hafter
  rw [← hmoves] at hmem
  refine ⟨fun i hi => ?_, fun m hne => ?_, fun hmore => ?_, fun hlast => ?_⟩
  · rw [hmem, piece_place hi, hbytes i hi, byte_pieceLine H.source _ hi]
  · rw [hmem]
    exact hkept m fun i hi => piece_place hi ▸ hne i hi
  · rw [if_neg (Nat.not_le.mpr hmore)] at hafter
    rw [hafter]
    exact ⟨rfl, rfl, rfl⟩
  · rw [if_pos hlast] at hafter
    rw [hafter]
    obtain ⟨hq, hcount, -, -⟩ := ended_spec ((s.chan core k).moved o r o.piece) { o with done := o.done + o.piece }
    exact ⟨hq, hcount⟩

/-! ### The obligation -/

/-- Settles O46: the two forms of CPY, the waits and reads, the pieces, and CH_CTL. -/
theorem copiesRun : Obligations.CopiesRun := by
  unfold Obligations.CopiesRun
  refine fun s => ⟨fun c i act d a b x shape hi hform => ?_, fun c q a d x hi => ?_, fun core k => ?_⟩
  · refine ⟨copyForm_idles hi hform, copyForm_noChannel hi hform, fun k dst src n hact hk hdst hsrc hn => ?_⟩
    have H : CopyRuns s c i act d a b x shape k dst src n := ⟨hi, hform, hact, hk, hdst, hsrc, hn⟩
    exact ⟨H.large, fun hok => ⟨H.drains hok, H.releases hok, H.full hok, H.queues hok⟩⟩
  · refine ⟨chanForms_idle hi, chanForms_noChannel hi, fun k n hq hk hn => ⟨fun i w hfresh hform =>
      copyWaitForm_answers hi hq hk hn hfresh hform, rfl, fun i v hform => ?_⟩⟩
    obtain ⟨rfl, rfl⟩ | ⟨rfl, rfl⟩ | ⟨rfl, rfl⟩ := hform
    · exact tread_reads hi hq hk (f := fun k => BitVec.ofNat 64 k.issued) rfl
    · exact tread_reads hi hq hk (f := fun k => BitVec.ofNat 64 k.completed) rfl
    · exact tread_reads hi hq hk (f := (·.wp)) rfl
  · refine ⟨fun h => congrArg Host.Outcome.next (copyPiece_rests h), fun o r ho hstop hout =>
      ⟨fun hb => congrArg Host.Outcome.next (copyPiece_begins ho hstop hout hb), fun hb h0 => ?_⟩, ?_, chanCmd_ignored,
      fun cause hstop => ⟨chanCmd_resumes hstop, fun o r ho => ?_⟩⟩
    · refine ⟨_, congrArg Host.Outcome.next (copyPiece_empty ho hstop hout hb h0), ?_, ?_, endCopy_empty h0⟩ <;>
        rw [endCopy_chan]
      all_goals
        obtain ⟨hq, hcount, -, -⟩ := ended_spec (s.chan core k) o
        rw [ho] at hq
      · exact hq
      · exact hcount
    · intro o r g line t0 o0 cl bank off o1 ho hstop hout hb hm hg hdone hl hu hp at1 hu1 hp1 hat hread hwrite
      have H : LocalPiece s core k o r line t0 (.scratch cl bank off) :=
        ⟨ho, hstop, hout, hb, hdone, hl, ⟨hu, hp⟩, ⟨hu1, hp1⟩, g, o0, o1, hg, hread, hwrite⟩
      exact ⟨_, rfl, H.copies hm hat⟩
    · exact chanCmd_aborts hstop ho

end Sys2Proof.Machine
end
